-- ==== Sys2Proof/Word.lean ====
section
/-!
DEFINITION. The words of the KN9-2 that software and the wires see as bits: the byte, the 512-bit metadata word (R198),
the 256-bit system header (R388), and the sparse map by which tables and the object dictionary are held.
-/

namespace Sys2Proof

/-- One byte of a frame, a datagram or an OCTETS object. -/
abbrev Byte := BitVec 8

/-- The 512-bit metadata word of R198; W0 holds bits [511:480], W15 holds bits [31:0]. -/
abbrev Meta := BitVec 512

/-- The 32-byte system header of R388; byte 0 is the most significant. -/
abbrev SysHdr := BitVec 256

/-- A sparse table by number: strictly rising keys, absent keys hold the table's default. -/
abbrev NMap (α : Type) := List (Nat × α)

end Sys2Proof
end

