-- ==== Sys2Proof/Syntax.lean ====
section
/-!
DEFINITION. The commands of the block: `Instr` has one constructor per row of spec/opcode_table.json, in the table's order, but that
the rows without operands stand last: Lean runs constructors that carry operands only up to the 245th.
Element numbers are bounded by their type; byte strings and values are bounded by WellFormed. A command that arrives as a
dictionary write carries its path and the argument bits [31:8] of the CMD value (R28).
-/

namespace Sys2Proof

/-- The three access paths of the dictionary (chapter 02). -/
inductive Path | window | mailbox | kdp
  deriving DecidableEq, Repr

/-- The functions of R7, in the order of their codes 0x01 to 0x15. -/
inductive Fn
  | host | mgmt | clk | line | otn | parse | eng | fwd | assoc | buf | swc | sched | pol | fab | prot | hbm | qdr
  | fwup | perf | trap | bpm
  deriving DecidableEq, Repr

/-- The clock domains that step 8 of wake-up releases (R77), in release order. -/
inductive Dom | pclk | xclk | pipe | eng
  deriving DecidableEq, Repr

/-- Status codes of R27. -/
inductive Status
  | ok | noObject | noSubindex | accessDenied | typeMismatch | range | notStopped | functionDisabled | busyStopping | busy
  | authFail | seqError | integrity | signature | noResource | internal | aborted | readFailed | translationFailed
  deriving DecidableEq, Repr

/-- How a completion of a read ended (R121). -/
inductive CplStatus | success | unsupported | abort | poisoned
  deriving DecidableEq, Repr

/-- What the ECC of a memory read found (R314, R432, R448). -/
inductive Ecc | clean | corrected | uncorrectable
  deriving DecidableEq, Repr

/-- A fault ordered set that a port receives (R144). -/
inductive FaultSet | none | localFault | remoteFault
  deriving DecidableEq, Repr

/-- The host-written part of a DMA descriptor (R113), bytes 0 to 23. -/
structure Desc where
  bufAddr   : Nat
  bufLength : Nat
  opcode    : Nat
  flags     : Nat
  reserved  : Nat
  arg       : Nat
  deriving DecidableEq, Repr

/-- What ended a pass on its thread (R229, R238). Codes 0x03 to 0x07 of R238 are raised by the pass itself. -/
inductive PassExc | bounds | length | profile | parity | illegal
  deriving DecidableEq, Repr

/-- A read of a word with bad parity (R284, R285, R307). `stage` is the stage of the chain, or no stage for a read that
a pass, a command, a learner or a flush makes; `tid` is the table by R260, or 9 for the associative engine; `key` is the number of the exact-match or
bridging entry that holds the word (sub-table and key, FID and MAC), if one does, and for a read without a stage the address or index that it looked up
in another table; `word` is the word's address in its region; `keyBad` tells that the key word of the entry is bad too; `len` is the prefix length
of an LPM node, and the half of a bridging word that a command on both halves reads; `tagBad` and `prioBad` concern the columns of an associative row. -/
structure BadRead where
  stage   : Option Nat
  tid     : Nat
  key     : Nat
  word    : Nat
  keyBad  : Bool
  len     : Nat
  tagBad  : Bool
  prioBad : Bool
  deriving DecidableEq, Repr

/-- A write word of the SMBus; `pecGood` is false when a wrong PEC byte follows it (R97). -/
structure SmbusWord where
  value   : BitVec 16
  pecGood : Bool
  deriving DecidableEq, Repr

/-- What a MAC sees of a frame that it receives: is its FCS right as it came from the line, and did a symbol of it arrive in error
(R147, R149)? -/
structure FrameCheck where
  fcsGood     : Bool
  symbolError : Bool
  deriving DecidableEq, Repr

/-- The argument of a command on a forwarding table, and the words with bad parity that it reads (R262, R284). -/
structure TblRead where
  arg : BitVec 24
  bad : List BadRead
  deriving DecidableEq, Repr

/-- A word with bad parity that a record of a buffer reads, with the record's number (R267, R284). -/
structure RecordRead where
  record : Nat
  read   : BadRead
  deriving DecidableEq, Repr

/-- The DMA ring whose records FWD performs, and the words with bad parity that they read (R267, R284). -/
structure TableTurn where
  ring : Fin 48
  bad  : List RecordRead
  deriving DecidableEq, Repr

/-- The engine cluster that searches, and the traffic class of the packet of the pass (R295, R476). -/
structure EngineCall where
  cluster : Fin 48
  tc      : Fin 8
  deriving DecidableEq, Repr

/-- The half whose learner acts, and the words with bad parity that it reads (R271, R284). -/
structure LearnTurn where
  half : Fin 2
  bad  : List BadRead
  deriving DecidableEq, Repr

/-- The argument of a search of the associative engine, and what the winner check finds bad: the row, its TAG, its priority (R305, R307). -/
structure AscLookup where
  arg     : BitVec 24
  bad     : Bool
  tagBad  : Bool
  prioBad : Bool
  deriving DecidableEq, Repr

/-- What a read of a statistics pair meets: bad parity on the die, or an error of external memory in one part of the word (R448, R485). -/
structure PairRead where
  parityBad : Bool
  ecc       : Ecc
  part      : Fin 2
  deriving DecidableEq, Repr

/-- What the update of its statistics pair meets at the outcome of a pass: the errors of the read, and the ENG cycles for which the thread holds its
packet until the update is taken (R483, R485). -/
structure StatUse where
  read : PairRead
  held : Nat
  deriving DecidableEq, Repr

/-- What an engine asks of the buffer pools (R335, R336): a buffer of so many bytes, the end of one, or bytes from an offset in one, read or
written. -/
inductive PoolRequest
  | alloc (bytes : Nat)
  | free (handle : BitVec 32)
  | read (handle : BitVec 32) (offset length : Nat)
  | write (handle : BitVec 32) (offset : Nat) (data : List Byte)
  deriving DecidableEq, Repr

/-- How a pass stands when it overruns a limit (R238): its cycles of the other kind, and what its statistics update meets. -/
structure Overrun where
  cycles : Nat
  stat   : StatUse
  deriving DecidableEq, Repr

/-- The argument of a read of a policer, and what the read of an extension policer's word meets (R376, R448). -/
structure PolLookup where
  arg  : BitVec 24
  ecc  : Ecc
  part : Fin 2
  deriving DecidableEq, Repr

/-- The policer whose word the walker visits, and what the read of that word meets (R445, R448). -/
structure PolVisit where
  policer : Nat
  ecc     : Ecc
  part    : Fin 2
  deriving DecidableEq, Repr

/-- The scheduler whose turn it is, and what the ECC of the words of the packet that it dequeues finds: how many were corrected, and whether one
could not be (R314). -/
structure PickTurn where
  scheduler : Fin 16
  corrected : Nat
  bad       : Bool
  deriving DecidableEq, Repr

/-- A memory write in the MSI-X table (R111, R117): its offset in the table, and the 4 or 8 bytes written. -/
structure MsixWrite where
  offset : Fin 1024
  data   : List Byte
  deriving DecidableEq, Repr

/-- The export set whose sweep reads a pair, and what the read meets (R485, R486). -/
structure ExportTurn where
  set  : Fin 16
  read : PairRead
  deriving DecidableEq, Repr

/-- What the vendor microcode leaves at the end of a pass: metadata words W8 to W15, the edited header window with the
frame's new head, its cost, whether an instruction-bank word failed parity, its table reads that met bad parity, what the
update of its statistics pair met, and its requests to the buffer pools (R226 to R229, R237, R241, R284, R335, R448, R485). -/
structure PassResult where
  words     : BitVec 256
  frame     : List Byte
  exc       : Option PassExc
  bankError : Bool
  issue     : Nat
  residence : Nat
  reads     : List BadRead
  stat      : StatUse
  requests  : List PoolRequest
  deriving DecidableEq, Repr

/-- What the framer of one OTUC slice sees in one frame period (R168 to R176). `fas` lists the bit positions at which all
48 FAS bits match, `fas32` tells whether bytes 2 to 5 match at the frame start, `markers` whether the FlexO instance holds
its alignment markers. -/
structure OtucObs where
  fas     : List Nat
  fas32   : Bool
  markers : Bool
  mfas    : Nat
  smBip   : Nat
  smBei   : Nat
  smBdi   : Bool
  pmBip   : Nat
  pmBei   : Nat
  pmBdi   : Bool
  tti     : Option (List Byte)
  deriving DecidableEq, Repr

/-- What the client demapper of one sub-port sees in one frame period (R176). -/
structure ClientObs where
  subport : Fin 512
  allOnes : Bool
  lock    : Bool
  pmBip   : Nat
  pmBei   : Nat
  pmBdi   : Bool
  lost    : Nat
  deriving DecidableEq, Repr

/-- Where and how a memory error struck in an HBM3E channel (R439). -/
structure HbmErr where
  pc       : Nat
  bank     : Nat
  column   : Nat
  row      : Nat
  lanes    : Nat
  segment  : Nat
  syndrome : Nat
  command  : Nat
  deriving DecidableEq, Repr

/-- The commands of spec/opcode_table.json, one constructor per row; the rows without operands stand last. -/
inductive Instr
  | objectWrite (p : Path) (index sub : Nat) (offset : Nat) (data : List Byte)
  | rcRead (p : Path) (index sub : Nat)
  | windowHalfWrite (upper : Bool) (index sub : Nat) (half : BitVec 32)
  | windowHalfRead (upper : Bool) (index sub : Nat)
  | mbxRead (p : Path) (arg : BitVec 24)
  | mbxWrite (p : Path) (arg : BitVec 24)
  | stagingCopyTimeout (index sub : Nat)
  | kdpRequest (source port : Nat) (datagram : List Byte)
  | kdpKeyWrite (p : Path) (slot : Fin 2) (key : List Byte)
  | kdpKeyRevoke (p : Path) (arg : BitVec 24)
  | ringEnable (p : Path) (ring : Fin 11)
  | enable (p : Path) (f : Fn) (arg : BitVec 24)
  | enableDone (f : Fn)
  | start (p : Path) (f : Fn) (arg : BitVec 24)
  | startDone (f : Fn) (report : List Nat)
  | startFailed (f : Fn) (status : Status)
  | stop (p : Path) (f : Fn) (arg : BitVec 24)
  | stopDone (f : Fn)
  | stopTimeout (f : Fn)
  | disable (p : Path) (f : Fn) (arg : BitVec 24)
  | disableDone (f : Fn)
  | evradFlitCrcFail (channel : Fin 18) (wire : Nat) (again : Bool)
  | evradWireFault (channel : Fin 18) (wire : Nat)
  | evradRetrainEnd (channel : Fin 18) (outage : Nat)
  | evradTrainingEnd (badWires : List (Fin 18 × Nat))
  | trimLoadDone (mgmtEn : Bool)
  | regPowerGood (n : Fin 9)
  | domainStable (d : Dom)
  | domainRelease (d : Dom)
  | clkStableTimeout (d : Dom)
  | wakeStepTimeout (ldoOk : Bool)
  | supplyFault (rail : Fin 10)
  | railExcursionStart (rail : Fin 10)
  | railExcursionEnd (rail : Fin 10) (extremeMv durationAon : Nat)
  | supplySample (vinMv powerDw : Nat) (railMv railMa : List Nat)
  | thermalSample (tjF tjT meanF meanT diodeF diodeT : Int)
  | thermalTrip (diodeF diodeT : Int)
  | sysReset (p : Path) (arg : BitVec 24)
  | coreReset (p : Path) (arg : BitVec 24)
  | monExcursion (d : Dom)
  | phyPllLocked (n : Fin 24)
  | phyPllUnlock (n : Fin 24)
  | pstateToP0 (p : Path) (arg : BitVec 24)
  | pstateToP1 (p : Path) (arg : BitVec 24)
  | pstateToP2 (p : Path) (arg : BitVec 24)
  | smbusResetCauseWrite (word : SmbusWord)
  | wakeRetry (data : Byte) (pecGood : Bool)
  | smbusSysReset (data : Byte) (pecGood : Bool)
  | p2Exit (data : Byte) (pecGood : Bool)
  | pcieLinkUp (speed : Fin 7) (width : Nat) (flit : Bool)
  | unsupportedRequest (posted : Bool) (header : Nat)
  | poisonedWrite (header : Nat)
  | doeRequest (vendor type : Nat) (payload : List Nat)
  | arm (p : Path) (r : Fin 48) (arg : BitVec 24)
  | halt (p : Path) (r : Fin 48) (arg : BitVec 24)
  | reset (p : Path) (r : Fin 48) (arg : BitVec 24)
  | ringHalted (r : Fin 48)
  | doorbell (ring : Fin 64) (value : BitVec 32)
  | descriptorFetch (r : Fin 48) (d : Desc)
  | descriptorComplete (r : Fin 48)
  | completionReceived (tag : Nat) (status : CplStatus) (data : List Byte) (last : Bool)
  | completionTimeout (tag : Nat)
  | unexpectedCpl (tag : Nat)
  | quarantineExpiry (tag : Nat)
  | coalTimeExpiry (v : Fin 64)
  | msixUnmask (w : MsixWrite)
  | translationCompletion (ring : Fin 64) (page sizeLog2 : Nat) (granted : Bool)
  | invalidateRequest (itag page sizeLog2 : Nat)
  | invalidateComplete (itag : Nat)
  | pairApply (p : Path) (k : Fin 4) (arg : BitVec 24)
  | adminUp (p : Path) (port : Fin 96) (up : Bool)
  | loopback (p : Path) (port : Fin 96) (mode : BitVec 8)
  | prbsMode (p : Path) (lane : Fin 240) (mode : BitVec 8)
  | laneLocked (lane : Fin 240) (taps : List Byte) (snr : Nat)
  | laneTrainFailed (lane : Fin 240) (snr : Nat)
  | laneTrainRetry (lane : Fin 240)
  | laneSignalLoss (lane : Fin 240) (los : Bool)
  | pcsAligned (port : Fin 96)
  | alignmentLoss (port : Fin 96) (hiSer : Bool)
  | faultReceived (port : Fin 96) (fault : FaultSet)
  | linkDownHoldExpiry (port : Fin 96)
  | fecWindowEnd (port : Fin 96) (corrected uncorrectable symbols : Nat)
  | bind (p : Path) (arg : BitVec 24)
  | unbind (p : Path) (arg : BitVec 24)
  | subportRead (p : Path) (arg : BitVec 24)
  | todCapture (p : Path) (arg : BitVec 24)
  | todSetNow (p : Path) (arg : BitVec 24)
  | todSetArm (p : Path) (arg : BitVec 24)
  | todSetCancel (p : Path) (arg : BitVec 24)
  | todStep (p : Path) (arg : BitVec 24)
  | synceHoldoffExpiry (n : Fin 2)
  | frameReceived (port : Fin 96) (client : Option (Fin 512)) (frame : List Byte) (check : FrameCheck)
      (bad : List BadRead)
  | assocSearch (t : Fin 16) (call : EngineCall) (key : Nat) (bad tagBad prioBad : Bool)
  | dispatch (slice : Fin 16) (bad : List BadRead)
  | passEnd (cluster : Fin 48) (packet : Nat) (res : PassResult)
  | cycleOverrun (cluster : Fin 48) (packet : Nat) (run : Overrun)
  | residenceOverrun (cluster : Fin 48) (packet : Nat) (run : Overrun)
  | reorderRelease (stage : Fin 8) (port : Fin 96)
  | reorderTimeout (stage : Fin 8) (port : Fin 96)
  | chainCopy (p : Path) (arg : BitVec 24)
  | chainSwap (p : Path) (arg : BitVec 24)
  | chainClear (p : Path) (arg : BitVec 24)
  | injectPort (r : Fin 48) (bad : List BadRead)
  | injectQueue (r : Fin 48)
  | egressSliceInput (s : Fin 8) (bad : List BadRead)
  | frameTransmit (port : Fin 96)
  | profileWrite (p : Path) (arg : BitVec 24)
  | profileRead (p : Path) (arg : BitVec 24)
  | profileClear (p : Path) (arg : BitVec 24)
  | profileHoldEnd (profile : Fin 4096)
  | profileRingWrite (r : Fin 48)
  | clusterRepairDone (cluster : Fin 48)
  | load (p : Path) (arg : BitVec 24)
  | mcodeLoaded (badCluster : Option (Fin 48))
  | switch (p : Path) (arg : BitVec 24)
  | clusterSwitch (cluster : Fin 48) (elapsed : Nat)
  | abort (p : Path) (arg : BitVec 24)
  | tblInsert (p : Path) (tid : Fin 8) (read : TblRead)
  | tblDelete (p : Path) (tid : Fin 8) (read : TblRead)
  | tblSearch (p : Path) (tid : Fin 8) (read : TblRead)
  | tblNext (p : Path) (tid : Fin 8) (read : TblRead)
  | flushPort (p : Path) (tid : Fin 8) (arg : BitVec 24)
  | flushDone (bad0 bad1 : List BadRead)
  | retire (p : Path) (tid : Fin 8) (arg : BitVec 24)
  | tableRingRecords (turn : TableTurn)
  | learnPerform (turn : LearnTurn)
  | sweepStart (w : Fin 3)
  | sweepVisit (w : Fin 3) (key : Nat) (parityBad keyBad : Bool)
  | ascInsert (p : Path) (arg : BitVec 24)
  | ascDelete (p : Path) (arg : BitVec 24)
  | ascSearch (p : Path) (lookup : AscLookup)
  | ascRead (p : Path) (arg : BitVec 24)
  | ascNext (p : Path) (arg : BitVec 24)
  | rowWrite (t : Fin 16) (bad tagBad prioBad : Bool)
  | assocRingRecords (r : Fin 48)
  | scrubRow (slice : Fin 24) (row : Nat) (bad tagBad prioBad : Bool)
  | qbufWrite (p : Path) (arg : BitVec 24)
  | qbufRead (p : Path) (arg : BitVec 24)
  | qbufRingRecords (r : Fin 48)
  | meter (n : Fin 8) (ecc : Ecc) (part : Fin 2)
  | segmentWriteIssue (q : Nat)
  | segmentWriteDone (q : Nat) (segment : Nat)
  | segmentReadIssue (q : Nat)
  | segmentReadDone (q : Nat) (segment : Nat) (ecc : Ecc) (err : HbmErr)
  | trimDone (channel : Fin 64)
  | bpmAlloc (p : Path) (arg : BitVec 24)
  | bpmFree (p : Path) (arg : BitVec 24)
  | bpmCheck (p : Path) (arg : BitVec 24)
  | schedulerPick (turn : PickTurn)
  | cellCloseTimeout (input output : Fin 16)
  | coreCellSend (input : Fin 16)
  | coreOutputRelease (output : Fin 16) (input : Fin 16)
  | reseqTimeout (output : Fin 16) (input : Fin 16)
  | ltFlushTimeExpiry (r : Fin 48)
  | nodeWrite (p : Path) (arg : BitVec 24)
  | nodeRead (p : Path) (arg : BitVec 24)
  | nodeRingRecords (r : Fin 48)
  | shapeWrite (p : Path) (arg : BitVec 24)
  | shapeRead (p : Path) (arg : BitVec 24)
  | fairWindowExpiry (q : Nat)
  | polWrite (p : Path) (arg : BitVec 24)
  | polRead (p : Path) (lookup : PolLookup)
  | polRingRecords (r : Fin 48)
  | pprofWrite (p : Path) (arg : BitVec 24)
  | pprofRead (p : Path) (arg : BitVec 24)
  | policerWalk (visit : PolVisit)
  | framingReceived (lane : Fin 144) (framing : BitVec 64)
  | cellReceived (lane : Fin 144) (header : BitVec 128) (payload : List Byte)
  | fabReseqTimeout (g : Fin 8) (source : Fin 2048)
  | reassemblyRelease (g : Fin 8) (source : Fin 2048)
  | fabCellCloseTimeout (g : Fin 8) (dest : Fin 2048)
  | fabCellSend (g : Fin 8)
  | sidebandBeacon (plane : Fin 6) (frame : BitVec 32)
  | beaconMiss (plane : Fin 6) (sideband : Bool)
  | removalWindowEnd (plane : Fin 6)
  | wtrExpiry (plane : Fin 6)
  | joinComplete (plane : Fin 6)
  | planeAdmin (p : Path) (plane : Fin 6) (value : BitVec 8)
  | keepGrantChange (level : Bool)
  | switchoverActive (port : Fin 96) (gap : Nat)
  | relinquishSet (p : Path) (arg : BitVec 24)
  | relinquishClear (p : Path) (arg : BitVec 24)
  | roleActivate (p : Path) (port : Fin 96) (arg : BitVec 24)
  | roleStandby (p : Path) (port : Fin 96) (arg : BitVec 24)
  | protMode (p : Path) (port : Fin 96) (value : BitVec 8)
  | chDrain (p : Path) (ch : Fin 64) (arg : BitVec 24)
  | chReleaseService (p : Path) (ch : Fin 64) (arg : BitVec 24)
  | chReleaseOut (p : Path) (ch : Fin 64) (arg : BitVec 24)
  | chRetrain (p : Path) (ch : Fin 64) (arg : BitVec 24)
  | channelTrained (ch : Fin 64) (swept refined : List (List Nat))
  | hbmTrack (ch : Fin 64) (tests : List (Bool × Bool))
  | stackTempSample (k : Fin 4) (temp : Int)
  | hbmScrub (ch : Fin 64) (ecc : Ecc) (err : HbmErr)
  | hbmCommandParity (ch : Fin 64) (err : HbmErr)
  | patternRun (p : Path) (arg : BitVec 24)
  | patternDone (errors delays eyes : List Byte)
  | qdrAddressParity (i : Fin 4) (repeats : Nat)
  | fwBegin (p : Path) (arg : BitVec 24)
  | fwWrite (p : Path) (arg : BitVec 24)
  | fwVerify (p : Path) (arg : BitVec 24)
  | verifyDone (readBack : Bool)
  | fwActivate (p : Path) (arg : BitVec 24)
  | fwConfirm (p : Path) (arg : BitVec 24)
  | fwAbort (p : Path) (arg : BitVec 24)
  | fwRevert (p : Path) (arg : BitVec 24)
  | bootSelect (flashAnswers : Bool) (storeGoodA storeGoodB : Bool)
  | keyRevoke (p : Path) (arg : BitVec 24)
  | settingsSave (p : Path) (arg : BitVec 24)
  | settingsApply (p : Path) (arg : BitVec 24)
  | freeze (p : Path) (arg : BitVec 24)
  | unfreeze (p : Path) (arg : BitVec 24)
  | snapshot (p : Path) (arg : BitVec 24)
  | snapPin (level : Bool)
  | statRead (p : Path) (arg : BitVec 24) (read : PairRead)
  | statReadClear (p : Path) (arg : BitVec 24) (read : PairRead)
  | statWrite (p : Path) (arg : BitVec 24)
  | exportPeriod (e : Fin 16)
  | exportPairRead (turn : ExportTurn)
  | prbsCheckerSync (lane : Fin 240) (inSync : Bool)
  | otucFramePeriod (g : Fin 12) (slice : Fin 16) (obs : OtucObs) (clients : List ClientObs)
  | integratedDefectTimer (g : Fin 12) (slice : Fin 16) (multiframe : Bool)
  | smDegSecond (g : Fin 12)
  | tsiWrite (p : Path) (arg : BitVec 24)
  | tsiRead (p : Path) (active : Bool) (arg : BitVec 24)
  | tsiCopy (p : Path) (arg : BitVec 24)
  | tsiClear (p : Path) (arg : BitVec 24)
  | tsiSwap (p : Path) (arg : BitVec 24)
  | tsiRingRecords (r : Fin 48)
  | mailboxAccessEnd
  | kdpResponse
  | vinGood
  | aonReady
  | refclkPresent
  | rootLock
  | railOff
  | wakeRetryTimer
  | aonLoss
  | porstN
  | srstN
  | commandedResetStart
  | coreResetRelease
  | mcWdt
  | rootClockLost
  | biasUpdate
  | pstateTransitionEnd
  | pciePllLocked
  | pciePllUnlock
  | mgmtPllUnlock
  | linkDown
  | bmeClear
  | functionLevelReset
  | flrDone
  | d3hot
  | aspmL1Entry
  | ppsOutPulse
  | ppsOutEnd
  | ppsInEdge
  | ppsInLost
  | trapDeliver
  | chainSwapDone
  | epochAdvance
  | beaconSend
  | protWtrExpiry
  | eraseDone
  | eraseTimeout
  | blockProgrammed
  | confirmWindowExpiry
  | mgmtPllLocked
  | busMasterEnableSet
  | returnToD0
  | atsEnableClear
  | tsiSwapped
  | keepGrantGlitch
  | smbusTimeout
  deriving DecidableEq, Repr

end Sys2Proof
end

