-- ==== Sys2Proof/Machine/Operands.lean ====
section
/-!
DEFINITION. Operand forms: bit fields of numbers, byte strings in both byte orders, signed 32-bit objects, CRCs, and the
sparse maps that hold tables and objects.
-/

namespace Sys2Proof.Machine

/-! ### Sparse maps -/

/-- The value listed for a key, if any. -/
def mfind {α : Type} : NMap α → Nat → Option α
  | [], _ => none
  | (k', v) :: t, k => if k' = k then some v else mfind t k

/-- The value of a key, or the default of an absent key. -/
def mget {α : Type} (m : NMap α) (d : α) (k : Nat) : α := (mfind m k).getD d

/-- List a value for a key, keeping the keys rising. -/
def mput {α : Type} : NMap α → Nat → α → NMap α
  | [], k, v => [(k, v)]
  | (k', v') :: t, k, v =>
    if k < k' then (k, v) :: (k', v') :: t
    else if k = k' then (k, v) :: t
    else (k', v') :: mput t k v

/-- Unlist a key. -/
def mdel {α : Type} (m : NMap α) (k : Nat) : NMap α := m.filter fun e => e.1 ≠ k

/-- Give a key a value; the default is never listed. -/
def mset {α : Type} [DecidableEq α] (m : NMap α) (d : α) (k : Nat) (v : α) : NMap α :=
  if v = d then mdel m k else mput m k v

/-- Change the value of a key. -/
def mupd {α : Type} [DecidableEq α] (m : NMap α) (d : α) (k : Nat) (f : α → α) : NMap α :=
  mset m d k (f (mget m d k))

/-- The canonical form of a sparse map: keys strictly rising. -/
def Rising {α : Type} : NMap α → Bool
  | [] => true
  | [_] => true
  | (k, _) :: (k', v') :: t => decide (k < k') && Rising ((k', v') :: t)

/-! ### Fields of numbers -/

/-- Bits [hi:lo] of a number. -/
def bits (n hi lo : Nat) : Nat := n / 2 ^ lo % 2 ^ (hi + 1 - lo)

/-- Bit i of a number. -/
def bit (n i : Nat) : Bool := n.testBit i

/-- A Boolean as 0 or 1. -/
def b2n (b : Bool) : Nat := if b then 1 else 0

/-- Set or clear bit i. -/
def setBit (n i : Nat) (b : Bool) : Nat :=
  if b then n ||| (1 <<< i) else if n.testBit i then n ^^^ (1 <<< i) else n

/-- Clear the bits of `m` (a W1C write, R29). -/
def clearBits (n m : Nat) : Nat := n ^^^ (n &&& m)

/-- A signed 32-bit object as an integer (R28, S32). -/
def toS32 (n : Nat) : Int := if n < 2147483648 then n else (n : Int) - 4294967296

/-- An integer as the stored value of an S32 object. -/
def ofS32 (i : Int) : Nat := (i % 4294967296).toNat

/-- Two's complement of a field of `w` bits. -/
def signed (w n : Nat) : Int := if n < 2 ^ (w - 1) then n else (n : Int) - 2 ^ w

/-! ### Byte strings -/

/-- The number whose byte 0 is lowest. -/
def leNat : List Byte → Nat
  | [] => 0
  | b :: t => b.toNat + 256 * leNat t

/-- The number whose byte 0 is highest. -/
def beNat (l : List Byte) : Nat := leNat l.reverse

/-- The `n` bytes of a number, byte 0 lowest. -/
def leBytes : Nat → Nat → List Byte
  | 0, _ => []
  | n + 1, v => BitVec.ofNat 8 v :: leBytes n (v / 256)

/-- The `n` bytes of a number, byte 0 highest. -/
def beBytes (n v : Nat) : List Byte := (leBytes n v).reverse

/-- `n` bytes of zero. -/
def zeros (n : Nat) : List Byte := List.replicate n 0

/-- The `n` bytes at offset `o`, short at the end of the string. -/
def slice (l : List Byte) (o n : Nat) : List Byte := (l.drop o).take n

/-- A string cut or padded with zeros to `n` bytes. -/
def fit (l : List Byte) (n : Nat) : List Byte := (l ++ zeros n).take n

/-- `l` with `d` in place of the bytes from offset `o`. -/
def splice (l : List Byte) (o : Nat) (d : List Byte) : List Byte := l.take o ++ d ++ l.drop (o + d.length)

/-- The big-endian field of `n` bytes at offset `o`. -/
def be (l : List Byte) (o n : Nat) : Nat := beNat (fit (l.drop o) n)

/-- The little-endian field of `n` bytes at offset `o`. -/
def le (l : List Byte) (o n : Nat) : Nat := leNat (fit (l.drop o) n)

/-! ### CRCs -/

/-- One bit of a reflected CRC register. -/
def crcBit (poly c : Nat) : Nat := if c % 2 = 1 then (c / 2) ^^^ poly else c / 2

/-- One byte of CRC-32C (reflected polynomial 0x82F63B78). -/
def crc32cByte (c : Nat) (b : Byte) : Nat :=
  (List.range 8).foldl (fun c _ => crcBit 0x82F63B78 c) (c ^^^ b.toNat)

/-- CRC-32C over a byte string, initial value and final inversion of all ones (R130, R455, R459). -/
def crc32c (l : List Byte) : Nat := l.foldl crc32cByte 0xFFFFFFFF ^^^ 0xFFFFFFFF

/-- One bit of a CRC-8 register of polynomial 0x07, most significant bit first. -/
def crc8Bit (c : Nat) : Nat := if c ≥ 128 then (c * 2 ^^^ 0x07) % 256 else c * 2

/-- CRC-8 of polynomial 0x07 over bytes, initial value 0 (R383, R502). -/
def crc8 (l : List Byte) : Nat :=
  l.foldl (fun c b => (List.range 8).foldl (fun c _ => crc8Bit c) (c ^^^ b.toNat)) 0

end Sys2Proof.Machine
end

