-- ==== Sys2Proof/Machine/Flags.lean ====
section
/-!
DEFINITION. Codes and flags: the status codes of R27, the function codes and states of R7 and R50, severities and ring numbers
of R59 and R61, and the cause and state codes that several chapters share.
-/

namespace Sys2Proof

/-- The code of a status (R27). -/
def Status.code : Status → Nat
  | .ok => 0x00 | .noObject => 0x01 | .noSubindex => 0x02 | .accessDenied => 0x03 | .typeMismatch => 0x04
  | .range => 0x05 | .notStopped => 0x06 | .functionDisabled => 0x07 | .busyStopping => 0x08 | .busy => 0x09
  | .authFail => 0x0A | .seqError => 0x0B | .integrity => 0x0C | .signature => 0x0D | .noResource => 0x0E
  | .internal => 0x0F | .aborted => 0x10 | .readFailed => 0x11 | .translationFailed => 0x12

/-- The code of a function (R7). -/
def Fn.code : Fn → Nat
  | .host => 0x01 | .mgmt => 0x02 | .clk => 0x03 | .line => 0x04 | .otn => 0x05 | .parse => 0x06 | .eng => 0x07
  | .fwd => 0x08 | .assoc => 0x09 | .buf => 0x0A | .swc => 0x0B | .sched => 0x0C | .pol => 0x0D | .fab => 0x0E
  | .prot => 0x0F | .hbm => 0x10 | .qdr => 0x11 | .fwup => 0x12 | .perf => 0x13 | .trap => 0x14 | .bpm => 0x15

/-- Every function, in the order of the codes. -/
def Fn.all : List Fn :=
  [.host, .mgmt, .clk, .line, .otn, .parse, .eng, .fwd, .assoc, .buf, .swc, .sched, .pol, .fab, .prot, .hbm, .qdr,
   .fwup, .perf, .trap, .bpm]

/-- The function of a code, if the code is defined (R7). -/
def Fn.ofCode (c : Nat) : Option Fn := Fn.all.find? fun f => f.code = c

namespace Machine

/-! ### Function states (R50) -/
abbrev DISABLED : Nat := 0
abbrev STOPPED : Nat := 1
abbrev STARTING : Nat := 2
abbrev RUNNING : Nat := 3
abbrev STOPPING : Nat := 4

/-! ### Severities (R59) -/
abbrev INFO : Nat := 0
abbrev NOTICE : Nat := 1
abbrev WARNING : Nat := 2
abbrev ERROR : Nat := 3
abbrev FATAL : Nat := 4

/-! ### DMA ring states and halt causes (R109, R110) -/
abbrev RING_OFF : Nat := 0
abbrev RING_ARMED : Nat := 1
abbrev RING_HALTING : Nat := 2
abbrev RING_HALTED : Nat := 3

/-- The severity of a completion: NOTICE when it is OK, `bad` otherwise (R60, R96). -/
def doneSeverity (st : Status) (bad : Nat) : Nat := if st = .ok then NOTICE else bad

end Machine
end Sys2Proof
end

