-- ==== Sys2Proof/Config.lean ====
section
/-!
DEFINITION. What the manual fixes per part or leaves open, as constants without a body: no proof can see their values.
Each names the log entry (notes/assumptions) that declares it.
-/

namespace Sys2Proof.Config

/-- What the instruction register of the TAP may select (R506, R97). -/
inductive TapInstr | bypass | idcode | samplePreload | extest | instrument
  deriving DecidableEq, Repr, Inhabited

/-- What a part's SERIAL was programmed from (R26). Log entry 10. -/
opaque serialProgrammed : BitVec 64
/-- SERIAL (R26): programmed per part, never 0 and never all ones. Log entry 10. -/
def serial : BitVec 64 :=
  if serialProgrammed = 0 ∨ serialProgrammed = BitVec.allOnes 64 then 1 else serialProgrammed
/-- What a part's MGMT_MAC was programmed from (R48), byte 0 lowest. Log entry 10. -/
opaque mgmtMacProgrammed : BitVec 48
/-- MGMT_MAC (R48): a universally administered unicast address, so that the two lowest bits of its first byte are 0. Log entry 10. -/
def mgmtMac : BitVec 48 := mgmtMacProgrammed &&& 0xFFFFFFFFFFFC
/-- HMAC-SHA-256 of R46 (key, message): the standard is named and not restated. Log entry 11. -/
opaque hmacSha256 : List Byte → List Byte → List Byte
/-- The SHA-384 digest of R454/R455. Log entry 11. -/
opaque sha384 : List Byte → List Byte
/-- ECDSA P-384 of R454: public key, digest, signature. Log entry 11. -/
opaque ecdsaP384 : List Byte → List Byte → List Byte → Bool
/-- The key hashes in OTP (R456), by key slot. Log entry 10. -/
opaque otpKeyHash : Nat → List Byte
/-- The uniform draw of R331 for a probability num/den strictly between 0 and 1, at the n-th draw. Log entry 12. -/
opaque redDraw : Nat → Nat → Nat → Bool
/-- A value the manual leaves open, at the n-th use of one: the model's counter `free` advances. Log entry 13. -/
opaque freeValue : Nat → BitVec 64
/-- Bytes of frames that the mapper of a packet client holds before it is full (R178): the manual gives no number. Log entry 46. -/
opaque mapperBytes : Nat
/-- The BIP-8 that a transmitted OTUC slice carries, by group, slice, SM (false) or ODUCn PM (true) level and root cycle: G.709 computes it over
the transmitted signal, whose payload no state of the block holds (R173). Log entry 46. -/
opaque otucBip8 : Nat → Nat → Bool → Nat → BitVec 8
/-- The place of a bridging entry in the address order of its half, by half and key (R283): the manual does not say where an entry lies.
Log entry 51. -/
opaque bridgePlace : Nat → Nat → Nat
/-- The place of an exact-match entry in the address order of its table, by its number (R281): the manual does not say where an entry lies.
Log entry 51. -/
opaque exactPlace : Nat → Nat
/-- The boot flash as delivered (R471 gives the versions in it as "flash"): image bytes, header included, of MC slots A and B (0, 1)
and engine slots A and B (2, 3). Log entry 14. -/
opaque flashImage : Nat → List Byte
/-- What a byte of the boot flash that no block of the image covers reads as. Log entry 14. -/
opaque erasedByte : Byte
/-- The settings stores as delivered: each saved entry as (key, value). Log entry 14. -/
opaque flashSettings : Nat → List (Nat × Nat)
/-- The formats of the two settings stores as delivered. Log entry 14. -/
opaque flashFormat : Nat → Nat
/-- The MC slot that the delivered boot record names as confirmed: 0 A, 1 B. Log entry 14. -/
opaque flashMcSlot : BitVec 1
/-- The settings store in force in the delivered boot record: 0 A, 1 B. Log entry 14. -/
opaque flashStore : BitVec 1
/-- The bytes that a settings store of a format holds for saved objects and keys: the layout belongs to the format (R464). Log entry 70. -/
opaque settingsBody : Nat → List (Nat × Nat) → Option (List (BitVec 8)) → Option (List (BitVec 8)) → List (BitVec 8)
/-- The CRC-32C field of a settings store that fails it, by sequence number (R464). Log entry 70. -/
opaque settingsBadCrc : Nat → BitVec 32
/-- The copy of the boot record in force at delivery (R453): 0 or 1. Log entry 14. -/
opaque flashRecord : BitVec 1
/-- The engine boot slot that the delivered boot record names (0 A, 1 B, 0xFF none), R471. Log entry 14. -/
opaque flashEngSlot : BitVec 8
/-- The security floors in OTP at delivery, by kind (R456). Log entry 10. -/
opaque otpFloor : Nat → BitVec 6
/-- The revoke bits in OTP at delivery (R456). Log entry 10. -/
opaque otpRevoked : BitVec 4

/-- The JEP106 manufacturer code in IDCODE (R506). Log entry 81. -/
opaque jep106 : BitVec 11
/-- Bits of the TAP's instruction register beyond the three that its five instructions need (R506). Log entry 81. -/
opaque tapIrMore : Nat
/-- Bits of the TAP's instruction register beyond the two that IEEE 1149.1 asks for (R506). Log entry 81. -/
def tapIrExtra : Nat := tapIrMore + 1
/-- What the codes of SAMPLE/PRELOAD, EXTEST, IDCODE and the IEEE 1687 instrument are taken from (R506). Log entry 81. -/
opaque tapCodeChoice : List Nat
/-- Those codes: four numbers that differ, none of them all ones, which is BYPASS. Log entry 81. -/
def tapCodes : List Nat :=
  (((tapCodeChoice ++ List.range 4).filter fun n => n < 2 ^ (tapIrExtra + 2) - 1).eraseDups).take 4
/-- The instruction that the contents of the instruction register select where no code of the four stands there (R506). Log entry 81. -/
opaque tapOther : List Bool → TapInstr

end Sys2Proof.Config
end

