-- ==== Sys2Proof/Machine/Catalogue.lean ====
section
/-!
DEFINITION. The object dictionary of the KN9-2 as a catalogue: one row per row of the object tables of spec/01 to spec/17,
with its index range, subindex range, type, access right, default and the values it may take (R24, R28, R29, R30), and the
function that owns it. Every object of the dictionary is found here and nowhere else.
-/

namespace Sys2Proof.Machine

/-- Object types (R28). -/
inductive Ty | bool | u8 | u16 | u32 | u64 | s32 | bits32 | enum8 | octets (n : Nat) | cmd
  deriving DecidableEq, Repr

/-- Access rights (R29). -/
inductive Acc | ro | rw | rws | wo | rc | w1c
  deriving DecidableEq, Repr

/-- The values that a written object may take, beyond its type's size: the last column of the object tables. `be n m lo w hi` is a byte
string of `n` bytes whose big-endian number has no bit outside `m` and, in the `w` bits from `lo` on, at most `hi`. -/
inductive Chk
  | any
  | rng (lo hi : Nat)
  | srng (lo hi : Int)
  | zeroOr (lo hi : Nat)
  | mask (m : Nat)
  | maskTop (m lo hi : Nat)
  | oneOf (l : List Nat)
  | mult (n : Nat)
  | steps (lo hi n : Nat)
  | stepsZ (lo hi n : Nat)
  | orFF (hi : Nat)
  | orFFFF (hi : Nat)
  | be (n m lo w hi : Nat)
  deriving DecidableEq, Repr

/-- One row of an object table: indexes `base` to `base + count - 1`, subindexes `sub` to `sub + subs - 1`. -/
structure Row where
  base  : Nat
  count : Nat
  sub   : Nat
  subs  : Nat
  ty    : Ty
  acc   : Acc
  dflt  : Nat
  chk   : Chk
  owner : Option Fn
  deriving DecidableEq, Repr

/-- Size of a type in bytes (R28). -/
def Ty.size : Ty → Nat
  | .bool | .u8 | .enum8 => 1
  | .u16 => 2
  | .u32 | .s32 | .bits32 | .cmd => 4
  | .u64 => 8
  | .octets n => n

/-- Objects of 0x1000 to 0x10FF. -/
def page10 : List Row := [
  ⟨0x1000, 1, 0x1, 1, .u16, .ro, 0x1F4C, .any, none⟩,
  ⟨0x1000, 1, 0x2, 1, .u16, .ro, 0x9A20, .any, none⟩,
  ⟨0x1000, 1, 0x3, 1, .u8, .ro, 0x11, .any, none⟩,
  ⟨0x1000, 1, 0x4, 1, (.octets 16), .ro, 16781440146682085213986180683, .any, none⟩,
  ⟨0x1001, 1, 0x1, 1, .u64, .ro, Config.serial.toNat, .any, none⟩,
  ⟨0x1002, 1, 0x1, 1, .u16, .ro, 0x102, .any, none⟩,
  ⟨0x1002, 1, 0x2, 1, .u32, .ro, 0, .any, none⟩]

/-- Objects of 0x1100 to 0x11FF. -/
def page11 : List Row := [
  ⟨0x1101, 21, 0x1, 1, .cmd, .wo, 0, .any, none⟩,
  ⟨0x1101, 1, 0x2, 1, .enum8, .ro, 3, .any, none⟩,
  ⟨0x1102, 20, 0x2, 1, .enum8, .ro, 0, .any, none⟩,
  ⟨0x1101, 21, 0x3, 1, .enum8, .ro, 0x0, .any, none⟩,
  ⟨0x1101, 21, 0x4, 1, .u32, .rw, 2500000, .rng 2500 250000000, none⟩,
  ⟨0x1101, 21, 0x5, 1, .u32, .rc, 0, .any, none⟩]

/-- Objects of 0x1200 to 0x12FF. -/
def page12 : List Row := [
  ⟨0x1200, 11, 0x1, 1, .u64, .rw, 0, .mult 32, none⟩,
  ⟨0x1200, 11, 0x2, 1, .u8, .rw, 10, .rng 6 16, none⟩,
  ⟨0x1200, 11, 0x3, 1, .u32, .ro, 0, .any, none⟩,
  ⟨0x1200, 11, 0x4, 1, .u32, .rw, 0, .any, none⟩,
  ⟨0x1200, 11, 0x5, 1, .bool, .rw, 0, .rng 0 1, none⟩,
  ⟨0x1200, 11, 0x6, 1, .u32, .rc, 0, .any, none⟩,
  ⟨0x1200, 11, 0x7, 1, .enum8, .rw, 0x0, .rng 0 4, none⟩]

/-- Objects of 0x2000 to 0x20FF. -/
def page20 : List Row := [
  ⟨0x2000, 1, 0x1, 1, .u16, .ro, 0, .any, none⟩,
  ⟨0x2000, 1, 0x2, 1, .u16, .ro, 0, .any, none⟩,
  ⟨0x2000, 1, 0x3, 1, .u16, .rc, 0, .any, none⟩,
  ⟨0x2000, 1, 0x4, 1, .bits32, .w1c, 0, .mask 0x3FF, none⟩,
  ⟨0x2010, 9, 0x1, 1, .u16, .ro, 0, .any, none⟩,
  ⟨0x2010, 9, 0x2, 1, .u32, .ro, 0, .any, none⟩,
  ⟨0x2010, 9, 0x3, 1, .u32, .rc, 0, .any, none⟩,
  ⟨0x2020, 1, 0x1, 1, .cmd, .wo, 0, .any, none⟩,
  ⟨0x2020, 1, 0x2, 1, .enum8, .ro, 0x0, .any, none⟩,
  ⟨0x2020, 1, 0x3, 1, .enum8, .ro, 0x0, .any, none⟩,
  ⟨0x2020, 1, 0x4, 1, .s32, .ro, 0, .any, none⟩,
  ⟨0x2020, 1, 0x5, 1, .s32, .ro, 0, .any, none⟩,
  ⟨0x2020, 1, 0x6, 1, .bool, .ro, 1, .any, none⟩]

/-- Objects of 0x2100 to 0x21FF. -/
def page21 : List Row := [
  ⟨0x2100, 1, 0x1, 1, .s32, .ro, 0, .any, none⟩,
  ⟨0x2100, 1, 0x2, 1, .s32, .ro, 0, .any, none⟩,
  ⟨0x2100, 1, 0x3, 1, .s32, .rw, 13500, .srng (-4000) (15000), none⟩,
  ⟨0x2100, 1, 0x4, 1, .s32, .rw, 14800, .srng (-4000) (15000), none⟩,
  ⟨0x2100, 1, 0x5, 1, .s32, .ro, 15800, .any, none⟩,
  ⟨0x2100, 1, 0x6, 1, .bits32, .w1c, 0, .mask 0xF, none⟩,
  ⟨0x2100, 1, 0x7, 1, .s32, .ro, 0, .any, none⟩,
  ⟨0x2100, 1, 0x8, 1, .s32, .ro, 0, .any, none⟩]

/-- Objects of 0x2400 to 0x24FF. -/
def page24 : List Row := [
  ⟨0x2400, 1, 0x1, 1, .enum8, .ro, 0x2, .any, some .clk⟩,
  ⟨0x2400, 1, 0x2, 1, .bits32, .ro, 0xF, .any, some .clk⟩,
  ⟨0x2400, 1, 0x3, 1, .bits32, .ro, 0, .any, some .clk⟩,
  ⟨0x2400, 1, 0x4, 1, .u32, .rc, 0, .any, some .clk⟩,
  ⟨0x2401, 1, 0x1, 1, .bits32, .ro, 0, .any, some .clk⟩,
  ⟨0x2401, 1, 0x2, 1, .u32, .rc, 0, .any, some .clk⟩,
  ⟨0x2401, 1, 0x3, 1, .bits32, .rws, 0xFFFFFF, .mask 0xFFFFFF, some .clk⟩]

/-- Objects of 0x2500 to 0x25FF. -/
def page25 : List Row := [
  ⟨0x2500, 1, 0x1, 1, .bits32, .w1c, 0, .mask 0x1FF, none⟩,
  ⟨0x2500, 1, 0x2, 1, .u8, .ro, 0x0, .any, none⟩,
  ⟨0x2500, 1, 0x3, 1, .u8, .ro, 1, .any, none⟩,
  ⟨0x2500, 1, 0x4, 1, .cmd, .wo, 0, .any, none⟩,
  ⟨0x2500, 1, 0x5, 1, .cmd, .wo, 0, .any, none⟩,
  ⟨0x2500, 1, 0x6, 1, .u8, .ro, 0xFF, .any, none⟩,
  ⟨0x2500, 1, 0x7, 1, .bits32, .ro, 0, .any, none⟩]

/-- Objects of 0x3000 to 0x30FF, part 1. -/
def page30a : List Row := [
  ⟨0x3010, 1, 0x1, 1, .enum8, .ro, 0x0, .any, none⟩,
  ⟨0x3010, 1, 0x2, 1, .u32, .ro, 0, .any, none⟩,
  ⟨0x3010, 1, 0x3, 1, .enum8, .ro, 0x0, .any, none⟩,
  ⟨0x3010, 1, 0x4, 1, .u32, .rc, 0, .any, none⟩,
  ⟨0x3020, 1, 0x1, 1, .cmd, .wo, 0, .any, none⟩,
  ⟨0x3020, 1, 0x2, 1, .u32, .rw, 0, .mask 0xFFFFFF, none⟩,
  ⟨0x3020, 1, 0x3, 1, .u16, .rw, 0, .rng 0 4095, none⟩,
  ⟨0x3020, 1, 0x4, 1, .u16, .rw, 0, .rng 1 4096, none⟩,
  ⟨0x3020, 1, 0x5, 1, .enum8, .ro, 0x0, .any, none⟩,
  ⟨0x3020, 1, 0x6, 1, .enum8, .ro, 0x0, .any, none⟩,
  ⟨0x3022, 2, 0x0, 256, (.octets 8), .rw, 0, .any, none⟩,
  ⟨0x3000, 1, 0x1, 1, .enum8, .ro, 0x0, .any, some .host⟩,
  ⟨0x3000, 1, 0x2, 1, .enum8, .ro, 0x0, .any, some .host⟩,
  ⟨0x3000, 1, 0x3, 1, .u8, .ro, 0, .any, some .host⟩,
  ⟨0x3000, 1, 0x4, 1, .bool, .ro, 0, .any, some .host⟩,
  ⟨0x3000, 1, 0x5, 1, .enum8, .rw, 0x6, .rng 1 6, some .host⟩,
  ⟨0x3000, 1, 0x6, 1, .u32, .rc, 0, .any, some .host⟩,
  ⟨0x3000, 1, 0x7, 1, .u32, .rw, 2500, .rng 250 250000, some .host⟩,
  ⟨0x3000, 1, 0x8, 1, .u64, .ro, 0, .any, some .host⟩,
  ⟨0x3000, 1, 0x9, 1, .u32, .rc, 0, .any, some .host⟩,
  ⟨0x3000, 1, 0xA, 1, .u32, .rc, 0, .any, some .host⟩,
  ⟨0x3000, 1, 0xB, 1, .u16, .ro, 0, .any, some .host⟩,
  ⟨0x3000, 1, 0xC, 1, .u32, .rw, 250000000, .rng 2500000 4000000000, some .host⟩,
  ⟨0x3000, 1, 0xD, 1, .u16, .ro, 0, .any, some .host⟩]

/-- Objects of 0x3000 to 0x30FF, part 2. -/
def page30b : List Row := [
  ⟨0x3000, 1, 0xE, 1, .u32, .rc, 0, .any, some .host⟩,
  ⟨0x3000, 1, 0xF, 1, .u32, .rc, 0, .any, some .host⟩,
  ⟨0x3000, 1, 0x10, 1, .u32, .rc, 0, .any, some .host⟩,
  ⟨0x3000, 1, 0x11, 1, .u64, .ro, 0, .any, some .host⟩,
  ⟨0x3000, 1, 0x12, 1, .u64, .ro, 0, .any, some .host⟩,
  ⟨0x3000, 1, 0x13, 1, .u32, .rc, 0, .any, some .host⟩,
  ⟨0x3000, 1, 0x14, 1, .u16, .ro, 0, .any, some .host⟩,
  ⟨0x3000, 1, 0x15, 1, .bool, .ro, 0, .any, some .host⟩]

/-- Objects of 0x3000 to 0x30FF. -/
def page30 : List Row := page30a ++ page30b

/-- Objects of 0x3100 to 0x31FF. -/
def page31 : List Row := [
  ⟨0x3100, 48, 0x1, 1, .u64, .rw, 0, .any, some .host⟩,
  ⟨0x3100, 48, 0x2, 1, .u8, .rw, 10, .rng 6 16, some .host⟩,
  ⟨0x3100, 48, 0x3, 1, .enum8, .rw, 0x0, .rng 0 5, some .host⟩,
  ⟨0x3100, 48, 0x4, 1, .u32, .rw, 0, .any, some .host⟩,
  ⟨0x3100, 48, 0x5, 1, .cmd, .wo, 0, .any, some .host⟩,
  ⟨0x3100, 48, 0x6, 1, .enum8, .ro, 0x0, .any, some .host⟩,
  ⟨0x3100, 48, 0x7, 1, .enum8, .ro, 0x0, .any, some .host⟩,
  ⟨0x3100, 48, 0x8, 1, .u32, .ro, 0, .any, some .host⟩,
  ⟨0x3100, 48, 0x9, 1, .u32, .ro, 0, .any, some .host⟩,
  ⟨0x3100, 48, 0xA, 1, .u64, .ro, 0, .any, some .host⟩,
  ⟨0x3100, 48, 0xB, 1, .u32, .rc, 0, .any, some .host⟩,
  ⟨0x3100, 48, 0xC, 1, .u32, .rc, 0, .any, some .host⟩]

/-- Objects of 0x3200 to 0x32FF. -/
def page32 : List Row := [
  ⟨0x3200, 64, 0x1, 1, .u16, .rw, 1, .rng 1 65535, some .host⟩,
  ⟨0x3200, 64, 0x2, 1, .u32, .rw, 2500, .rng 0 250000000, some .host⟩,
  ⟨0x3200, 64, 0x3, 1, .u64, .ro, 0, .any, some .host⟩]

/-- Objects of 0x3400 to 0x34FF. -/
def page34 : List Row := [
  ⟨0x3400, 1, 0x1, 1, .enum8, .rws, 0x0, .rng 0 1, some .mgmt⟩,
  ⟨0x3400, 1, 0x2, 1, (.octets 6), .ro, Config.mgmtMac.toNat, .any, some .mgmt⟩,
  ⟨0x3401, 1, 0x1, 1, (.octets 16), .rws, 0, .any, some .mgmt⟩,
  ⟨0x3401, 1, 0x2, 1, .u8, .rws, 64, .rng 1 128, some .mgmt⟩,
  ⟨0x3401, 1, 0x3, 1, (.octets 16), .rws, 0, .any, some .mgmt⟩,
  ⟨0x3402, 1, 0x1, 1, .u16, .ro, 47871, .any, some .mgmt⟩,
  ⟨0x3402, 1, 0x2, 1, .u64, .ro, 0, .any, some .mgmt⟩,
  ⟨0x3402, 1, 0x3, 1, .u32, .rc, 0, .any, some .mgmt⟩,
  ⟨0x3402, 1, 0x4, 1, .u32, .rc, 0, .any, some .mgmt⟩,
  ⟨0x3402, 1, 0x5, 1, .u32, .rc, 0, .any, some .mgmt⟩,
  ⟨0x3402, 1, 0x6, 1, .u32, .rc, 0, .any, some .mgmt⟩,
  ⟨0x3410, 1, 0x1, 1, (.octets 32), .wo, 0, .any, some .mgmt⟩,
  ⟨0x3410, 1, 0x2, 1, (.octets 32), .wo, 0, .any, some .mgmt⟩,
  ⟨0x3410, 1, 0x3, 1, .bits32, .ro, 0, .any, some .mgmt⟩,
  ⟨0x3410, 1, 0x4, 1, .cmd, .wo, 0, .any, some .mgmt⟩,
  ⟨0x3420, 1, 0x1, 1, (.octets 16), .rw, 0, .any, some .mgmt⟩,
  ⟨0x3420, 1, 0x2, 1, .u16, .rw, 47871, .any, some .mgmt⟩,
  ⟨0x3420, 1, 0x3, 1, .bits32, .rw, 0, .mask 0xFFFF, some .mgmt⟩,
  ⟨0x3420, 1, 0x4, 1, .u8, .rw, 0, .rng 0 1, some .mgmt⟩]

/-- Objects of 0x4000 to 0x40FF. -/
def page40 : List Row := [
  ⟨0x40F0, 4, 0x1, 1, .enum8, .rw, 0x0, .rng 0 5, some .line⟩,
  ⟨0x40F0, 4, 0x2, 1, .enum8, .ro, 0x0, .any, some .line⟩,
  ⟨0x40F0, 4, 0x3, 1, .cmd, .wo, 0, .any, some .line⟩,
  ⟨0x4000, 96, 0x1, 1, .bool, .rw, 0, .rng 0 1, some .line⟩,
  ⟨0x4000, 96, 0x2, 1, .enum8, .rw, 0x0, .rng 0 1, some .line⟩,
  ⟨0x4000, 96, 0x3, 1, .enum8, .ro, 0x0, .any, some .line⟩,
  ⟨0x4000, 96, 0x4, 1, .u16, .rw, 10240, .rng 256 10240, some .line⟩,
  ⟨0x4000, 96, 0x5, 1, .enum8, .rw, 0x0, .rng 0 2, some .line⟩,
  ⟨0x4000, 96, 0x6, 1, .u32, .rw, 0, .rng 0 25000000, some .line⟩,
  ⟨0x4000, 96, 0x7, 1, .u32, .rws, 125000000, .rng 25000000 750000000, some .line⟩,
  ⟨0x4000, 96, 0x8, 1, .s32, .rw, 0, .srng (-100000) (100000), some .line⟩,
  ⟨0x4000, 96, 0x9, 1, .s32, .rw, 0, .srng (-100000) (100000), some .line⟩,
  ⟨0x4080, 1, 0x1, 1, .cmd, .wo, 0, .any, some .line⟩,
  ⟨0x4080, 1, 0x2, 1, .u32, .rw, 0, .mask 0xFF, some .line⟩,
  ⟨0x4080, 1, 0x3, 1, .enum8, .ro, 0x0, .any, some .line⟩,
  ⟨0x4080, 1, 0x4, 1, .u64, .ro, 0, .any, some .line⟩]

/-- Objects of 0x4100 to 0x41FF. -/
def page41 : List Row := [
  ⟨0x4100, 96, 0x1, 1, .enum8, .ro, 0x0, .any, some .line⟩,
  ⟨0x4100, 96, 0x2, 1, .enum8, .ro, 0x0, .any, some .line⟩,
  ⟨0x4100, 96, 0x3, 1, .u32, .rc, 0, .any, some .line⟩,
  ⟨0x4100, 96, 0x4, 1, .u64, .ro, 0, .any, some .line⟩,
  ⟨0x4100, 96, 0x5, 1, .u64, .ro, 0, .any, some .line⟩,
  ⟨0x4100, 96, 0x6, 1, .u64, .ro, 0, .any, some .line⟩,
  ⟨0x4100, 96, 0x7, 1, .u64, .ro, 0, .any, some .line⟩,
  ⟨0x4100, 96, 0x8, 1, .u64, .ro, 0, .any, some .line⟩,
  ⟨0x4100, 96, 0x9, 1, .u64, .ro, 0, .any, some .line⟩,
  ⟨0x4100, 96, 0xA, 1, .u64, .ro, 0, .any, some .line⟩,
  ⟨0x4100, 96, 0xB, 1, .u64, .ro, 0, .any, some .line⟩,
  ⟨0x4100, 96, 0xC, 1, .u64, .ro, 0, .any, some .line⟩]

/-- Objects of 0x4200 to 0x42FF. -/
def page42 : List Row := [
  ⟨0x4200, 96, 0x1, 1, .enum8, .rw, 0x0, .rng 0 1, some .line⟩,
  ⟨0x4200, 96, 0x2, 1, .u64, .ro, 0, .any, some .line⟩,
  ⟨0x4200, 96, 0x3, 1, .u64, .ro, 0, .any, some .line⟩,
  ⟨0x4200, 96, 0x4, 1, .u64, .ro, 0, .any, some .line⟩,
  ⟨0x4200, 96, 0x5, 1, .u64, .ro, 0, .any, some .line⟩,
  ⟨0x4200, 96, 0x6, 1, .u32, .rw, 4000, .rng 1 8192, some .line⟩,
  ⟨0x4200, 96, 0x7, 1, .u32, .rw, 1000, .any, some .line⟩,
  ⟨0x4200, 96, 0x8, 1, .bool, .ro, 0, .any, some .line⟩]

/-- Objects of 0x4300 to 0x43FF. -/
def page43 : List Row := [
  ⟨0x4300, 96, 0x1, 1, .enum8, .ro, 0x0, .any, some .line⟩,
  ⟨0x4360, 144, 0x1, 1, .enum8, .ro, 0x0, .any, some .fab⟩,
  ⟨0x4300, 96, 0x2, 1, .bool, .rws, 0, .rng 0 1, some .line⟩,
  ⟨0x4360, 144, 0x2, 1, .bool, .rws, 0, .rng 0 1, some .fab⟩,
  ⟨0x4300, 96, 0x3, 1, .bool, .rws, 0, .rng 0 1, some .line⟩,
  ⟨0x4360, 144, 0x3, 1, .bool, .rws, 0, .rng 0 1, some .fab⟩,
  ⟨0x4300, 96, 0x4, 1, .bool, .rws, 1, .rng 0 1, some .line⟩,
  ⟨0x4360, 144, 0x4, 1, .bool, .rws, 1, .rng 0 1, some .fab⟩,
  ⟨0x4300, 96, 0x5, 1, (.octets 6), .rws, 955777024, .any, some .line⟩,
  ⟨0x4360, 144, 0x5, 1, (.octets 6), .rws, 955777024, .any, some .fab⟩,
  ⟨0x4300, 96, 0x6, 1, (.octets 6), .ro, 0, .any, some .line⟩,
  ⟨0x4360, 144, 0x6, 1, (.octets 6), .ro, 0, .any, some .fab⟩,
  ⟨0x4300, 96, 0x7, 1, .u16, .ro, 0, .any, some .line⟩,
  ⟨0x4360, 144, 0x7, 1, .u16, .ro, 0, .any, some .fab⟩,
  ⟨0x4300, 96, 0x8, 1, .u32, .rc, 0, .any, some .line⟩,
  ⟨0x4360, 144, 0x8, 1, .u32, .rc, 0, .any, some .fab⟩,
  ⟨0x4300, 96, 0x9, 1, .enum8, .rw, 0x0, .rng 0 3, some .line⟩,
  ⟨0x4360, 144, 0x9, 1, .enum8, .rw, 0x0, .rng 0 3, some .fab⟩,
  ⟨0x4300, 96, 0xA, 1, .bool, .ro, 0, .any, some .line⟩,
  ⟨0x4360, 144, 0xA, 1, .bool, .ro, 0, .any, some .fab⟩,
  ⟨0x4300, 96, 0xB, 1, .u64, .rc, 0, .any, some .line⟩,
  ⟨0x4360, 144, 0xB, 1, .u64, .rc, 0, .any, some .fab⟩]

/-- Objects of 0x4400 to 0x44FF. -/
def page44 : List Row := [
  ⟨0x4400, 1, 0x1, 1, .cmd, .wo, 0, .any, some .clk⟩,
  ⟨0x4400, 1, 0x2, 1, .u64, .ro, 0, .any, some .clk⟩,
  ⟨0x4400, 1, 0x3, 1, .u32, .ro, 0, .any, some .clk⟩,
  ⟨0x4400, 1, 0x4, 1, .u64, .rw, 0, .rng 0 281474976710655, some .clk⟩,
  ⟨0x4400, 1, 0x5, 1, .u32, .rw, 0, .rng 0 999999999, some .clk⟩,
  ⟨0x4400, 1, 0x6, 1, .cmd, .wo, 0, .any, some .clk⟩,
  ⟨0x4400, 1, 0x7, 1, .cmd, .wo, 0, .any, some .clk⟩,
  ⟨0x4400, 1, 0x8, 1, .s32, .rw, 0, .srng (-500000000) (500000000), some .clk⟩,
  ⟨0x4400, 1, 0x9, 1, .u32, .rc, 0, .any, some .clk⟩,
  ⟨0x4400, 1, 0xA, 1, .bool, .ro, 0, .any, some .clk⟩,
  ⟨0x4401, 1, 0x1, 1, .bool, .rw, 0, .rng 0 1, some .clk⟩,
  ⟨0x4401, 1, 0x2, 1, .u32, .rw, 100000000, .rng 1000 500000000, some .clk⟩,
  ⟨0x4401, 1, 0x3, 1, .s32, .rw, 0, .srng (-500000000) (499999999), some .clk⟩,
  ⟨0x4401, 1, 0x4, 1, .bool, .rw, 0, .rng 0 1, some .clk⟩,
  ⟨0x4401, 1, 0x5, 1, .s32, .rw, 0, .srng (-1000000) (1000000), some .clk⟩,
  ⟨0x4401, 1, 0x6, 1, .u64, .ro, 0, .any, some .clk⟩,
  ⟨0x4401, 1, 0x7, 1, .u32, .ro, 0, .any, some .clk⟩,
  ⟨0x4401, 1, 0x8, 1, .u32, .ro, 0, .any, some .clk⟩,
  ⟨0x4410, 2, 0x1, 1, .u8, .rw, 0xFF, .orFF 95, some .clk⟩,
  ⟨0x4410, 2, 0x2, 1, .u16, .rw, 4250, .rng 340 65535, some .clk⟩,
  ⟨0x4410, 2, 0x3, 1, .enum8, .ro, 0x0, .any, some .clk⟩,
  ⟨0x4410, 2, 0x4, 1, .u32, .rw, 2500000, .rng 0 250000000, some .clk⟩,
  ⟨0x4410, 2, 0x5, 1, .u32, .rc, 0, .any, some .clk⟩]

/-- Objects of 0x4800 to 0x48FF, part 1. -/
def page48a : List Row := [
  ⟨0x4880, 1, 0x1, 1, .cmd, .wo, 0, .any, some .otn⟩,
  ⟨0x4880, 1, 0x2, 1, .u32, .rw, 0, .mask 0x11FFF, some .otn⟩,
  ⟨0x4880, 1, 0x3, 1, .u32, .rw, 0, .maskTop 0xF0001FFF 28 3, some .otn⟩,
  ⟨0x4880, 1, 0x4, 1, .enum8, .ro, 0x0, .any, some .otn⟩,
  ⟨0x4880, 1, 0x5, 1, .enum8, .ro, 0x0, .any, some .otn⟩,
  ⟨0x4880, 1, 0x6, 1, .u32, .ro, 0, .any, some .otn⟩,
  ⟨0x4880, 1, 0x7, 1, .u32, .ro, 0, .any, some .otn⟩,
  ⟨0x4880, 1, 0x8, 1, .u8, .ro, 0, .any, some .otn⟩,
  ⟨0x4800, 12, 0x1, 1, .u8, .rws, 0xFF, .orFF 95, some .otn⟩,
  ⟨0x4800, 12, 0x2, 1, .u8, .rws, 0, .rng 0 16, some .otn⟩,
  ⟨0x4800, 12, 0x3, 1, .bool, .rw, 0, .rng 0 1, some .otn⟩,
  ⟨0x4800, 12, 0x4, 1, (.octets 64), .rw, 0, .any, some .otn⟩,
  ⟨0x4800, 12, 0x5, 1, (.octets 32), .rw, 0, .any, some .otn⟩,
  ⟨0x4800, 12, 0x6, 1, (.octets 64), .ro, 0, .any, some .otn⟩,
  ⟨0x4800, 12, 0x7, 1, .enum8, .ro, 0x0, .any, some .otn⟩,
  ⟨0x4800, 12, 0x8, 1, .bits32, .ro, 0, .any, some .otn⟩,
  ⟨0x4800, 12, 0x9, 1, .u64, .ro, 0, .any, some .otn⟩,
  ⟨0x4800, 12, 0xA, 1, .u64, .ro, 0, .any, some .otn⟩,
  ⟨0x4800, 12, 0xB, 1, .u64, .ro, 0, .any, some .otn⟩,
  ⟨0x4800, 12, 0xC, 1, .u64, .ro, 0, .any, some .otn⟩,
  ⟨0x4800, 12, 0xD, 1, .u32, .rc, 0, .any, some .otn⟩,
  ⟨0x4800, 12, 0xE, 1, .u8, .ro, 0, .any, some .otn⟩,
  ⟨0x4800, 12, 0xF, 1, .u32, .rc, 0, .any, some .otn⟩,
  ⟨0x4800, 12, 0x10, 1, .u32, .rw, 0, .zeroOr 1 1000000, some .otn⟩]

/-- Objects of 0x4800 to 0x48FF, part 2. -/
def page48b : List Row := [
  ⟨0x4800, 12, 0x11, 1, .u8, .rw, 7, .rng 2 10, some .otn⟩,
  ⟨0x4890, 1, 0x1, 1, .u16, .rw, 96, .rng 0 511, some .otn⟩,
  ⟨0x4890, 1, 0x2, 1, .enum8, .ro, 0x0, .any, some .otn⟩,
  ⟨0x4890, 1, 0x3, 1, .u16, .ro, 0, .any, some .otn⟩,
  ⟨0x4890, 1, 0x4, 1, .u64, .ro, 0, .any, some .otn⟩,
  ⟨0x4890, 1, 0x5, 1, .u64, .ro, 0, .any, some .otn⟩,
  ⟨0x4890, 1, 0x6, 1, .u64, .ro, 0, .any, some .otn⟩,
  ⟨0x4890, 1, 0x7, 1, .bits32, .ro, 0, .any, some .otn⟩]

/-- Objects of 0x4800 to 0x48FF. -/
def page48 : List Row := page48a ++ page48b

/-- Objects of 0x5000 to 0x50FF, part 1. -/
def page50a : List Row := [
  ⟨0x5080, 1, 0x1, 1, .u16, .rws, 0x8100, .any, some .parse⟩,
  ⟨0x5080, 1, 0x2, 1, .u16, .rws, 0x88A8, .any, some .parse⟩,
  ⟨0x5080, 1, 0x3, 1, .u16, .rws, 0x9100, .any, some .parse⟩,
  ⟨0x5080, 1, 0x4, 1, .u16, .rws, 0x0, .any, some .parse⟩,
  ⟨0x5080, 1, 0x5, 1, .u16, .rws, 4789, .any, some .parse⟩,
  ⟨0x5080, 1, 0x6, 1, .u16, .rws, 6081, .any, some .parse⟩,
  ⟨0x5080, 1, 0x7, 1, .bits32, .rws, 0x1F, .mask 0x1F, some .parse⟩,
  ⟨0x5080, 1, 0x8, 1, .bool, .rws, 1, .rng 0 1, some .parse⟩,
  ⟨0x5080, 1, 0x9, 1, .enum8, .rws, 0x1, .rng 0 1, some .parse⟩,
  ⟨0x5000, 96, 0x1, 1, .u16, .rw, 128, .steps 64 256 16, some .parse⟩,
  ⟨0x5000, 96, 0x2, 1, .enum8, .rw, 0x0, .rng 0 2, some .parse⟩,
  ⟨0x5000, 96, 0x3, 1, .u32, .rw, 0, .rng 0 1048575, some .parse⟩,
  ⟨0x5000, 96, 0x4, 1, .u8, .rw, 0x1, .rng 1 255, some .parse⟩,
  ⟨0x5000, 96, 0x5, 1, .enum8, .rw, 0x0, .rng 0 2, some .parse⟩,
  ⟨0x5000, 96, 0x6, 1, .enum8, .rw, 0x0, .rng 0 1, some .parse⟩,
  ⟨0x5000, 96, 0x7, 1, .u64, .ro, 0, .any, some .parse⟩,
  ⟨0x5000, 96, 0x8, 1, .enum8, .ro, 0x0, .any, some .parse⟩,
  ⟨0x5000, 96, 0x9, 1, .u64, .ro, 0, .any, some .parse⟩,
  ⟨0x5000, 96, 0xA, 1, .u64, .ro, 0, .any, some .parse⟩,
  ⟨0x50A0, 12, 0x1, 1, .enum8, .rw, 0x0, .rng 0 6, some .parse⟩,
  ⟨0x50B0, 12, 0x1, 1, .enum8, .rw, 0x0, .rng 0 6, some .parse⟩,
  ⟨0x50A0, 12, 0x2, 1, .u16, .rw, 0, .any, some .parse⟩,
  ⟨0x50B0, 12, 0x2, 1, .u16, .rw, 0, .any, some .parse⟩,
  ⟨0x50A0, 12, 0x3, 1, .bits32, .rw, 0, .any, some .parse⟩]

/-- Objects of 0x5000 to 0x50FF, part 2. -/
def page50b : List Row := [
  ⟨0x50B0, 12, 0x3, 1, .bits32, .rw, 0, .any, some .parse⟩,
  ⟨0x50A0, 12, 0x4, 1, .bits32, .rw, 0, .any, some .parse⟩,
  ⟨0x50B0, 12, 0x4, 1, .bits32, .rw, 0, .any, some .parse⟩,
  ⟨0x50A0, 12, 0x5, 8, .u32, .rw, 0, .maskTop 0xFFFFFFC0 29 2, some .parse⟩,
  ⟨0x50B0, 12, 0x5, 8, .u32, .rw, 0, .maskTop 0xFFFFFFC0 29 2, some .parse⟩,
  ⟨0x50A0, 12, 0xD, 1, .u16, .rw, 0, .rng 0 255, some .parse⟩,
  ⟨0x50B0, 12, 0xD, 1, .u16, .rw, 0, .rng 0 255, some .parse⟩,
  ⟨0x50A0, 12, 0xE, 1, .u8, .rw, 0, .rng 0 64, some .parse⟩,
  ⟨0x50B0, 12, 0xE, 1, .u8, .rw, 0, .rng 0 64, some .parse⟩,
  ⟨0x50A0, 12, 0xF, 1, .enum8, .rw, 0x0, .rng 0 2, some .parse⟩,
  ⟨0x50B0, 12, 0xF, 1, .enum8, .rw, 0x0, .rng 0 2, some .parse⟩,
  ⟨0x50A0, 12, 0x10, 1, .enum8, .rw, 0x0, .rng 0 1, some .parse⟩,
  ⟨0x50B0, 12, 0x10, 1, .enum8, .rw, 0x0, .rng 0 1, some .parse⟩,
  ⟨0x50A0, 12, 0x11, 1, .u64, .ro, 0, .any, some .parse⟩,
  ⟨0x50B0, 12, 0x11, 1, .u64, .ro, 0, .any, some .parse⟩,
  ⟨0x50A0, 12, 0x12, 1, .u64, .ro, 0, .any, some .parse⟩,
  ⟨0x50B0, 12, 0x12, 1, .u64, .ro, 0, .any, some .parse⟩,
  ⟨0x5090, 1, 0x1, 1, .cmd, .wo, 0, .any, some .parse⟩,
  ⟨0x5090, 1, 0x2, 1, .enum8, .ro, 0x0, .any, some .parse⟩,
  ⟨0x5090, 1, 0x3, 1, .u8, .ro, 0, .any, some .parse⟩,
  ⟨0x5090, 1, 0x4, 1, .enum8, .ro, 0x0, .any, some .parse⟩,
  ⟨0x5090, 1, 0x5, 1, .u8, .ro, 0, .any, some .parse⟩,
  ⟨0x5090, 1, 0x6, 1, .u32, .ro, 0, .any, some .parse⟩]

/-- Objects of 0x5000 to 0x50FF. -/
def page50 : List Row := page50a ++ page50b

/-- Objects of 0x5100 to 0x51FF. -/
def page51 : List Row := [
  ⟨0x5120, 8, 0x1, 1, .u32, .rw, 3000, .rng 150 1500000, some .parse⟩,
  ⟨0x5120, 8, 0x2, 1, .u16, .ro, 0, .any, some .parse⟩,
  ⟨0x5120, 8, 0x3, 1, .u16, .rc, 0, .any, some .parse⟩,
  ⟨0x5120, 8, 0x4, 1, .u64, .ro, 0, .any, some .parse⟩,
  ⟨0x5120, 8, 0x5, 1, .u64, .ro, 0, .any, some .parse⟩,
  ⟨0x5120, 8, 0x6, 1, .u64, .ro, 0, .any, some .parse⟩,
  ⟨0x5100, 16, 0x1, 1, .u64, .ro, 0, .any, some .parse⟩,
  ⟨0x5100, 16, 0x2, 1, .u64, .ro, 0, .any, some .parse⟩,
  ⟨0x5100, 16, 0x3, 1, .u64, .ro, 0, .any, some .parse⟩,
  ⟨0x5100, 16, 0x4, 1, .u64, .ro, 0, .any, some .parse⟩,
  ⟨0x5100, 16, 0x5, 1, .u64, .ro, 0, .any, some .parse⟩,
  ⟨0x5100, 16, 0x6, 1, .u64, .ro, 0, .any, some .parse⟩,
  ⟨0x5100, 16, 0x7, 1, .u64, .ro, 0, .any, some .parse⟩,
  ⟨0x5100, 16, 0x8, 1, .u64, .ro, 0, .any, some .parse⟩]

/-- Objects of 0x5300 to 0x53FF. -/
def page53 : List Row := [
  ⟨0x5301, 255, 0x1, 1, .u8, .rw, 0, .zeroOr 16 63, some .trap⟩,
  ⟨0x5301, 255, 0x2, 1, .u16, .rw, 0, .zeroOr 64 10240, some .trap⟩,
  ⟨0x5301, 255, 0x3, 1, .u32, .rw, 0, .zeroOr 1 50000000, some .trap⟩,
  ⟨0x5301, 255, 0x4, 1, .u16, .rw, 64, .rng 1 65535, some .trap⟩,
  ⟨0x5301, 255, 0x5, 1, .u64, .ro, 0, .any, some .trap⟩,
  ⟨0x5301, 255, 0x6, 1, .u64, .ro, 0, .any, some .trap⟩]

/-- Objects of 0x5400 to 0x54FF, part 1. -/
def page54a : List Row := [
  ⟨0x5420, 1, 0x1, 1, .cmd, .wo, 0, .any, some .eng⟩,
  ⟨0x5420, 1, 0x2, 1, (.octets 64), .rw, 0, .mask (2 ^ 512 - 2 ^ 128 + 0xFFFFFFFFFFFFFFFF), some .eng⟩,
  ⟨0x5420, 1, 0x3, 1, .enum8, .ro, 0x0, .any, some .eng⟩,
  ⟨0x5420, 1, 0x4, 1, .u64, .ro, 0, .any, some .eng⟩,
  ⟨0x5420, 1, 0x5, 1, .u64, .ro, 0, .any, some .eng⟩,
  ⟨0x5420, 1, 0x6, 1, .u64, .ro, 0, .any, some .eng⟩,
  ⟨0x5440, 1, 0x1, 1, (.octets 4096), .ro, 0, .any, some .eng⟩,
  ⟨0x5440, 1, 0x2, 1, (.octets 4096), .ro, 0, .any, some .eng⟩,
  ⟨0x5440, 1, 0x3, 1, (.octets 4096), .ro, 0, .any, some .eng⟩,
  ⟨0x5400, 1, 0x1, 1, .u32, .rw, 3000, .rng 256 2000000, some .eng⟩,
  ⟨0x5400, 1, 0x2, 1, .u8, .ro, 0, .any, some .eng⟩,
  ⟨0x5431, 2, 0x1, 1, .enum8, .rw, 0, .rng 0 1, some .eng⟩,
  ⟨0x5433, 5, 0x1, 1, .enum8, .rw, 1, .rng 0 1, some .eng⟩,
  ⟨0x5431, 1, 0x2, 1, .u8, .rw, 0xF1, .rng 1 255, some .eng⟩,
  ⟨0x5432, 1, 0x2, 1, .u8, .rw, 0xF2, .rng 1 255, some .eng⟩,
  ⟨0x5433, 1, 0x2, 1, .u8, .rw, 0xF3, .rng 1 255, some .eng⟩,
  ⟨0x5434, 1, 0x2, 1, .u8, .rw, 0xF4, .rng 1 255, some .eng⟩,
  ⟨0x5435, 1, 0x2, 1, .u8, .rw, 0xF5, .rng 1 255, some .eng⟩,
  ⟨0x5436, 1, 0x2, 1, .u8, .rw, 0xF6, .rng 1 255, some .eng⟩,
  ⟨0x5437, 1, 0x2, 1, .u8, .rw, 0xF7, .rng 1 255, some .eng⟩,
  ⟨0x5431, 7, 0x3, 1, .u64, .ro, 0, .any, some .eng⟩,
  ⟨0x5410, 1, 0x1, 1, .cmd, .wo, 0, .any, some .eng⟩,
  ⟨0x5410, 1, 0x2, 1, .enum8, .ro, 0x0, .any, some .eng⟩,
  ⟨0x5410, 1, 0x3, 1, .enum8, .ro, 0x0, .any, some .eng⟩]

/-- Objects of 0x5400 to 0x54FF, part 2. -/
def page54b : List Row := [
  ⟨0x5410, 1, 0x4, 1, .u32, .ro, 0, .any, some .eng⟩,
  ⟨0x5410, 1, 0x5, 1, .u32, .ro, 0, .any, some .eng⟩,
  ⟨0x5410, 1, 0x6, 1, .u32, .ro, 0, .any, some .eng⟩,
  ⟨0x5410, 1, 0x7, 1, .u16, .ro, 0, .any, some .eng⟩,
  ⟨0x5410, 1, 0x8, 1, .u32, .ro, 0, .any, some .eng⟩,
  ⟨0x5410, 1, 0x9, 1, .u32, .ro, 0, .any, some .eng⟩]

/-- Objects of 0x5400 to 0x54FF. -/
def page54 : List Row := page54a ++ page54b

/-- Objects of 0x5500 to 0x55FF. -/
def page55 : List Row := [
  ⟨0x5500, 48, 0x1, 1, .enum8, .ro, 0x0, .any, some .eng⟩,
  ⟨0x5500, 48, 0x2, 1, .u8, .ro, 0, .any, some .eng⟩,
  ⟨0x5500, 48, 0x3, 1, .u64, .ro, 0, .any, some .eng⟩,
  ⟨0x5500, 48, 0x4, 1, .u64, .ro, 0, .any, some .eng⟩,
  ⟨0x5500, 48, 0x5, 1, .u64, .ro, 0, .any, some .eng⟩,
  ⟨0x5500, 48, 0x6, 1, .u8, .rc, 0, .any, some .eng⟩,
  ⟨0x5500, 48, 0x7, 1, .u64, .ro, 0, .any, some .eng⟩,
  ⟨0x5500, 48, 0x8, 1, .u32, .ro, 0, .any, some .eng⟩]

/-- Objects of 0x6000 to 0x60FF. -/
def page60 : List Row := [
  ⟨0x6060, 16, 0x1, 1, .u8, .rws, 0, .stepsZ 16 160 16, some .fwd⟩,
  ⟨0x6060, 16, 0x2, 1, .u32, .ro, 0, .any, some .fwd⟩,
  ⟨0x6000, 1, 0x1, 1, .u16, .ro, 0, .any, some .fwd⟩,
  ⟨0x6000, 1, 0x2, 1, .u32, .rw, 150000, .rng 1500 1500000000, some .fwd⟩,
  ⟨0x6000, 1, 0x3, 1, .u16, .ro, 0, .any, some .fwd⟩,
  ⟨0x6000, 1, 0x4, 1, .u32, .ro, 0, .any, some .fwd⟩,
  ⟨0x6000, 1, 0x5, 1, .u64, .ro, 0, .any, some .fwd⟩,
  ⟨0x6040, 2, 0x1, 1, .u32, .ro, 0, .any, some .fwd⟩,
  ⟨0x6040, 2, 0x2, 1, .u16, .ro, 0, .any, some .fwd⟩,
  ⟨0x6040, 2, 0x3, 1, .u64, .ro, 0, .any, some .fwd⟩,
  ⟨0x6040, 2, 0x4, 1, .u64, .ro, 0, .any, some .fwd⟩,
  ⟨0x6040, 2, 0x5, 1, .u64, .ro, 0, .any, some .fwd⟩,
  ⟨0x6040, 2, 0x6, 1, .u64, .ro, 0, .any, some .fwd⟩,
  ⟨0x6040, 2, 0x7, 1, .u64, .ro, 0, .any, some .fwd⟩,
  ⟨0x6040, 2, 0x8, 1, .u64, .ro, 0, .any, some .fwd⟩,
  ⟨0x6040, 2, 0x9, 1, .bool, .rw, 1, .rng 0 1, some .fwd⟩,
  ⟨0x6050, 1, 0x1, 1, .u32, .rw, 143051, .zeroOr 32 4294967295, some .fwd⟩,
  ⟨0x6050, 1, 0x2, 1, .u32, .rw, 0, .zeroOr 32 4294967295, some .fwd⟩,
  ⟨0x6050, 1, 0x3, 1, .u64, .ro, 0, .any, some .fwd⟩,
  ⟨0x6050, 1, 0x4, 1, .u64, .ro, 0, .any, some .fwd⟩,
  ⟨0x6050, 1, 0x5, 1, .u64, .ro, 0, .any, some .fwd⟩,
  ⟨0x6050, 1, 0x6, 1, .bool, .rw, 1, .rng 0 1, some .fwd⟩,
  ⟨0x6050, 1, 0x7, 1, .bits32, .ro, 0, .any, some .fwd⟩,
  ⟨0x6050, 1, 0x8, 1, .u64, .ro, 0, .any, some .fwd⟩]

/-- Objects of 0x6100 to 0x61FF, part 1. -/
def page61a : List Row := [
  ⟨0x6101, 8, 0x1, 1, .cmd, .wo, 0, .any, some .fwd⟩,
  ⟨0x6101, 1, 0x2, 1, (.octets 6), .rw, 0, .any, some .fwd⟩,
  ⟨0x6102, 1, 0x2, 1, (.octets 18), .rw, 0, .any, some .fwd⟩,
  ⟨0x6103, 1, 0x2, 1, (.octets 20), .rw, 0, .any, some .fwd⟩,
  ⟨0x6104, 1, 0x2, 1, (.octets 8), .rw, 0, .any, some .fwd⟩,
  ⟨0x6105, 1, 0x2, 1, (.octets 4), .rw, 0, .any, some .fwd⟩,
  ⟨0x6106, 1, 0x2, 1, (.octets 4), .rw, 0, .any, some .fwd⟩,
  ⟨0x6107, 1, 0x2, 1, (.octets 4), .rw, 0, .any, some .fwd⟩,
  ⟨0x6108, 1, 0x2, 1, (.octets 4), .rw, 0, .any, some .fwd⟩,
  ⟨0x6101, 1, 0x3, 1, (.octets 4), .rw, 0, .be 4 0xFFFFFFFF 22 2 1, some .fwd⟩,
  ⟨0x6102, 1, 0x3, 1, (.octets 4), .rw, 0, .be 4 0xFFFFFFFF 22 2 1, some .fwd⟩,
  ⟨0x6103, 1, 0x3, 1, (.octets 8), .rw, 0, .any, some .fwd⟩,
  ⟨0x6104, 1, 0x3, 1, (.octets 8), .rw, 0, .be 8 0xFFFFFFFFFFF 0 0 0, some .fwd⟩,
  ⟨0x6105, 1, 0x3, 1, (.octets 16), .rw, 0, .be 16 0xFFFFF007FFFFFFFEFFFFFFFFFFFFFFFF 66 2 2, some .fwd⟩,
  ⟨0x6106, 1, 0x3, 1, (.octets 8), .rw, 0, .be 8 0x3FFFFF000007FF 0 0 0, some .fwd⟩,
  ⟨0x6107, 1, 0x3, 1, (.octets 4), .rw, 0, .be 4 0x3FFFFF 0 0 0, some .fwd⟩,
  ⟨0x6108, 1, 0x3, 1, (.octets 64), .rw, 0, .any, some .fwd⟩,
  ⟨0x6101, 8, 0x4, 1, .enum8, .ro, 0x0, .any, some .fwd⟩,
  ⟨0x6101, 8, 0x5, 1, .bool, .ro, 0, .any, some .fwd⟩,
  ⟨0x6101, 1, 0x6, 1, .u8, .rw, 0, .rng 0 32, some .fwd⟩,
  ⟨0x6102, 1, 0x6, 1, .u8, .rw, 0, .rng 0 128, some .fwd⟩,
  ⟨0x6103, 6, 0x6, 1, .u8, .rw, 0, .rng 0 0, some .fwd⟩,
  ⟨0x6101, 1, 0x7, 1, (.octets 7), .rw, 0, .any, some .fwd⟩,
  ⟨0x6102, 1, 0x7, 1, (.octets 19), .rw, 0, .any, some .fwd⟩]

/-- Objects of 0x6100 to 0x61FF, part 2. -/
def page61b : List Row := [
  ⟨0x6103, 1, 0x7, 1, (.octets 20), .rw, 0, .any, some .fwd⟩,
  ⟨0x6104, 1, 0x7, 1, (.octets 8), .rw, 0, .any, some .fwd⟩,
  ⟨0x6105, 1, 0x7, 1, (.octets 4), .rw, 0, .any, some .fwd⟩,
  ⟨0x6106, 1, 0x7, 1, (.octets 4), .rw, 0, .any, some .fwd⟩,
  ⟨0x6107, 1, 0x7, 1, (.octets 4), .rw, 0, .any, some .fwd⟩,
  ⟨0x6108, 1, 0x7, 1, (.octets 4), .rw, 0, .any, some .fwd⟩,
  ⟨0x6101, 8, 0x8, 1, .u32, .ro, 0, .any, some .fwd⟩,
  ⟨0x6101, 8, 0x9, 1, .u64, .ro, 0, .any, some .fwd⟩,
  ⟨0x6101, 8, 0xA, 1, .enum8, .ro, 0x0, .any, some .fwd⟩]

/-- Objects of 0x6100 to 0x61FF. -/
def page61 : List Row := page61a ++ page61b

/-- Objects of 0x6200 to 0x62FF. -/
def page62 : List Row := [
  ⟨0x6200, 512, 0x1, 1, .enum8, .rw, 0x0, .rng 0 2, some .fwd⟩,
  ⟨0x6200, 512, 0x2, 1, .u32, .rw, 0, .any, some .fwd⟩,
  ⟨0x6200, 512, 0x3, 1, .u64, .ro, 0, .any, some .fwd⟩,
  ⟨0x6200, 512, 0x4, 1, .u64, .ro, 0, .any, some .fwd⟩]

/-- Objects of 0x6800 to 0x68FF, part 1. -/
def page68a : List Row := [
  ⟨0x6810, 16, 0x1, 1, .enum8, .rws, 0x0, .rng 0 3, some .assoc⟩,
  ⟨0x6810, 16, 0x2, 1, .u8, .rws, 0, .rng 0 23, some .assoc⟩,
  ⟨0x6810, 16, 0x3, 1, .u8, .rws, 1, .rng 1 24, some .assoc⟩,
  ⟨0x6810, 16, 0x4, 1, .u8, .rws, 1, .oneOf [1, 2, 4, 8], some .assoc⟩,
  ⟨0x6810, 16, 0x5, 1, .u8, .rws, 16, .oneOf [0, 8, 16, 32, 64], some .assoc⟩,
  ⟨0x6810, 16, 0x6, 1, .u32, .ro, 16384, .any, some .assoc⟩,
  ⟨0x6810, 16, 0x7, 1, .u32, .ro, 15360, .any, some .assoc⟩,
  ⟨0x6810, 16, 0x8, 1, .u32, .ro, 0, .any, some .assoc⟩,
  ⟨0x6810, 16, 0x9, 1, .u64, .ro, 0, .any, some .assoc⟩,
  ⟨0x6810, 16, 0xA, 1, .u64, .ro, 0, .any, some .assoc⟩,
  ⟨0x6810, 16, 0xB, 1, .u64, .ro, 0, .any, some .assoc⟩,
  ⟨0x6810, 16, 0xC, 1, .u64, .ro, 0, .any, some .assoc⟩,
  ⟨0x6810, 16, 0xD, 1, .u64, .ro, 0, .any, some .assoc⟩,
  ⟨0x6810, 16, 0xE, 1, .u64, .ro, 0, .any, some .assoc⟩,
  ⟨0x6810, 16, 0xF, 1, .u64, .ro, 0, .any, some .assoc⟩,
  ⟨0x6810, 16, 0x10, 1, .u32, .rc, 0, .any, some .assoc⟩,
  ⟨0x6800, 1, 0x1, 1, .u16, .rw, 16, .rng 2 1024, some .assoc⟩,
  ⟨0x6800, 1, 0x2, 1, .bits32, .ro, 0, .any, some .assoc⟩,
  ⟨0x6800, 1, 0x3, 1, .u8, .ro, 0xFF, .any, some .assoc⟩,
  ⟨0x6800, 1, 0x4, 1, .u64, .ro, 0, .any, some .assoc⟩,
  ⟨0x6880, 1, 0x1, 1, .cmd, .wo, 0, .any, some .assoc⟩,
  ⟨0x6880, 1, 0x2, 1, (.octets 80), .rw, 0, .any, some .assoc⟩,
  ⟨0x6880, 1, 0x3, 1, (.octets 80), .rw, 0, .any, some .assoc⟩,
  ⟨0x6880, 1, 0x4, 1, .u16, .rw, 0, .any, some .assoc⟩]

/-- Objects of 0x6800 to 0x68FF, part 2. -/
def page68b : List Row := [
  ⟨0x6880, 1, 0x5, 1, .u32, .rw, 0, .any, some .assoc⟩,
  ⟨0x6880, 1, 0x6, 1, .u32, .rw, 0, .any, some .assoc⟩,
  ⟨0x6880, 1, 0x7, 1, .enum8, .ro, 0x0, .any, some .assoc⟩,
  ⟨0x6880, 1, 0x8, 1, .bool, .ro, 0, .any, some .assoc⟩,
  ⟨0x6880, 1, 0x9, 1, .u32, .ro, 0, .any, some .assoc⟩,
  ⟨0x6840, 24, 0x1, 1, .u8, .ro, 0xFF, .any, some .assoc⟩,
  ⟨0x6840, 24, 0x2, 1, .u8, .ro, 0, .any, some .assoc⟩,
  ⟨0x6840, 24, 0x3, 1, .u64, .ro, 0, .any, some .assoc⟩,
  ⟨0x6840, 24, 0x4, 1, .u64, .ro, 0, .any, some .assoc⟩,
  ⟨0x6840, 24, 0x5, 1, .u16, .ro, 16384, .any, some .assoc⟩]

/-- Objects of 0x6800 to 0x68FF. -/
def page68 : List Row := page68a ++ page68b

/-- Objects of 0x7000 to 0x70FF. -/
def page70 : List Row := [
  ⟨0x7010, 1, 0x1, 1, .cmd, .wo, 0, .any, some .buf⟩,
  ⟨0x7010, 1, 0x2, 1, .u32, .rw, 0, .any, some .buf⟩,
  ⟨0x7010, 1, 0x3, 1, .u32, .rw, 0, .mask 0xFFFF003F, some .buf⟩,
  ⟨0x7010, 1, 0x4, 1, .enum8, .ro, 0x0, .any, some .buf⟩,
  ⟨0x7010, 1, 0x5, 1, .enum8, .ro, 0x0, .any, some .buf⟩,
  ⟨0x7010, 1, 0x6, 1, .u32, .ro, 0, .any, some .buf⟩,
  ⟨0x7010, 1, 0x7, 1, .u32, .ro, 0, .any, some .buf⟩,
  ⟨0x7010, 1, 0x8, 1, .u32, .ro, 0, .any, some .buf⟩,
  ⟨0x7000, 1, 0x1, 1, .u32, .ro, 374784, .any, some .buf⟩,
  ⟨0x7000, 1, 0x2, 1, .u32, .ro, 0, .any, some .buf⟩,
  ⟨0x7000, 1, 0x3, 1, .u32, .rw, 8192, .rng 0 374784, some .buf⟩,
  ⟨0x7000, 1, 0x4, 1, .u8, .rw, 50, .rng 25 75, some .buf⟩,
  ⟨0x7000, 1, 0x5, 1, .u64, .ro, 0, .any, some .buf⟩,
  ⟨0x7000, 1, 0x6, 1, .u64, .ro, 0, .any, some .buf⟩,
  ⟨0x7000, 1, 0x7, 1, .u64, .ro, 0, .any, some .buf⟩,
  ⟨0x7000, 1, 0x8, 1, .u64, .ro, 0, .any, some .buf⟩,
  ⟨0x7000, 1, 0x9, 1, .u64, .ro, 0, .any, some .buf⟩,
  ⟨0x7000, 1, 0xA, 1, .u64, .ro, 0, .any, some .buf⟩,
  ⟨0x7000, 1, 0xB, 1, .u64, .ro, 0, .any, some .buf⟩]

/-- Objects of 0x7100 to 0x71FF. -/
def page71 : List Row := [
  ⟨0x7100, 64, 0x1, 1, .u32, .rw, 4096, .rng 8 374784, some .buf⟩,
  ⟨0x7100, 64, 0x2, 1, .u32, .rw, 512, .rng 16 4096, some .buf⟩,
  ⟨0x7100, 64, 0x3, 1, .u32, .rw, 262144, .rng 0 50331648, some .buf⟩,
  ⟨0x7100, 64, 0x4, 1, .u32, .rw, 2097152, .rng 8 402653184, some .buf⟩,
  ⟨0x7100, 64, 0x5, 1, .u64, .ro, 0, .any, some .buf⟩,
  ⟨0x7100, 64, 0x6, 1, .u64, .ro, 0, .any, some .buf⟩,
  ⟨0x7100, 64, 0x7, 1, .u64, .ro, 0, .any, some .buf⟩,
  ⟨0x7100, 64, 0x8, 1, .u64, .ro, 0, .any, some .buf⟩,
  ⟨0x7100, 64, 0x9, 1, .u64, .ro, 0, .any, some .buf⟩]

/-- Objects of 0x7200 to 0x72FF, part 1. -/
def page72a : List Row := [
  ⟨0x7200, 1, 0x1, 1, .u16, .ro, 64, .any, some .bpm⟩,
  ⟨0x7201, 1, 0x1, 1, .u16, .ro, 128, .any, some .bpm⟩,
  ⟨0x7202, 1, 0x1, 1, .u16, .ro, 256, .any, some .bpm⟩,
  ⟨0x7203, 1, 0x1, 1, .u16, .ro, 512, .any, some .bpm⟩,
  ⟨0x7204, 1, 0x1, 1, .u16, .ro, 1024, .any, some .bpm⟩,
  ⟨0x7205, 1, 0x1, 1, .u16, .ro, 2048, .any, some .bpm⟩,
  ⟨0x7206, 1, 0x1, 1, .u16, .ro, 4096, .any, some .bpm⟩,
  ⟨0x7207, 1, 0x1, 1, .u16, .ro, 10240, .any, some .bpm⟩,
  ⟨0x7200, 1, 0x2, 1, .u32, .rws, 8192, .any, some .bpm⟩,
  ⟨0x7201, 1, 0x2, 1, .u32, .rws, 4096, .any, some .bpm⟩,
  ⟨0x7202, 1, 0x2, 1, .u32, .rws, 2048, .any, some .bpm⟩,
  ⟨0x7203, 1, 0x2, 1, .u32, .rws, 1024, .any, some .bpm⟩,
  ⟨0x7204, 1, 0x2, 1, .u32, .rws, 512, .any, some .bpm⟩,
  ⟨0x7205, 1, 0x2, 1, .u32, .rws, 256, .any, some .bpm⟩,
  ⟨0x7206, 1, 0x2, 1, .u32, .rws, 128, .any, some .bpm⟩,
  ⟨0x7207, 1, 0x2, 1, .u32, .rws, 51, .any, some .bpm⟩,
  ⟨0x7200, 1, 0x3, 1, .u32, .ro, 0, .any, some .bpm⟩,
  ⟨0x7201, 1, 0x3, 1, .u32, .ro, 524288, .any, some .bpm⟩,
  ⟨0x7202, 1, 0x3, 1, .u32, .ro, 1048576, .any, some .bpm⟩,
  ⟨0x7203, 1, 0x3, 1, .u32, .ro, 1572864, .any, some .bpm⟩,
  ⟨0x7204, 1, 0x3, 1, .u32, .ro, 2097152, .any, some .bpm⟩,
  ⟨0x7205, 1, 0x3, 1, .u32, .ro, 2621440, .any, some .bpm⟩,
  ⟨0x7206, 1, 0x3, 1, .u32, .ro, 3145728, .any, some .bpm⟩,
  ⟨0x7207, 1, 0x3, 1, .u32, .ro, 3670016, .any, some .bpm⟩]

/-- Objects of 0x7200 to 0x72FF, part 2. -/
def page72b : List Row := [
  ⟨0x7200, 1, 0x4, 1, .u32, .ro, 8192, .any, some .bpm⟩,
  ⟨0x7201, 1, 0x4, 1, .u32, .ro, 4096, .any, some .bpm⟩,
  ⟨0x7202, 1, 0x4, 1, .u32, .ro, 2048, .any, some .bpm⟩,
  ⟨0x7203, 1, 0x4, 1, .u32, .ro, 1024, .any, some .bpm⟩,
  ⟨0x7204, 1, 0x4, 1, .u32, .ro, 512, .any, some .bpm⟩,
  ⟨0x7205, 1, 0x4, 1, .u32, .ro, 256, .any, some .bpm⟩,
  ⟨0x7206, 1, 0x4, 1, .u32, .ro, 128, .any, some .bpm⟩,
  ⟨0x7207, 1, 0x4, 1, .u32, .ro, 51, .any, some .bpm⟩,
  ⟨0x7200, 1, 0x5, 1, .u32, .rc, 8192, .any, some .bpm⟩,
  ⟨0x7201, 1, 0x5, 1, .u32, .rc, 4096, .any, some .bpm⟩,
  ⟨0x7202, 1, 0x5, 1, .u32, .rc, 2048, .any, some .bpm⟩,
  ⟨0x7203, 1, 0x5, 1, .u32, .rc, 1024, .any, some .bpm⟩,
  ⟨0x7204, 1, 0x5, 1, .u32, .rc, 512, .any, some .bpm⟩,
  ⟨0x7205, 1, 0x5, 1, .u32, .rc, 256, .any, some .bpm⟩,
  ⟨0x7206, 1, 0x5, 1, .u32, .rc, 128, .any, some .bpm⟩,
  ⟨0x7207, 1, 0x5, 1, .u32, .rc, 51, .any, some .bpm⟩,
  ⟨0x7200, 8, 0x6, 1, .u64, .ro, 0, .any, some .bpm⟩,
  ⟨0x7210, 1, 0x1, 1, .cmd, .wo, 0, .any, some .bpm⟩,
  ⟨0x7210, 1, 0x2, 1, .u32, .rw, 0, .mask 0xF03FFFFF, some .bpm⟩,
  ⟨0x7210, 1, 0x3, 1, .enum8, .ro, 0x0, .any, some .bpm⟩,
  ⟨0x7210, 1, 0x4, 1, .u64, .ro, 0, .any, some .bpm⟩,
  ⟨0x7210, 1, 0x5, 1, .u64, .ro, 0, .any, some .bpm⟩,
  ⟨0x7210, 1, 0x6, 1, .u64, .ro, 0, .any, some .bpm⟩,
  ⟨0x7210, 1, 0x7, 1, .u64, .ro, 0, .any, some .bpm⟩]

/-- Objects of 0x7200 to 0x72FF, part 3. -/
def page72c : List Row := [
  ⟨0x7210, 1, 0x8, 1, .u64, .ro, 0, .any, some .bpm⟩]

/-- Objects of 0x7200 to 0x72FF. -/
def page72 : List Row := page72a ++ page72b ++ page72c

/-- Objects of 0x7400 to 0x74FF. -/
def page74 : List Row := [
  ⟨0x7400, 1, 0x1, 1, .u32, .rw, 512, .rng 160 65535, some .swc⟩,
  ⟨0x7400, 1, 0x2, 1, .u64, .ro, 0, .any, some .swc⟩,
  ⟨0x7400, 1, 0x3, 1, .u64, .ro, 0, .any, some .swc⟩,
  ⟨0x7400, 1, 0x4, 1, .u64, .ro, 0, .any, some .swc⟩,
  ⟨0x7400, 1, 0x5, 1, .u8, .ro, 8, .any, some .swc⟩,
  ⟨0x7410, 16, 0x1, 1, .u64, .ro, 0, .any, some .swc⟩,
  ⟨0x7410, 16, 0x2, 1, .u64, .ro, 0, .any, some .swc⟩,
  ⟨0x7410, 16, 0x3, 1, .u64, .ro, 0, .any, some .swc⟩,
  ⟨0x7420, 16, 0x1, 1, .u64, .ro, 0, .any, some .swc⟩,
  ⟨0x7420, 16, 0x2, 1, .u64, .ro, 0, .any, some .swc⟩,
  ⟨0x7420, 16, 0x3, 1, .u16, .ro, 0, .any, some .swc⟩,
  ⟨0x7420, 16, 0x4, 1, .u16, .rc, 0, .any, some .swc⟩]

/-- Objects of 0x7500 to 0x75FF. -/
def page75 : List Row := [
  ⟨0x7500, 256, 0x1, 1, .u8, .rw, 9, .rng 0 15, some .swc⟩,
  ⟨0x7500, 256, 0x2, 1, .bool, .rw, 0, .rng 0 1, some .swc⟩,
  ⟨0x7500, 256, 0x3, 1, .u32, .rw, 4294967295, .any, some .swc⟩,
  ⟨0x7500, 256, 0x4, 1, .u32, .rw, 4294967295, .any, some .swc⟩,
  ⟨0x7500, 256, 0x5, 1, .u16, .rw, 0, .rng 0 256, some .swc⟩,
  ⟨0x7500, 256, 0x6, 1, .u32, .rw, 4294967295, .any, some .swc⟩,
  ⟨0x7500, 256, 0x7, 1, .u32, .rw, 4294967295, .any, some .swc⟩,
  ⟨0x7500, 256, 0x8, 1, .u16, .rw, 0, .rng 0 256, some .swc⟩,
  ⟨0x7500, 256, 0x9, 1, .u32, .rw, 4294967295, .any, some .swc⟩,
  ⟨0x7500, 256, 0xA, 1, .u32, .rw, 4294967295, .any, some .swc⟩,
  ⟨0x7500, 256, 0xB, 1, .u16, .rw, 0, .rng 0 256, some .swc⟩,
  ⟨0x7500, 256, 0xC, 1, .u64, .ro, 0, .any, some .swc⟩,
  ⟨0x7500, 256, 0xD, 1, .u64, .ro, 0, .any, some .swc⟩,
  ⟨0x7500, 256, 0xE, 1, .u64, .ro, 0, .any, some .swc⟩,
  ⟨0x7500, 256, 0xF, 1, .u64, .ro, 0, .any, some .swc⟩]

/-- Objects of 0x7600 to 0x76FF. -/
def page76 : List Row := [
  ⟨0x7600, 64, 0x1, 1, .enum8, .rw, 0x0, .rng 0 4, some .swc⟩,
  ⟨0x7600, 64, 0x2, 1, .u32, .rw, 1024, .rng 1 16777216, some .swc⟩,
  ⟨0x7600, 64, 0x3, 1, .u8, .rw, 0, .zeroOr 16 63, some .swc⟩,
  ⟨0x7600, 64, 0x4, 1, .u32, .rw, 0, .zeroOr 1 25000000, some .swc⟩,
  ⟨0x7600, 64, 0x5, 1, .u16, .rw, 64, .rng 1 65535, some .swc⟩,
  ⟨0x7600, 64, 0x6, 1, .u64, .ro, 0, .any, some .swc⟩,
  ⟨0x7600, 64, 0x7, 1, .u64, .ro, 0, .any, some .swc⟩]

/-- Objects of 0x7700 to 0x77FF. -/
def page77 : List Row := [
  ⟨0x7700, 1, 0x1, 1, .u32, .rw, 2500, .rng 250 2500000, some .swc⟩]

/-- Objects of 0x7800 to 0x78FF, part 1. -/
def page78a : List Row := [
  ⟨0x7810, 1, 0x1, 1, .cmd, .wo, 0, .any, some .sched⟩,
  ⟨0x7810, 1, 0x2, 1, .u32, .rw, 0, .any, some .sched⟩,
  ⟨0x7810, 1, 0x3, 1, .u64, .rw, 0, .mask 0xFFFFFFFFFFFFFE01, some .sched⟩,
  ⟨0x7810, 1, 0x4, 1, .enum8, .ro, 0x0, .any, some .sched⟩,
  ⟨0x7810, 1, 0x5, 1, .bits32, .ro, 0, .any, some .sched⟩,
  ⟨0x7810, 1, 0x6, 1, .s32, .ro, 0, .any, some .sched⟩,
  ⟨0x7810, 1, 0x7, 1, .s32, .ro, 0, .any, some .sched⟩,
  ⟨0x7810, 1, 0x8, 1, .s32, .ro, 0, .any, some .sched⟩,
  ⟨0x7810, 1, 0x9, 1, .bits32, .w1c, 0, .mask 0x7, some .sched⟩,
  ⟨0x7810, 1, 0xA, 1, .u32, .ro, 0, .any, some .sched⟩,
  ⟨0x7820, 1, 0x1, 1, .cmd, .wo, 0, .any, some .sched⟩,
  ⟨0x7820, 1, 0x2, 1, .u32, .rw, 0, .zeroOr 64 3200000000, some .sched⟩,
  ⟨0x7820, 1, 0x3, 1, .u32, .rw, 20480, .rng 2048 16777215, some .sched⟩,
  ⟨0x7820, 1, 0x4, 1, .u32, .rw, 0, .zeroOr 64 3200000000, some .sched⟩,
  ⟨0x7820, 1, 0x5, 1, .u32, .rw, 20480, .rng 2048 16777215, some .sched⟩,
  ⟨0x7820, 1, 0x6, 1, .s32, .rw, 0, .srng (-64) (63), some .sched⟩,
  ⟨0x7820, 1, 0x7, 1, .enum8, .ro, 0x0, .any, some .sched⟩,
  ⟨0x7820, 1, 0x8, 1, .u32, .ro, 0, .any, some .sched⟩,
  ⟨0x7800, 1, 0x1, 1, .u32, .rws, 983040, .steps 0 983040 65536, some .sched⟩,
  ⟨0x7800, 1, 0x2, 1, .u16, .rws, 1024, .oneOf [64, 128, 256, 512, 1024, 2048], some .sched⟩,
  ⟨0x7800, 1, 0x3, 1, .u16, .rw, 128, .rng 16 4096, some .sched⟩,
  ⟨0x7800, 1, 0x4, 1, .u32, .rw, 32768, .rng 4096 262144, some .sched⟩,
  ⟨0x7800, 1, 0x5, 1, .u32, .rw, 1500000, .rng 15000 1500000000, some .sched⟩,
  ⟨0x7800, 1, 0x6, 1, .u32, .rws, 65536, .rng 0 187392, some .sched⟩]

/-- Objects of 0x7800 to 0x78FF, part 2. -/
def page78b : List Row := [
  ⟨0x7800, 1, 0x7, 1, .u32, .ro, 0, .any, some .sched⟩,
  ⟨0x7800, 1, 0x8, 1, .u64, .ro, 0, .any, some .sched⟩,
  ⟨0x7800, 1, 0x9, 1, .u64, .ro, 0, .any, some .sched⟩,
  ⟨0x7800, 1, 0xA, 1, .u64, .ro, 0, .any, some .sched⟩,
  ⟨0x7800, 1, 0xB, 1, .u64, .ro, 0, .any, some .sched⟩,
  ⟨0x7800, 1, 0xC, 1, .u32, .ro, 0, .any, some .sched⟩,
  ⟨0x7801, 1, 0x1, 1, .u32, .rws, 16, .rng 0 65536, some .sched⟩,
  ⟨0x7801, 1, 0x2, 1, .u32, .rws, 32, .rng 0 65536, some .sched⟩,
  ⟨0x7801, 1, 0x3, 1, .u32, .rws, 48, .rng 0 65536, some .sched⟩,
  ⟨0x7801, 1, 0x4, 1, .u32, .rws, 64, .rng 0 65536, some .sched⟩,
  ⟨0x7801, 1, 0x5, 1, .u32, .rws, 80, .rng 0 65536, some .sched⟩,
  ⟨0x7801, 1, 0x6, 1, .u32, .rws, 96, .rng 0 65536, some .sched⟩,
  ⟨0x7801, 1, 0x7, 1, .u32, .rws, 112, .rng 0 65536, some .sched⟩,
  ⟨0x7801, 1, 0x8, 1, .u32, .rws, 128, .rng 0 65536, some .sched⟩,
  ⟨0x7801, 1, 0x9, 1, .u32, .rws, 144, .rng 0 65536, some .sched⟩,
  ⟨0x7801, 1, 0xA, 1, .u32, .rws, 160, .rng 0 65536, some .sched⟩,
  ⟨0x7801, 1, 0xB, 1, .u32, .rws, 176, .rng 0 65536, some .sched⟩,
  ⟨0x7801, 1, 0xC, 1, .u32, .rws, 192, .rng 0 65536, some .sched⟩,
  ⟨0x7801, 1, 0xD, 1, .u32, .rws, 208, .rng 0 65536, some .sched⟩,
  ⟨0x7801, 1, 0xE, 1, .u32, .rws, 224, .rng 0 65536, some .sched⟩,
  ⟨0x7801, 1, 0xF, 1, .u32, .rws, 240, .rng 0 65536, some .sched⟩,
  ⟨0x7840, 16, 0x1, 1, .u64, .ro, 0, .any, some .sched⟩,
  ⟨0x7840, 16, 0x2, 1, .u64, .ro, 0, .any, some .sched⟩,
  ⟨0x7840, 16, 0x3, 1, .u64, .ro, 0, .any, some .sched⟩]

/-- Objects of 0x7800 to 0x78FF, part 3. -/
def page78c : List Row := [
  ⟨0x7840, 16, 0x4, 1, .u64, .ro, 0, .any, some .sched⟩]

/-- Objects of 0x7800 to 0x78FF. -/
def page78 : List Row := page78a ++ page78b ++ page78c

/-- Objects of 0x7C00 to 0x7CFF. -/
def page7C : List Row := [
  ⟨0x7C00, 1, 0x1, 1, .u64, .ro, 0, .any, some .pol⟩,
  ⟨0x7C00, 1, 0x2, 1, .u64, .ro, 0, .any, some .pol⟩,
  ⟨0x7C00, 1, 0x3, 1, .u64, .ro, 0, .any, some .pol⟩,
  ⟨0x7C00, 1, 0x4, 1, .u64, .ro, 0, .any, some .pol⟩,
  ⟨0x7C00, 1, 0x5, 1, .u64, .ro, 0, .any, some .pol⟩,
  ⟨0x7C00, 1, 0x6, 1, .u64, .ro, 0, .any, some .pol⟩,
  ⟨0x7C10, 1, 0x1, 1, .cmd, .wo, 0, .any, some .pol⟩,
  ⟨0x7C10, 1, 0x2, 1, .u16, .rw, 0, .rng 0 65535, some .pol⟩,
  ⟨0x7C10, 1, 0x3, 1, .u32, .ro, 0, .any, some .pol⟩,
  ⟨0x7C10, 1, 0x4, 1, .u32, .ro, 0, .any, some .pol⟩,
  ⟨0x7C10, 1, 0x5, 1, .enum8, .ro, 0x0, .any, some .pol⟩,
  ⟨0x7C20, 1, 0x1, 1, .cmd, .wo, 0, .any, some .pol⟩,
  ⟨0x7C20, 1, 0x2, 1, .enum8, .rw, 0x0, .rng 0 1, some .pol⟩,
  ⟨0x7C20, 1, 0x3, 1, .bool, .rw, 0, .rng 0 1, some .pol⟩,
  ⟨0x7C20, 1, 0x4, 1, .bool, .rw, 0, .rng 0 1, some .pol⟩,
  ⟨0x7C20, 1, 0x5, 1, .u32, .rw, 0, .rng 0 3200000000, some .pol⟩,
  ⟨0x7C20, 1, 0x6, 1, .u32, .rw, 20480, .rng 64 16777215, some .pol⟩,
  ⟨0x7C20, 1, 0x7, 1, .u32, .rw, 0, .rng 0 3200000000, some .pol⟩,
  ⟨0x7C20, 1, 0x8, 1, .u32, .rw, 20480, .rng 64 16777215, some .pol⟩,
  ⟨0x7C20, 1, 0x9, 1, .s32, .rw, 0, .srng (-64) (63), some .pol⟩,
  ⟨0x7C20, 1, 0xA, 1, .enum8, .rw, 0x0, .rng 0 1, some .pol⟩,
  ⟨0x7C20, 1, 0xB, 1, .enum8, .ro, 0x0, .any, some .pol⟩]

/-- Objects of 0x8000 to 0x80FF, part 1. -/
def page80a : List Row := [
  ⟨0x8000, 1, 0x1, 1, .u16, .rws, 0xFFFF, .orFFFF 2047, some .fab⟩,
  ⟨0x8000, 1, 0x2, 1, .u32, .rw, 6000, .rng 1500 1500000, some .fab⟩,
  ⟨0x8000, 1, 0x3, 1, .u16, .rw, 32, .rng 8 1024, some .fab⟩,
  ⟨0x8000, 1, 0x4, 1, .u32, .rw, 2500000000, .rng 0 4000000000, some .fab⟩,
  ⟨0x8000, 1, 0x5, 1, .u16, .rw, 2560, .rng 1 2944, some .fab⟩,
  ⟨0x8000, 1, 0x6, 1, .u16, .rw, 1536, .rng 0 2559, some .fab⟩,
  ⟨0x8000, 1, 0x7, 1, .bits32, .ro, 0, .any, some .fab⟩,
  ⟨0x8010, 6, 0x1, 1, .enum8, .ro, 0x0, .any, some .fab⟩,
  ⟨0x8010, 6, 0x2, 1, .enum8, .rw, 0x0, .rng 0 1, some .fab⟩,
  ⟨0x8010, 6, 0x3, 1, .enum8, .rws, 0x0, .rng 0 1, some .fab⟩,
  ⟨0x8010, 6, 0x4, 1, .bits32, .ro, 0, .any, some .fab⟩,
  ⟨0x8010, 6, 0x5, 1, .u64, .ro, 0, .any, some .fab⟩,
  ⟨0x8010, 6, 0x6, 1, .u64, .ro, 0, .any, some .fab⟩,
  ⟨0x8010, 6, 0x7, 1, .u32, .ro, 0, .any, some .fab⟩,
  ⟨0x8010, 6, 0x8, 1, .u64, .ro, 0, .any, some .fab⟩,
  ⟨0x8010, 6, 0x9, 1, .u32, .ro, 0, .any, some .fab⟩,
  ⟨0x8010, 6, 0xA, 1, .u32, .rc, 0, .any, some .fab⟩,
  ⟨0x8010, 6, 0xB, 1, .u64, .ro, 0, .any, some .fab⟩,
  ⟨0x8020, 8, 0x1, 1, .u64, .ro, 0, .any, some .fab⟩,
  ⟨0x8020, 8, 0x2, 1, .u64, .ro, 0, .any, some .fab⟩,
  ⟨0x8020, 8, 0x3, 1, .u64, .ro, 0, .any, some .fab⟩,
  ⟨0x8020, 8, 0x4, 1, .u64, .ro, 0, .any, some .fab⟩,
  ⟨0x8020, 8, 0x5, 1, .u64, .ro, 0, .any, some .fab⟩,
  ⟨0x8020, 8, 0x6, 1, .u64, .ro, 0, .any, some .fab⟩]

/-- Objects of 0x8000 to 0x80FF, part 2. -/
def page80b : List Row := [
  ⟨0x8020, 8, 0x7, 1, .u64, .ro, 0, .any, some .fab⟩,
  ⟨0x8020, 8, 0x8, 1, .u64, .ro, 0, .any, some .fab⟩,
  ⟨0x8020, 8, 0x9, 1, .u64, .ro, 0, .any, some .fab⟩,
  ⟨0x8020, 8, 0xA, 1, .u16, .ro, 0, .any, some .fab⟩,
  ⟨0x8020, 8, 0xB, 1, .u64, .ro, 0, .any, some .fab⟩,
  ⟨0x8020, 8, 0xC, 1, .u64, .ro, 0, .any, some .fab⟩,
  ⟨0x8020, 8, 0xD, 1, .u64, .ro, 0, .any, some .fab⟩,
  ⟨0x8020, 8, 0xE, 1, .u32, .rc, 0, .any, some .fab⟩]

/-- Objects of 0x8000 to 0x80FF. -/
def page80 : List Row := page80a ++ page80b

/-- Objects of 0x8800 to 0x88FF, part 1. -/
def page88a : List Row := [
  ⟨0x8800, 1, 0x1, 1, .bool, .rws, 0, .rng 0 1, some .prot⟩,
  ⟨0x8800, 1, 0x2, 1, .u64, .rw, 75000000000, .rng 0 900000000000, some .prot⟩,
  ⟨0x8800, 1, 0x3, 1, .bool, .rws, 1, .rng 0 1, some .prot⟩,
  ⟨0x8800, 1, 0x4, 1, .bool, .ro, 0, .any, some .prot⟩,
  ⟨0x8800, 1, 0x5, 1, .bits32, .ro, 0, .any, some .prot⟩,
  ⟨0x8800, 1, 0x6, 1, .bool, .ro, 0, .any, some .prot⟩,
  ⟨0x8800, 1, 0x7, 1, .u64, .ro, 0, .any, some .prot⟩,
  ⟨0x8800, 1, 0x8, 1, .bool, .ro, 0, .any, some .prot⟩,
  ⟨0x8800, 1, 0x9, 1, .bool, .ro, 0, .any, some .prot⟩,
  ⟨0x8800, 1, 0xA, 1, .u32, .rc, 0, .any, some .prot⟩,
  ⟨0x8800, 1, 0xB, 1, .u32, .rc, 0, .any, some .prot⟩,
  ⟨0x8800, 1, 0xC, 1, .cmd, .wo, 0, .any, some .prot⟩,
  ⟨0x8800, 1, 0xD, 1, .u8, .rw, 0, .rng 0 48, some .prot⟩,
  ⟨0x8800, 1, 0xE, 1, .u16, .rw, 1536, .rng 0 2048, some .prot⟩,
  ⟨0x8820, 96, 0x1, 1, .enum8, .rw, 0x0, .rng 0 2, some .prot⟩,
  ⟨0x8820, 96, 0x2, 1, .enum8, .rw, 0x0, .rng 0 1, some .prot⟩,
  ⟨0x8820, 96, 0x3, 1, .enum8, .ro, 0x0, .any, some .prot⟩,
  ⟨0x8820, 96, 0x4, 1, .cmd, .wo, 0, .any, some .prot⟩,
  ⟨0x8820, 96, 0x5, 1, .bool, .ro, 0, .any, some .prot⟩,
  ⟨0x8820, 96, 0x6, 1, .bool, .ro, 0, .any, some .prot⟩,
  ⟨0x8820, 96, 0x7, 1, .u64, .ro, 0, .any, some .prot⟩,
  ⟨0x8820, 96, 0x8, 1, .u64, .ro, 0, .any, some .prot⟩,
  ⟨0x8820, 96, 0x9, 1, .u32, .rc, 0, .any, some .prot⟩,
  ⟨0x8820, 96, 0xA, 1, .u32, .ro, 0, .any, some .prot⟩]

/-- Objects of 0x8800 to 0x88FF, part 2. -/
def page88b : List Row := [
  ⟨0x8820, 96, 0xB, 1, .u16, .ro, 0, .any, some .prot⟩]

/-- Objects of 0x8800 to 0x88FF. -/
def page88 : List Row := page88a ++ page88b

/-- Objects of 0x9000 to 0x90FF. -/
def page90 : List Row := [
  ⟨0x9000, 1, 0x1, 1, .u8, .ro, 0, .any, some .hbm⟩,
  ⟨0x9000, 1, 0x2, 1, .u32, .rw, 3200, .zeroOr 800 1000000000, some .hbm⟩,
  ⟨0x9000, 1, 0x3, 1, .bool, .rws, 1, .rng 0 1, some .hbm⟩,
  ⟨0x9000, 1, 0x4, 1, .u8, .rws, 16, .rng 4 64, some .hbm⟩,
  ⟨0x9000, 1, 0x5, 1, .s32, .rw, 10500, .srng (8500) (11000), some .hbm⟩,
  ⟨0x9000, 1, 0x6, 1, .u32, .rw, 2500000, .rng 250000 250000000, some .hbm⟩,
  ⟨0x9000, 1, 0x7, 1, .u32, .ro, 0, .any, some .hbm⟩,
  ⟨0x9010, 4, 0x1, 1, .s32, .ro, 0, .any, some .hbm⟩,
  ⟨0x9010, 4, 0x2, 1, .bool, .ro, 0, .any, some .hbm⟩,
  ⟨0x9010, 4, 0x3, 1, .bool, .ro, 0, .any, some .hbm⟩]

/-- Objects of 0x9100 to 0x91FF. -/
def page91 : List Row := [
  ⟨0x9100, 64, 0x1, 1, .enum8, .ro, 0x0, .any, some .hbm⟩,
  ⟨0x9100, 64, 0x2, 1, .cmd, .wo, 0, .any, some .hbm⟩,
  ⟨0x9100, 64, 0x3, 1, .enum8, .ro, 0x0, .any, some .hbm⟩,
  ⟨0x9100, 64, 0x4, 1, .u32, .ro, 0, .any, some .hbm⟩,
  ⟨0x9100, 64, 0x5, 1, .u64, .ro, 0, .any, some .hbm⟩,
  ⟨0x9100, 64, 0x6, 1, .enum8, .ro, 0x0, .any, some .hbm⟩,
  ⟨0x9100, 64, 0x7, 1, .u64, .ro, 0, .any, some .hbm⟩,
  ⟨0x9100, 64, 0x8, 1, (.octets 32), .ro, 0, .any, some .hbm⟩,
  ⟨0x9100, 64, 0x9, 1, (.octets 16), .rw, 0, .any, some .hbm⟩,
  ⟨0x9100, 64, 0xA, 1, (.octets 16), .ro, 0, .any, some .hbm⟩,
  ⟨0x9100, 64, 0xB, 1, .u8, .ro, 0, .any, some .hbm⟩]

/-- Objects of 0x9200 to 0x92FF. -/
def page92 : List Row := [
  ⟨0x9200, 1, 0x1, 1, .cmd, .wo, 0, .any, some .hbm⟩,
  ⟨0x9200, 1, 0x2, 1, .enum8, .rw, 0x0, .rng 0 3, some .hbm⟩,
  ⟨0x9200, 1, 0x3, 1, .u32, .rw, 1, .rng 1 32767, some .hbm⟩,
  ⟨0x9200, 1, 0x4, 1, (.octets 32), .rw, 0, .any, some .hbm⟩,
  ⟨0x9200, 1, 0x5, 1, .u32, .rw, 4096, .rng 1 1048576, some .hbm⟩,
  ⟨0x9200, 1, 0x6, 1, .bits32, .rw, 0, .mask 0x007F7F07, some .hbm⟩,
  ⟨0x9200, 1, 0x7, 1, .enum8, .ro, 0x0, .any, some .hbm⟩,
  ⟨0x9200, 1, 0x8, 1, .enum8, .ro, 0x0, .any, some .hbm⟩,
  ⟨0x9200, 1, 0x9, 1, (.octets 1024), .ro, 0, .any, some .hbm⟩]

/-- Objects of 0x9400 to 0x94FF. -/
def page94 : List Row := [
  ⟨0x9400, 1, 0x1, 1, .bits32, .rws, 0xF, .mask 0xF, some .qdr⟩,
  ⟨0x9400, 1, 0x2, 1, .u8, .rws, 12, .rng 4 64, some .qdr⟩,
  ⟨0x9400, 1, 0x3, 1, .u8, .ro, 0xFF, .any, some .qdr⟩,
  ⟨0x9410, 4, 0x1, 1, .enum8, .ro, 0x0, .any, some .qdr⟩,
  ⟨0x9410, 4, 0x2, 1, .enum8, .rws, 0x1, .rng 0 1, some .qdr⟩,
  ⟨0x9410, 4, 0x3, 1, .u64, .ro, 0, .any, some .qdr⟩,
  ⟨0x9410, 4, 0x4, 1, .u64, .ro, 0, .any, some .qdr⟩,
  ⟨0x9410, 4, 0x5, 1, .u32, .ro, 0, .any, some .qdr⟩,
  ⟨0x9410, 4, 0x6, 1, .u32, .ro, 0, .any, some .qdr⟩,
  ⟨0x9410, 4, 0x7, 1, .u32, .rc, 0, .any, some .qdr⟩,
  ⟨0x9410, 4, 0x8, 1, .u64, .ro, 0, .any, some .qdr⟩,
  ⟨0x9410, 4, 0x9, 1, .u8, .ro, 0, .any, some .qdr⟩]

/-- Objects of 0xA000 to 0xA0FF, part 1. -/
def pageA0a : List Row := [
  ⟨0xA000, 1, 0x1, 1, .cmd, .wo, 0, .any, some .fwup⟩,
  ⟨0xA000, 1, 0x2, 1, .enum8, .ro, 0x0, .any, some .fwup⟩,
  ⟨0xA000, 1, 0x3, 1, .enum8, .ro, 0x0, .any, some .fwup⟩,
  ⟨0xA000, 1, 0x4, 1, .enum8, .ro, 0x0, .any, some .fwup⟩,
  ⟨0xA000, 1, 0x5, 1, .u32, .rw, 0, .any, some .fwup⟩,
  ⟨0xA000, 1, 0x6, 1, .u32, .ro, 0, .any, some .fwup⟩,
  ⟨0xA000, 1, 0x7, 1, .u8, .ro, 0xFF, .any, some .fwup⟩,
  ⟨0xA000, 1, 0x8, 1, .enum8, .ro, 0x0, .any, some .fwup⟩,
  ⟨0xA000, 1, 0x9, 1, .u32, .ro, 0, .any, some .fwup⟩,
  ⟨0xA000, 1, 0xA, 1, .u32, .rc, 0, .any, some .fwup⟩,
  ⟨0xA001, 1, 0x1, 1, (.octets 4096), .rw, 0, .any, some .fwup⟩,
  ⟨0xA001, 1, 0x2, 1, .u32, .rw, 0, .any, some .fwup⟩,
  ⟨0xA001, 1, 0x3, 1, .u16, .rw, 4096, .rng 1 4096, some .fwup⟩,
  ⟨0xA001, 1, 0x4, 1, .u32, .rw, 0, .any, some .fwup⟩,
  ⟨0xA002, 1, 0x1, 1, .u8, .ro, 0, .any, some .fwup⟩,
  ⟨0xA002, 1, 0x2, 1, .enum8, .ro, 0, .any, some .fwup⟩,
  ⟨0xA002, 1, 0x3, 1, .u64, .rw, 450000000000, .rng 15000000000 21600000000000, some .fwup⟩,
  ⟨0xA002, 1, 0x4, 1, .u64, .ro, 0, .any, some .fwup⟩,
  ⟨0xA002, 1, 0x5, 1, .u32, .ro, 0, .any, some .fwup⟩,
  ⟨0xA002, 1, 0x6, 1, .u32, .ro, 0, .any, some .fwup⟩,
  ⟨0xA002, 1, 0x7, 1, .u32, .ro, 0, .any, some .fwup⟩,
  ⟨0xA002, 1, 0x8, 1, .u32, .ro, 0, .any, some .fwup⟩,
  ⟨0xA002, 1, 0x9, 1, .u8, .ro, 0, .any, some .fwup⟩,
  ⟨0xA002, 1, 0xA, 1, .u8, .ro, 0, .any, some .fwup⟩]

/-- Objects of 0xA000 to 0xA0FF, part 2. -/
def pageA0b : List Row := [
  ⟨0xA002, 1, 0xB, 1, .u8, .ro, 0, .any, some .fwup⟩,
  ⟨0xA002, 1, 0xC, 1, .bits32, .ro, 0, .any, some .fwup⟩,
  ⟨0xA002, 1, 0xD, 1, .cmd, .wo, 0, .any, some .fwup⟩,
  ⟨0xA002, 1, 0xE, 1, .enum8, .ro, 0x0, .any, some .fwup⟩,
  ⟨0xA002, 1, 0xF, 1, .u32, .ro, 0, .any, some .fwup⟩,
  ⟨0xA003, 1, 0x1, 1, .cmd, .wo, 0, .any, some .fwup⟩,
  ⟨0xA003, 1, 0x2, 1, .enum8, .ro, 0x0, .any, some .fwup⟩,
  ⟨0xA003, 1, 0x3, 1, .u16, .ro, 0, .any, some .fwup⟩,
  ⟨0xA003, 1, 0x4, 1, .u8, .ro, 0, .any, some .fwup⟩,
  ⟨0xA003, 1, 0x5, 1, (.octets 2048), .rw, 0, .any, some .fwup⟩,
  ⟨0xA003, 1, 0x6, 1, .u32, .ro, 0, .any, some .fwup⟩,
  ⟨0xA003, 1, 0x7, 1, .u16, .ro, 0, .any, some .fwup⟩,
  ⟨0xA003, 1, 0x8, 1, .u32, .ro, 0, .any, some .fwup⟩]

/-- Objects of 0xA000 to 0xA0FF. -/
def pageA0 : List Row := pageA0a ++ pageA0b

/-- Objects of 0xB000 to 0xB0FF. -/
def pageB0 : List Row := [
  ⟨0xB000, 1, 0x1, 1, .cmd, .wo, 0, .any, some .perf⟩,
  ⟨0xB000, 1, 0x2, 1, .u64, .rw, 0, .mask 0xFFFFFFFFFFFF, some .perf⟩,
  ⟨0xB000, 1, 0x3, 1, .bool, .ro, 0, .any, some .perf⟩,
  ⟨0xB000, 1, 0x4, 1, .u64, .ro, 0, .any, some .perf⟩,
  ⟨0xB000, 1, 0x5, 1, .enum8, .rw, 0x0, .rng 0 2, some .perf⟩,
  ⟨0xB000, 1, 0x6, 1, .u32, .rc, 0, .any, some .perf⟩,
  ⟨0xB010, 96, 0x1, 1, .u16, .rw, 0x0, .any, some .perf⟩,
  ⟨0xB010, 96, 0x2, 1, .bits32, .rw, 0xF, .mask 0xF, some .perf⟩,
  ⟨0xB010, 96, 0x3, 1, .u8, .rw, 0xFF, .any, some .perf⟩,
  ⟨0xB010, 96, 0x4, 1, .u64, .rw, 0, .any, some .perf⟩,
  ⟨0xB010, 96, 0x5, 1, .u64, .rw, 0xFFFFFFFFFFFFFFFF, .any, some .perf⟩,
  ⟨0xB010, 96, 0x6, 1, .bits32, .rw, 0xFF, .mask 0xFF, some .perf⟩,
  ⟨0xB010, 96, 0x7, 1, .u64, .rw, 0, .any, some .perf⟩,
  ⟨0xB010, 96, 0x8, 1, .u64, .ro, 0, .any, some .perf⟩]

/-- Objects of 0xB100 to 0xB1FF. -/
def pageB1 : List Row := [
  ⟨0xB100, 1, 0x1, 1, .cmd, .wo, 0, .any, some .perf⟩,
  ⟨0xB100, 1, 0x2, 1, .u64, .rw, 0, .any, some .perf⟩,
  ⟨0xB100, 1, 0x3, 1, .u64, .rw, 0, .any, some .perf⟩,
  ⟨0xB100, 1, 0x4, 1, .enum8, .ro, 0x0, .any, some .perf⟩,
  ⟨0xB100, 1, 0x5, 1, .u64, .ro, 0, .any, some .perf⟩,
  ⟨0xB100, 1, 0x6, 1, .u64, .ro, 0, .any, some .perf⟩,
  ⟨0xB100, 1, 0x7, 1, .u64, .ro, 0, .any, some .perf⟩,
  ⟨0xB100, 1, 0x8, 1, .u32, .rc, 0, .any, some .perf⟩]

/-- Objects of 0xB200 to 0xB2FF. -/
def pageB2 : List Row := [
  ⟨0xB200, 16, 0x1, 1, .u32, .rw, 1, .rng 1 6291455, some .perf⟩,
  ⟨0xB200, 16, 0x2, 1, .u32, .rw, 0, .rng 0 6291455, some .perf⟩,
  ⟨0xB200, 16, 0x3, 1, .u32, .rw, 250000000, .rng 250000 4000000000, some .perf⟩,
  ⟨0xB200, 16, 0x4, 1, .bool, .rw, 0, .rng 0 1, some .perf⟩,
  ⟨0xB200, 16, 0x5, 1, .u32, .ro, 0, .any, some .perf⟩,
  ⟨0xB200, 16, 0x6, 1, .u32, .rc, 0, .any, some .perf⟩]

/-- Objects of 0xF000 to 0xF0FF. -/
def pageF0 : List Row := [
  ⟨0xF010, 18, 0x1, 1, .enum8, .ro, 0x0, .any, none⟩,
  ⟨0xF010, 18, 0x2, 1, .u64, .ro, 0, .any, none⟩,
  ⟨0xF010, 18, 0x3, 1, .u32, .ro, 0, .any, none⟩,
  ⟨0xF010, 18, 0x4, 1, .u64, .ro, 0, .any, none⟩,
  ⟨0xF010, 18, 0x5, 1, .u8, .ro, 2, .any, none⟩,
  ⟨0xF010, 18, 0x6, 1, .u32, .ro, 0, .any, none⟩]

/-- The rows that an index can match, by its high byte (R24); the sub-ports of 0x6200 run into page 0x63. -/
def pageOf (hi : Nat) : List Row :=
  match hi with
  | 0x10 => page10
  | 0x11 => page11
  | 0x12 => page12
  | 0x20 => page20
  | 0x21 => page21
  | 0x24 => page24
  | 0x25 => page25
  | 0x30 => page30
  | 0x31 => page31
  | 0x32 => page32
  | 0x34 => page34
  | 0x40 => page40
  | 0x41 => page41
  | 0x42 => page42
  | 0x43 => page43
  | 0x44 => page44
  | 0x48 => page48
  | 0x50 => page50
  | 0x51 => page51
  | 0x53 => page53
  | 0x54 => page54
  | 0x55 => page55
  | 0x60 => page60
  | 0x61 => page61
  | 0x62 => page62
  | 0x63 => page62
  | 0x68 => page68
  | 0x70 => page70
  | 0x71 => page71
  | 0x72 => page72
  | 0x74 => page74
  | 0x75 => page75
  | 0x76 => page76
  | 0x77 => page77
  | 0x78 => page78
  | 0x7C => page7C
  | 0x80 => page80
  | 0x88 => page88
  | 0x90 => page90
  | 0x91 => page91
  | 0x92 => page92
  | 0x94 => page94
  | 0xA0 => pageA0
  | 0xB0 => pageB0
  | 0xB1 => pageB1
  | 0xB2 => pageB2
  | 0xF0 => pageF0
  | _ => []

/-- Does a row hold the index? -/
def Row.hasIndex (r : Row) (i : Nat) : Bool := decide (r.base ≤ i) && decide (i < r.base + r.count)

/-- Does a row hold the index and subindex? -/
def Row.holds (r : Row) (i sub : Nat) : Bool :=
  r.hasIndex i && decide (r.sub ≤ sub) && decide (sub < r.sub + r.subs)

/-- The row of an object, if it exists (R25). -/
def lookup (i sub : Nat) : Option Row := (pageOf (i / 256)).find? fun r => r.holds i sub

/-- Does the index hold any object (R25)? -/
def indexHolds (i : Nat) : Bool := (pageOf (i / 256)).any fun r => r.hasIndex i

/-- The key of an object: index and subindex as `WIN_WRITE_OBJECT` and `MBX_OBJECT` write them (R35, R37). -/
abbrev key (i sub : Nat) : Nat := i * 256 + sub

/-- The default of an object (R30). Log entry 5 (DEDUCED and DESIGN CHOICE). -/
def dfltOf (k : Nat) : Nat := ((lookup (k / 256) (k % 256)).map Row.dflt).getD 0

end Sys2Proof.Machine
end

