-- ==== Sys2Proof/Machine/Objects.lean ====
section
/-!
DEFINITION. The dictionary objects by the names of their tables: each name gives the key of its object, with the element
number where the table is repeated. Where one name stands in two tables, the table is named too (`pcieLinkState`).
-/

namespace Sys2Proof.Machine.O

/-- EVRAD_STATE (R13). -/
abbrev evradState (n : Nat) : Nat := key (0xF010 + n) 0x1
/-- EVRAD_REPLAYS (R13). -/
abbrev evradReplays (n : Nat) : Nat := key (0xF010 + n) 0x2
/-- EVRAD_REPAIRS (R13). -/
abbrev evradRepairs (n : Nat) : Nat := key (0xF010 + n) 0x3
/-- EVRAD_DROPS (R13). -/
abbrev evradDrops (n : Nat) : Nat := key (0xF010 + n) 0x4
/-- EVRAD_SPARES (R13). -/
abbrev evradSpares (n : Nat) : Nat := key (0xF010 + n) 0x5
/-- EVRAD_LAST_OUTAGE (R13). -/
abbrev evradLastOutage (n : Nat) : Nat := key (0xF010 + n) 0x6
/-- VENDOR_ID (R26). -/
abbrev vendorId : Nat := 0x100001
/-- DEVICE_ID (R26). -/
abbrev deviceId : Nat := 0x100002
/-- SILICON_REV (R26). -/
abbrev siliconRev : Nat := 0x100003
/-- ORDER_CODE (R26). -/
abbrev orderCode : Nat := 0x100004
/-- SERIAL (R26). -/
abbrev serial : Nat := 0x100101
/-- DICT_VERSION (R26). -/
abbrev dictVersion : Nat := 0x100201
/-- MC_FW_VERSION (R26). -/
abbrev mcFwVersion : Nat := 0x100202
/-- WIN_WRITE_STATUS (R35). -/
abbrev winWriteStatus : Nat := 0x301001
/-- WIN_WRITE_OBJECT (R35). -/
abbrev winWriteObject : Nat := 0x301002
/-- WIN_READ_STATUS (R35). -/
abbrev winReadStatus : Nat := 0x301003
/-- WIN_REFUSED (R35). -/
abbrev winRefused : Nat := 0x301004
/-- MBX_CMD (R37). -/
abbrev mbxCmd : Nat := 0x302001
/-- MBX_OBJECT (R37). -/
abbrev mbxObject : Nat := 0x302002
/-- MBX_OFFSET (R37). -/
abbrev mbxOffset : Nat := 0x302003
/-- MBX_LENGTH (R37). -/
abbrev mbxLength : Nat := 0x302004
/-- MBX_STATE (R37). -/
abbrev mbxState : Nat := 0x302005
/-- MBX_STATUS (R37). -/
abbrev mbxStatus : Nat := 0x302006
/-- MBX_DATA (R37), by 8-byte slot. -/
abbrev mbxData (slot : Nat) : Nat := key (0x3022 + slot / 256) (slot % 256)
/-- MGMT_MODE (R48). -/
abbrev mgmtMode : Nat := 0x340001
/-- MGMT_MAC (R48). -/
abbrev mgmtMac : Nat := 0x340002
/-- MGMT_ADDR (R48). -/
abbrev mgmtAddr : Nat := 0x340101
/-- MGMT_PREFIX_LEN (R48). -/
abbrev mgmtPrefixLen : Nat := 0x340102
/-- MGMT_GATEWAY (R48). -/
abbrev mgmtGateway : Nat := 0x340103
/-- KDP_PORT (R48). -/
abbrev kdpPort : Nat := 0x340201
/-- KDP_REQUESTS (R48). -/
abbrev kdpRequests : Nat := 0x340202
/-- KDP_MALFORMED (R48). -/
abbrev kdpMalformed : Nat := 0x340203
/-- KDP_AUTH_FAILS (R48). -/
abbrev kdpAuthFails : Nat := 0x340204
/-- KDP_SEQ_ERRORS (R48). -/
abbrev kdpSeqErrors : Nat := 0x340205
/-- KDP_QUEUE_DROPS (R48). -/
abbrev kdpQueueDrops : Nat := 0x340206
/-- KDP_KEY0 (R48). -/
abbrev kdpKey0 : Nat := 0x341001
/-- KDP_KEY1 (R48). -/
abbrev kdpKey1 : Nat := 0x341002
/-- KDP_KEY_VALID (R48). -/
abbrev kdpKeyValid : Nat := 0x341003
/-- KDP_KEY_REVOKE (R48). -/
abbrev kdpKeyRevoke : Nat := 0x341004
/-- KDP_EVENT_DEST (R48). -/
abbrev kdpEventDest : Nat := 0x342001
/-- KDP_EVENT_PORT (R48). -/
abbrev kdpEventPort : Nat := 0x342002
/-- KDP_EVENT_RINGS (R48). -/
abbrev kdpEventRings : Nat := 0x342003
/-- KDP_EVENT_SLOT (R48). -/
abbrev kdpEventSlot : Nat := 0x342004
/-- COMMAND (R58). -/
abbrev fnCommand (n : Nat) : Nat := key (0x1100 + n) 0x1
/-- STATE (R58). -/
abbrev fnState (n : Nat) : Nat := key (0x1100 + n) 0x2
/-- LAST_STATUS (R58). -/
abbrev lastStatus (n : Nat) : Nat := key (0x1100 + n) 0x3
/-- STOP_TIMEOUT (R58). -/
abbrev stopTimeout (n : Nat) : Nat := key (0x1100 + n) 0x4
/-- STOP_DISCARDS (R58). -/
abbrev stopDiscards (n : Nat) : Nat := key (0x1100 + n) 0x5
/-- RING_BASE (R62). -/
abbrev ringBase (n : Nat) : Nat := key (0x1200 + n) 0x1
/-- RING_SIZE_LOG2 (R62). -/
abbrev ringSizeLog2 (n : Nat) : Nat := key (0x1200 + n) 0x2
/-- RING_HEAD (R62). -/
abbrev ringHead (n : Nat) : Nat := key (0x1200 + n) 0x3
/-- RING_TAIL (R62). -/
abbrev ringTail (n : Nat) : Nat := key (0x1200 + n) 0x4
/-- RING_ENABLE (R62). -/
abbrev ringEnable (n : Nat) : Nat := key (0x1200 + n) 0x5
/-- RING_LOST (R62). -/
abbrev ringLost (n : Nat) : Nat := key (0x1200 + n) 0x6
/-- RING_SEV_MIN (R62). -/
abbrev ringSevMin (n : Nat) : Nat := key (0x1200 + n) 0x7
/-- VIN12_MV (R67). -/
abbrev vin12Mv : Nat := 0x200001
/-- INPUT_POWER (R67). -/
abbrev inputPower : Nat := 0x200002
/-- INPUT_POWER_PEAK (R67). -/
abbrev inputPowerPeak : Nat := 0x200003
/-- SUPPLY_FLAGS (R67). -/
abbrev supplyFlags : Nat := 0x200004
/-- RAIL_MV (R67). -/
abbrev railMv (n : Nat) : Nat := key (0x2010 + n) 0x1
/-- RAIL_MA (R67). -/
abbrev railMa (n : Nat) : Nat := key (0x2010 + n) 0x2
/-- RAIL_WARNINGS (R67). -/
abbrev railWarnings (n : Nat) : Nat := key (0x2010 + n) 0x3
/-- TJ_F (R67). -/
abbrev tjF : Nat := 0x210001
/-- TJ_T (R67). -/
abbrev tjT : Nat := 0x210002
/-- TJ_WARN (R67). -/
abbrev tjWarn : Nat := 0x210003
/-- TJ_CRIT (R67). -/
abbrev tjCrit : Nat := 0x210004
/-- TJ_TRIP (R67). -/
abbrev tjTrip : Nat := 0x210005
/-- THERMAL_FLAGS (R67). -/
abbrev thermalFlags : Nat := 0x210006
/-- TJ_F_MEAN (R67). -/
abbrev tjFMean : Nat := 0x210007
/-- TJ_T_MEAN (R67). -/
abbrev tjTMean : Nat := 0x210008
/-- RESET_CAUSE (R80). -/
abbrev resetCause : Nat := 0x250001
/-- WAKE_FAIL_STEP (R80). -/
abbrev wakeFailStep : Nat := 0x250002
/-- WAKE_ATTEMPTS (R80). -/
abbrev wakeAttempts : Nat := 0x250003
/-- SYS_RESET (R80). -/
abbrev sysReset : Nat := 0x250004
/-- CORE_RESET (R80). -/
abbrev coreReset : Nat := 0x250005
/-- LAST_SUPPLY_FAULT (R80). -/
abbrev lastSupplyFault : Nat := 0x250006
/-- FAULT_SOURCES (R80). -/
abbrev faultSources : Nat := 0x250007
/-- ROOT_STATE (R85). -/
abbrev rootState : Nat := 0x240001
/-- DOMAIN_STABLE (R85). -/
abbrev domainStable : Nat := 0x240002
/-- CLK_UNSTABLE (R85). -/
abbrev clkUnstable : Nat := 0x240003
/-- MON_EXCURSIONS (R85). -/
abbrev monExcursions : Nat := 0x240004
/-- PHY_PLL_LOCK (R85). -/
abbrev phyPllLock : Nat := 0x240101
/-- PHY_PLL_UNLOCKS (R85). -/
abbrev phyPllUnlocks : Nat := 0x240102
/-- PHY_PLL_ENABLE (R85). -/
abbrev phyPllEnable : Nat := 0x240103
/-- PSTATE_CMD (R95). -/
abbrev pstateCmd : Nat := 0x202001
/-- PSTATE (R95). -/
abbrev pstate : Nat := 0x202002
/-- PSTATE_STATUS (R95). -/
abbrev pstateStatus : Nat := 0x202003
/-- BIAS_F_MV (R95). -/
abbrev biasFMv : Nat := 0x202004
/-- BIAS_T_MV (R95). -/
abbrev biasTMv : Nat := 0x202005
/-- SRAM_ASSIST (R95). -/
abbrev sramAssist : Nat := 0x202006
/-- LINK_STATE (R107). -/
abbrev pcieLinkState : Nat := 0x300001
/-- LINK_SPEED (R107). -/
abbrev linkSpeed : Nat := 0x300002
/-- LINK_WIDTH (R107). -/
abbrev linkWidth : Nat := 0x300003
/-- FLIT_MODE (R107). -/
abbrev flitMode : Nat := 0x300004
/-- TARGET_SPEED (R107). -/
abbrev targetSpeed : Nat := 0x300005
/-- LINK_DOWNS (R107). -/
abbrev pcieLinkDowns : Nat := 0x300006
/-- ASPM_IDLE (R107). -/
abbrev aspmIdle : Nat := 0x300007
/-- L1_ENTRIES (R107). -/
abbrev l1Entries : Nat := 0x300008
/-- CPL_TIMEOUTS (R107). -/
abbrev cplTimeouts : Nat := 0x300009
/-- UNEXPECTED_CPLS (R107). -/
abbrev unexpectedCpls : Nat := 0x30000A
/-- QUARANTINED_TAGS (R107). -/
abbrev quarantinedTags : Nat := 0x30000B
/-- QUARANTINE_HOLD (R107). -/
abbrev quarantineHold : Nat := 0x30000C
/-- OUTSTANDING_NP (R107). -/
abbrev outstandingNp : Nat := 0x30000D
/-- UR_RECEIVED (R107). -/
abbrev urReceived : Nat := 0x30000E
/-- POISONED_RECEIVED (R107). -/
abbrev poisonedReceived : Nat := 0x30000F
/-- DOORBELL_ERRORS (R107). -/
abbrev doorbellErrors : Nat := 0x300010
/-- ATS_HITS (R107). -/
abbrev atsHits : Nat := 0x300011
/-- ATS_MISSES (R107). -/
abbrev atsMisses : Nat := 0x300012
/-- ATS_INVALIDATIONS (R107). -/
abbrev atsInvalidations : Nat := 0x300013
/-- ATS_CACHE_USED (R107). -/
abbrev atsCacheUsed : Nat := 0x300014
/-- PCIE_PLL_LOCK (R107). -/
abbrev pciePllLock : Nat := 0x300015
/-- DRING_BASE (R109). -/
abbrev dringBase (n : Nat) : Nat := key (0x3100 + n) 0x1
/-- DRING_SIZE_LOG2 (R109). -/
abbrev dringSizeLog2 (n : Nat) : Nat := key (0x3100 + n) 0x2
/-- DRING_KIND (R109). -/
abbrev dringKind (n : Nat) : Nat := key (0x3100 + n) 0x3
/-- DRING_TARGET (R109). -/
abbrev dringTarget (n : Nat) : Nat := key (0x3100 + n) 0x4
/-- DRING_CMD (R109). -/
abbrev dringCmd (n : Nat) : Nat := key (0x3100 + n) 0x5
/-- DRING_STATE (R109). -/
abbrev dringState (n : Nat) : Nat := key (0x3100 + n) 0x6
/-- DRING_HALT_CAUSE (R109). -/
abbrev dringHaltCause (n : Nat) : Nat := key (0x3100 + n) 0x7
/-- DRING_HEAD (R109). -/
abbrev dringHead (n : Nat) : Nat := key (0x3100 + n) 0x8
/-- DRING_TAIL (R109). -/
abbrev dringTail (n : Nat) : Nat := key (0x3100 + n) 0x9
/-- DRING_COMPLETED (R109). -/
abbrev dringCompleted (n : Nat) : Nat := key (0x3100 + n) 0xA
/-- DRING_ABORTED (R109). -/
abbrev dringAborted (n : Nat) : Nat := key (0x3100 + n) 0xB
/-- DRING_NO_BUFFER (R109). -/
abbrev dringNoBuffer (n : Nat) : Nat := key (0x3100 + n) 0xC
/-- COAL_COUNT (R117). -/
abbrev coalCount (n : Nat) : Nat := key (0x3200 + n) 0x1
/-- COAL_TIME (R117). -/
abbrev coalTime (n : Nat) : Nat := key (0x3200 + n) 0x2
/-- MSIX_SENT (R117). -/
abbrev msixSent (n : Nat) : Nat := key (0x3200 + n) 0x3
/-- PAIR_MODE_NEXT (R142). -/
abbrev pairModeNext (n : Nat) : Nat := key (0x40F0 + n) 0x1
/-- PAIR_MODE (R142). -/
abbrev pairMode (n : Nat) : Nat := key (0x40F0 + n) 0x2
/-- PAIR_APPLY (R142). -/
abbrev pairApply (n : Nat) : Nat := key (0x40F0 + n) 0x3
/-- ADMIN_UP (R143). -/
abbrev adminUp (n : Nat) : Nat := key (0x4000 + n) 0x1
/-- ROLE_NEXT (R143). -/
abbrev roleNext (n : Nat) : Nat := key (0x4000 + n) 0x2
/-- ROLE (R143). -/
abbrev portRole (n : Nat) : Nat := key (0x4000 + n) 0x3
/-- MAX_FRAME (R143). -/
abbrev maxFrame (n : Nat) : Nat := key (0x4000 + n) 0x4
/-- LOOPBACK (R143). -/
abbrev loopback (n : Nat) : Nat := key (0x4000 + n) 0x5
/-- LINK_DOWN_HOLD (R143). -/
abbrev linkDownHold (n : Nat) : Nat := key (0x4000 + n) 0x6
/-- TRAIN_TIMEOUT (R143). -/
abbrev trainTimeout (n : Nat) : Nat := key (0x4000 + n) 0x7
/-- TS_INGRESS_CORR (R143). -/
abbrev tsIngressCorr (n : Nat) : Nat := key (0x4000 + n) 0x8
/-- TS_EGRESS_CORR (R143). -/
abbrev tsEgressCorr (n : Nat) : Nat := key (0x4000 + n) 0x9
/-- LINK_STATE (R148). -/
abbrev portLinkState (n : Nat) : Nat := key (0x4100 + n) 0x1
/-- LAST_DOWN_CAUSE (R148). -/
abbrev lastDownCause (n : Nat) : Nat := key (0x4100 + n) 0x2
/-- LINK_DOWNS (R148). -/
abbrev portLinkDowns (n : Nat) : Nat := key (0x4100 + n) 0x3
/-- RX_FRAMES (R148). -/
abbrev rxFrames (n : Nat) : Nat := key (0x4100 + n) 0x4
/-- RX_BYTES (R148). -/
abbrev rxBytes (n : Nat) : Nat := key (0x4100 + n) 0x5
/-- RX_FCS_ERRORS (R148). -/
abbrev rxFcsErrors (n : Nat) : Nat := key (0x4100 + n) 0x6
/-- RX_UNDERSIZE (R148). -/
abbrev rxUndersize (n : Nat) : Nat := key (0x4100 + n) 0x7
/-- RX_OVERSIZE (R148). -/
abbrev rxOversize (n : Nat) : Nat := key (0x4100 + n) 0x8
/-- RX_OVERRUN (R148). -/
abbrev rxOverrun (n : Nat) : Nat := key (0x4100 + n) 0x9
/-- TX_FRAMES (R148). -/
abbrev txFrames (n : Nat) : Nat := key (0x4100 + n) 0xA
/-- TX_BYTES (R148). -/
abbrev txBytes (n : Nat) : Nat := key (0x4100 + n) 0xB
/-- TX_DISCARDS (R148). -/
abbrev txDiscards (n : Nat) : Nat := key (0x4100 + n) 0xC
/-- FEC_MODE (R149). -/
abbrev fecMode (n : Nat) : Nat := key (0x4200 + n) 0x1
/-- CW_TOTAL (R149). -/
abbrev cwTotal (n : Nat) : Nat := key (0x4200 + n) 0x2
/-- CW_CORRECTED (R149). -/
abbrev cwCorrected (n : Nat) : Nat := key (0x4200 + n) 0x3
/-- CW_UNCORRECTABLE (R149). -/
abbrev cwUncorrectable (n : Nat) : Nat := key (0x4200 + n) 0x4
/-- SYMBOLS_CORRECTED (R149). -/
abbrev symbolsCorrected (n : Nat) : Nat := key (0x4200 + n) 0x5
/-- DEGRADE_SET (R149). -/
abbrev degradeSet (n : Nat) : Nat := key (0x4200 + n) 0x6
/-- DEGRADE_CLEAR (R149). -/
abbrev degradeClear (n : Nat) : Nat := key (0x4200 + n) 0x7
/-- FEC_DEGRADED (R149). -/
abbrev fecDegraded (n : Nat) : Nat := key (0x4200 + n) 0x8
/-- LANE_STATE (R151). -/
abbrev laneState (n : Nat) : Nat := key (0x4300 + n) 0x1
/-- TX_POLARITY (R151). -/
abbrev txPolarity (n : Nat) : Nat := key (0x4300 + n) 0x2
/-- RX_POLARITY (R151). -/
abbrev rxPolarity (n : Nat) : Nat := key (0x4300 + n) 0x3
/-- TRAIN_ENABLE (R151). -/
abbrev trainEnable (n : Nat) : Nat := key (0x4300 + n) 0x4
/-- TX_TAPS (R151). -/
abbrev txTaps (n : Nat) : Nat := key (0x4300 + n) 0x5
/-- TRAINED_TAPS (R151). -/
abbrev trainedTaps (n : Nat) : Nat := key (0x4300 + n) 0x6
/-- RX_SNR (R151). -/
abbrev rxSnr (n : Nat) : Nat := key (0x4300 + n) 0x7
/-- LOCK_LOSSES (R151). -/
abbrev lockLosses (n : Nat) : Nat := key (0x4300 + n) 0x8
/-- PRBS_MODE (R151). -/
abbrev prbsMode (n : Nat) : Nat := key (0x4300 + n) 0x9
/-- PRBS_LOCK (R151). -/
abbrev prbsLock (n : Nat) : Nat := key (0x4300 + n) 0xA
/-- PRBS_ERRORS (R151). -/
abbrev prbsErrors (n : Nat) : Nat := key (0x4300 + n) 0xB
/-- SUBPORT_CMD (R153). -/
abbrev subportCmd : Nat := 0x408001
/-- SUBPORT_DATA (R153). -/
abbrev subportData : Nat := 0x408002
/-- SUBPORT_RESULT (R153). -/
abbrev subportResult : Nat := 0x408003
/-- SUBPORT_DROPS (R153). -/
abbrev subportDrops : Nat := 0x408004
/-- TOD_CAPTURE (R158). -/
abbrev todCapture : Nat := 0x440001
/-- TOD_SEC (R158). -/
abbrev todSec : Nat := 0x440002
/-- TOD_NS (R158). -/
abbrev todNs : Nat := 0x440003
/-- TOD_SET_SEC (R158). -/
abbrev todSetSec : Nat := 0x440004
/-- TOD_SET_NS (R158). -/
abbrev todSetNs : Nat := 0x440005
/-- TOD_SET (R158). -/
abbrev todSet : Nat := 0x440006
/-- TOD_STEP (R158). -/
abbrev todStep : Nat := 0x440007
/-- TOD_RATE_ADJ (R158). -/
abbrev todRateAdj : Nat := 0x440008
/-- TS_CAPTURE_DROPS (R158). -/
abbrev tsCaptureDrops : Nat := 0x440009
/-- TOD_SET_PENDING (R158). -/
abbrev todSetPending : Nat := 0x44000A
/-- PPS_OUT_ENABLE (R158). -/
abbrev ppsOutEnable : Nat := 0x440101
/-- PPS_OUT_WIDTH (R158). -/
abbrev ppsOutWidth : Nat := 0x440102
/-- PPS_OUT_OFFSET (R158). -/
abbrev ppsOutOffset : Nat := 0x440103
/-- PPS_IN_ENABLE (R158). -/
abbrev ppsInEnable : Nat := 0x440104
/-- PPS_IN_CORR (R158). -/
abbrev ppsInCorr : Nat := 0x440105
/-- PPS_IN_SEC (R158). -/
abbrev ppsInSec : Nat := 0x440106
/-- PPS_IN_NS (R158). -/
abbrev ppsInNs : Nat := 0x440107
/-- PPS_IN_EDGES (R158). -/
abbrev ppsInEdges : Nat := 0x440108
/-- SYNCE_SRC (R161). -/
abbrev synceSrc (n : Nat) : Nat := key (0x4410 + n) 0x1
/-- SYNCE_DIV (R161). -/
abbrev synceDiv (n : Nat) : Nat := key (0x4410 + n) 0x2
/-- SYNCE_STATE (R161). -/
abbrev synceState (n : Nat) : Nat := key (0x4410 + n) 0x3
/-- SYNCE_HOLDOFF (R161). -/
abbrev synceHoldoff (n : Nat) : Nat := key (0x4410 + n) 0x4
/-- SYNCE_SQUELCHES (R161). -/
abbrev synceSquelches (n : Nat) : Nat := key (0x4410 + n) 0x5
/-- TSI_CMD (R183). -/
abbrev tsiCmd : Nat := 0x488001
/-- TSI_KEY (R183). -/
abbrev tsiKey : Nat := 0x488002
/-- TSI_DATA (R183). -/
abbrev tsiData : Nat := 0x488003
/-- TSI_RESULT (R183). -/
abbrev tsiResult : Nat := 0x488004
/-- TSI_SWAP_STATE (R183). -/
abbrev tsiSwapState : Nat := 0x488005
/-- TSI_ERROR_KEY (R183). -/
abbrev tsiErrorKey : Nat := 0x488006
/-- TSI_SWAPS (R183). -/
abbrev tsiSwaps : Nat := 0x488007
/-- TSI_ACTIVE_PAGE (R183). -/
abbrev tsiActivePage : Nat := 0x488008
/-- GROUP_PORT (R188). -/
abbrev groupPort (n : Nat) : Nat := key (0x4800 + n) 0x1
/-- GROUP_N (R188). -/
abbrev groupN (n : Nat) : Nat := key (0x4800 + n) 0x2
/-- TIM_ENABLE (R188). -/
abbrev timEnable (n : Nat) : Nat := key (0x4800 + n) 0x3
/-- TX_TTI (R188). -/
abbrev txTti (n : Nat) : Nat := key (0x4800 + n) 0x4
/-- EXPECTED_TTI (R188). -/
abbrev expectedTti (n : Nat) : Nat := key (0x4800 + n) 0x5
/-- RX_TTI (R188). -/
abbrev rxTti (n : Nat) : Nat := key (0x4800 + n) 0x6
/-- RX_STATE (R188). -/
abbrev rxState (n : Nat) : Nat := key (0x4800 + n) 0x7
/-- DEFECTS (R188). -/
abbrev defects (n : Nat) : Nat := key (0x4800 + n) 0x8
/-- SM_BIP_ERRORS (R188). -/
abbrev smBipErrors (n : Nat) : Nat := key (0x4800 + n) 0x9
/-- SM_BEI_COUNT (R188). -/
abbrev smBeiCount (n : Nat) : Nat := key (0x4800 + n) 0xA
/-- PM_BIP_ERRORS (R188). -/
abbrev pmBipErrors (n : Nat) : Nat := key (0x4800 + n) 0xB
/-- PM_BEI_COUNT (R188). -/
abbrev pmBeiCount (n : Nat) : Nat := key (0x4800 + n) 0xC
/-- OOF_EVENTS (R188). -/
abbrev oofEvents (n : Nat) : Nat := key (0x4800 + n) 0xD
/-- HUNT_CANDIDATES (R188). -/
abbrev huntCandidates (n : Nat) : Nat := key (0x4800 + n) 0xE
/-- CAND_OVERFLOWS (R188). -/
abbrev candOverflows (n : Nat) : Nat := key (0x4800 + n) 0xF
/-- DEG_THRESHOLD (R188). -/
abbrev degThreshold (n : Nat) : Nat := key (0x4800 + n) 0x10
/-- DEG_SECONDS (R188). -/
abbrev degSeconds (n : Nat) : Nat := key (0x4800 + n) 0x11
/-- CLIENT_SEL (R189). -/
abbrev clientSel : Nat := 0x489001
/-- CLIENT_STATE (R189). -/
abbrev clientState : Nat := 0x489002
/-- CLIENT_SLOTS (R189). -/
abbrev clientSlots : Nat := 0x489003
/-- CLIENT_PM_BIP (R189). -/
abbrev clientPmBip : Nat := 0x489004
/-- CLIENT_PM_BEI (R189). -/
abbrev clientPmBei : Nat := 0x489005
/-- CLIENT_RX_DROPS (R189). -/
abbrev clientRxDrops : Nat := 0x489006
/-- CLIENT_DEFECTS (R189). -/
abbrev clientDefects : Nat := 0x489007
/-- TPID0 (R197). -/
abbrev tpid0 : Nat := 0x508001
/-- TPID1 (R197). -/
abbrev tpid1 : Nat := 0x508002
/-- TPID2 (R197). -/
abbrev tpid2 : Nat := 0x508003
/-- TPID3 (R197). -/
abbrev tpid3 : Nat := 0x508004
/-- VXLAN_PORT (R197). -/
abbrev vxlanPort : Nat := 0x508005
/-- GENEVE_PORT (R197). -/
abbrev genevePort : Nat := 0x508006
/-- TUNNEL_ENABLE (R197). -/
abbrev tunnelEnable : Nat := 0x508007
/-- CHECK_IPV4_CSUM (R197). -/
abbrev checkIpv4Csum : Nat := 0x508008
/-- MPLS_PAYLOAD (R197). -/
abbrev mplsPayload : Nat := 0x508009
/-- PARSE_DEPTH (R197). -/
abbrev parseDepth (n : Nat) : Nat := key (0x5000 + n) 0x1
/-- DEFAULT_ACTION (R197). -/
abbrev defaultAction (n : Nat) : Nat := key (0x5000 + n) 0x2
/-- DEFAULT_QUEUE (R197). -/
abbrev defaultQueue (n : Nat) : Nat := key (0x5000 + n) 0x3
/-- DEFAULT_TRAP (R197). -/
abbrev defaultTrap (n : Nat) : Nat := key (0x5000 + n) 0x4
/-- EG_DEFAULT_ACTION (R197). -/
abbrev egDefaultAction (n : Nat) : Nat := key (0x5000 + n) 0x5
/-- STRAGGLER_POLICY (R197). -/
abbrev stragglerPolicy (n : Nat) : Nat := key (0x5000 + n) 0x6
/-- PARSE_FAILS (R197). -/
abbrev parseFails (n : Nat) : Nat := key (0x5000 + n) 0x7
/-- LAST_PARSE_STATUS (R197). -/
abbrev lastParseStatus (n : Nat) : Nat := key (0x5000 + n) 0x8
/-- NO_MATCH (R197). -/
abbrev noMatch (n : Nat) : Nat := key (0x5000 + n) 0x9
/-- DEFAULT_DROPS (R197). -/
abbrev defaultDrops (n : Nat) : Nat := key (0x5000 + n) 0xA
/-- STAGE_KIND (R204). -/
abbrev stageKind (n : Nat) : Nat := key (0x50A0 + n) 0x1
/-- STAGE_TABLE (R204). -/
abbrev stageTable (n : Nat) : Nat := key (0x50A0 + n) 0x2
/-- STAGE_COND_MASK (R204). -/
abbrev stageCondMask (n : Nat) : Nat := key (0x50A0 + n) 0x3
/-- STAGE_COND_VALUE (R204). -/
abbrev stageCondValue (n : Nat) : Nat := key (0x50A0 + n) 0x4
/-- KEY_FRAG0–KEY_FRAG7 (R204). -/
abbrev keyFrag (n j : Nat) : Nat := key (0x50A0 + n) (0x5 + j)
/-- RESULT_POS (R204). -/
abbrev resultPos (n : Nat) : Nat := key (0x50A0 + n) 0xD
/-- RESULT_WIDTH (R204). -/
abbrev resultWidth (n : Nat) : Nat := key (0x50A0 + n) 0xE
/-- MISS_ACTION (R204). -/
abbrev missAction (n : Nat) : Nat := key (0x50A0 + n) 0xF
/-- HIT_ACTION (R204). -/
abbrev hitAction (n : Nat) : Nat := key (0x50A0 + n) 0x10
/-- STAGE_HITS (R204). -/
abbrev stageHits (n : Nat) : Nat := key (0x50A0 + n) 0x11
/-- STAGE_MISSES (R204). -/
abbrev stageMisses (n : Nat) : Nat := key (0x50A0 + n) 0x12
/-- CHAIN_CMD (R206). -/
abbrev chainCmd : Nat := 0x509001
/-- CHAIN_SWAP_STATE (R206). -/
abbrev chainSwapState : Nat := 0x509002
/-- CHAIN_ACTIVE_BANK (R206). -/
abbrev chainActiveBank : Nat := 0x509003
/-- CHAIN_RESULT (R206). -/
abbrev chainResult : Nat := 0x509004
/-- CHAIN_ERROR_STAGE (R206). -/
abbrev chainErrorStage : Nat := 0x509005
/-- CHAIN_SWAPS (R206). -/
abbrev chainSwaps : Nat := 0x509006
/-- REORDER_TIMEOUT (R214). -/
abbrev reorderTimeout (n : Nat) : Nat := key (0x5120 + n) 0x1
/-- REORDER_OCCUPANCY (R214). -/
abbrev reorderOccupancy (n : Nat) : Nat := key (0x5120 + n) 0x2
/-- REORDER_PEAK (R214). -/
abbrev reorderPeak (n : Nat) : Nat := key (0x5120 + n) 0x3
/-- REORDER_TIMEOUTS (R214). -/
abbrev reorderTimeouts (n : Nat) : Nat := key (0x5120 + n) 0x4
/-- LATE_DROPS (R214). -/
abbrev lateDrops (n : Nat) : Nat := key (0x5120 + n) 0x5
/-- LATE_PASSED (R214). -/
abbrev latePassed (n : Nat) : Nat := key (0x5120 + n) 0x6
/-- TRAP_RING (R217). -/
abbrev trapRing (n : Nat) : Nat := key (0x5300 + n) 0x1
/-- TRAP_TRUNCATE (R217). -/
abbrev trapTruncate (n : Nat) : Nat := key (0x5300 + n) 0x2
/-- TRAP_RATE (R217). -/
abbrev trapRate (n : Nat) : Nat := key (0x5300 + n) 0x3
/-- TRAP_BURST (R217). -/
abbrev trapBurst (n : Nat) : Nat := key (0x5300 + n) 0x4
/-- TRAP_PACKETS (R217). -/
abbrev trapPackets (n : Nat) : Nat := key (0x5300 + n) 0x5
/-- TRAP_DROPS (R217). -/
abbrev trapDrops (n : Nat) : Nat := key (0x5300 + n) 0x6
/-- SLICE_PACKETS (R222). -/
abbrev slicePackets (n : Nat) : Nat := key (0x5100 + n) 0x1
/-- DISPATCH_STALLS (R222). -/
abbrev dispatchStalls (n : Nat) : Nat := key (0x5100 + n) 0x2
/-- STORE_FULL_DROPS (R222). -/
abbrev storeFullDrops (n : Nat) : Nat := key (0x5100 + n) 0x3
/-- HOST_INJECTED (R222). -/
abbrev hostInjected (n : Nat) : Nat := key (0x5100 + n) 0x4
/-- TRAPPED (R222). -/
abbrev trapped (n : Nat) : Nat := key (0x5100 + n) 0x5
/-- ENGINE_DROPS (R222). -/
abbrev engineDrops (n : Nat) : Nat := key (0x5100 + n) 0x6
/-- DEFAULTED (R222). -/
abbrev defaulted (n : Nat) : Nat := key (0x5100 + n) 0x7
/-- EGRESS_MISROUTE (R222). -/
abbrev egressMisroute (n : Nat) : Nat := key (0x5100 + n) 0x8
/-- PROF_CMD (R235). -/
abbrev profCmd : Nat := 0x542001
/-- PROF_DATA (R235). -/
abbrev profData : Nat := 0x542002
/-- PROF_RESULT (R235). -/
abbrev profResult : Nat := 0x542003
/-- PROF_PASSES (R235). -/
abbrev profPasses : Nat := 0x542004
/-- PROF_ISSUE_CYCLES (R235). -/
abbrev profIssueCycles : Nat := 0x542005
/-- PROF_RESIDENCE (R235). -/
abbrev profResidence : Nat := 0x542006
/-- ACTIVE_CATALOGUE (R235). -/
abbrev activeCatalogue : Nat := 0x544001
/-- IDLE_CATALOGUE (R235). -/
abbrev idleCatalogue : Nat := 0x544002
/-- STAGED_CATALOGUE (R235). -/
abbrev stagedCatalogue : Nat := 0x544003
/-- RESIDENCE_LIMIT (R239). -/
abbrev residenceLimit : Nat := 0x540001
/-- CLUSTERS_IN_SERVICE (R239). -/
abbrev clustersInService : Nat := 0x540002
/-- EXC_ACTION (R239). -/
abbrev excAction (n : Nat) : Nat := key (0x5430 + n) 0x1
/-- EXC_TRAP_CODE (R239). -/
abbrev excTrapCode (n : Nat) : Nat := key (0x5430 + n) 0x2
/-- EXC_COUNT (R239). -/
abbrev excCount (n : Nat) : Nat := key (0x5430 + n) 0x3
/-- MCODE_CMD (R248). -/
abbrev mcodeCmd : Nat := 0x541001
/-- MCODE_STATE (R248). -/
abbrev mcodeState : Nat := 0x541002
/-- MCODE_RESULT (R248). -/
abbrev mcodeResult : Nat := 0x541003
/-- ACTIVE_VERSION (R248). -/
abbrev activeVersion : Nat := 0x541004
/-- IDLE_VERSION (R248). -/
abbrev idleVersion : Nat := 0x541005
/-- STAGED_VERSION (R248). -/
abbrev stagedVersion : Nat := 0x541006
/-- MCODE_ERROR_PROFILE (R248). -/
abbrev mcodeErrorProfile : Nat := 0x541007
/-- MCODE_SWITCHES (R248). -/
abbrev mcodeSwitches : Nat := 0x541008
/-- LAST_SWITCH_TIME (R248). -/
abbrev lastSwitchTime : Nat := 0x541009
/-- CLUSTER_STATE (R250). -/
abbrev clusterState (n : Nat) : Nat := key (0x5500 + n) 0x1
/-- CLUSTER_BANK (R250). -/
abbrev clusterBank (n : Nat) : Nat := key (0x5500 + n) 0x2
/-- PASSES (R250). -/
abbrev clusterPasses (n : Nat) : Nat := key (0x5500 + n) 0x3
/-- ISSUE_CYCLES (R250). -/
abbrev issueCycles (n : Nat) : Nat := key (0x5500 + n) 0x4
/-- RESIDENCE_CYCLES (R250). -/
abbrev residenceCycles (n : Nat) : Nat := key (0x5500 + n) 0x5
/-- THREADS_BUSY_PEAK (R250). -/
abbrev threadsBusyPeak (n : Nat) : Nat := key (0x5500 + n) 0x6
/-- EXCEPTIONS (R250). -/
abbrev clusterExceptions (n : Nat) : Nat := key (0x5500 + n) 0x7
/-- PARITY_REPAIRS (R250). -/
abbrev parityRepairs (n : Nat) : Nat := key (0x5500 + n) 0x8
/-- KEY_WIDTH (R259). -/
abbrev keyWidth (n : Nat) : Nat := key (0x6060 + n) 0x1
/-- SUB_ENTRIES (R259). -/
abbrev subEntries (n : Nat) : Nat := key (0x6060 + n) 0x2
/-- TBL_CMD (R261). -/
abbrev tblCmd (n : Nat) : Nat := key (0x6100 + n) 0x1
/-- TBL_KEY (R261). -/
abbrev tblKey (n : Nat) : Nat := key (0x6100 + n) 0x2
/-- TBL_DATA (R261). -/
abbrev tblData (n : Nat) : Nat := key (0x6100 + n) 0x3
/-- TBL_STATUS (R261). -/
abbrev tblStatus (n : Nat) : Nat := key (0x6100 + n) 0x4
/-- TBL_FOUND (R261). -/
abbrev tblFound (n : Nat) : Nat := key (0x6100 + n) 0x5
/-- TBL_LEN (R261). -/
abbrev tblLen (n : Nat) : Nat := key (0x6100 + n) 0x6
/-- TBL_CURSOR (R261). -/
abbrev tblCursor (n : Nat) : Nat := key (0x6100 + n) 0x7
/-- TBL_USED (R261). -/
abbrev tblUsed (n : Nat) : Nat := key (0x6100 + n) 0x8
/-- TBL_PARITY_MISSES (R261). -/
abbrev tblParityMisses (n : Nat) : Nat := key (0x6100 + n) 0x9
/-- TBL_INDEX_STATE (R261). -/
abbrev tblIndexState (n : Nat) : Nat := key (0x6100 + n) 0xA
/-- EPOCH (R273). -/
abbrev epoch : Nat := 0x600001
/-- EPOCH_PERIOD (R273). -/
abbrev epochPeriod : Nat := 0x600002
/-- OLDEST_UNDRAINED (R273). -/
abbrev oldestUndrained : Nat := 0x600003
/-- RETIRING_COUNT (R273). -/
abbrev retiringCount : Nat := 0x600004
/-- INDEXES_FREED (R273). -/
abbrev indexesFreed : Nat := 0x600005
/-- LEARN_MODE (R277). -/
abbrev learnMode (n : Nat) : Nat := key (0x6200 + n) 0x1
/-- LEARN_DATA (R277). -/
abbrev learnData (n : Nat) : Nat := key (0x6200 + n) 0x2
/-- LEARNED (R277). -/
abbrev spLearned (n : Nat) : Nat := key (0x6200 + n) 0x3
/-- MOVED_IN (R277). -/
abbrev movedIn (n : Nat) : Nat := key (0x6200 + n) 0x4
/-- HALF_ENTRIES (R278). -/
abbrev halfEntries (n : Nat) : Nat := key (0x6040 + n) 0x1
/-- LEARN_QUEUE_DEPTH (R278). -/
abbrev learnQueueDepth (n : Nat) : Nat := key (0x6040 + n) 0x2
/-- LEARN_DROPS (R278). -/
abbrev learnDrops (n : Nat) : Nat := key (0x6040 + n) 0x3
/-- LEARNS (R278). -/
abbrev halfLearns (n : Nat) : Nat := key (0x6040 + n) 0x4
/-- MOVES (R278). -/
abbrev halfMoves (n : Nat) : Nat := key (0x6040 + n) 0x5
/-- STATIC_MISMATCHES (R278). -/
abbrev staticMismatches (n : Nat) : Nat := key (0x6040 + n) 0x6
/-- LEARN_TABLE_FULL (R278). -/
abbrev learnTableFull (n : Nat) : Nat := key (0x6040 + n) 0x7
/-- LEARN_SUPERSEDED (R278). -/
abbrev learnSuperseded (n : Nat) : Nat := key (0x6040 + n) 0x8
/-- LEARN_EVENTS (R278). -/
abbrev learnEvents (n : Nat) : Nat := key (0x6040 + n) 0x9
/-- BRIDGE_AGE_PERIOD (R282). -/
abbrev bridgeAgePeriod : Nat := 0x605001
/-- EXACT_AGE_PERIOD (R282). -/
abbrev exactAgePeriod : Nat := 0x605002
/-- AGED_HALF0 (R282). -/
abbrev agedHalf0 : Nat := 0x605003
/-- AGED_HALF1 (R282). -/
abbrev agedHalf1 : Nat := 0x605004
/-- AGED_EXACT (R282). -/
abbrev agedExact : Nat := 0x605005
/-- AGE_EVENTS (R282). -/
abbrev ageEvents : Nat := 0x605006
/-- FLUSH_BUSY (R282). -/
abbrev flushBusy : Nat := 0x605007
/-- SWEEPS (R282). -/
abbrev ageSweeps : Nat := 0x605008
/-- WIDTH (R289). -/
abbrev ascWidth (n : Nat) : Nat := key (0x6810 + n) 0x1
/-- FIRST_SLICE (R289). -/
abbrev firstSlice (n : Nat) : Nat := key (0x6810 + n) 0x2
/-- GROUPS (R289). -/
abbrev ascGroups (n : Nat) : Nat := key (0x6810 + n) 0x3
/-- REPLICAS (R289). -/
abbrev ascReplicas (n : Nat) : Nat := key (0x6810 + n) 0x4
/-- HOLE_INTERVAL (R289). -/
abbrev holeInterval (n : Nat) : Nat := key (0x6810 + n) 0x5
/-- ROWS (R289). -/
abbrev ascRows (n : Nat) : Nat := key (0x6810 + n) 0x6
/-- CAPACITY (R289). -/
abbrev ascCapacity (n : Nat) : Nat := key (0x6810 + n) 0x7
/-- ENTRIES (R289). -/
abbrev ascEntries (n : Nat) : Nat := key (0x6810 + n) 0x8
/-- INSERTS (R289). -/
abbrev ascInserts (n : Nat) : Nat := key (0x6810 + n) 0x9
/-- DELETES (R289). -/
abbrev ascDeletes (n : Nat) : Nat := key (0x6810 + n) 0xA
/-- MOVE_WRITES (R289). -/
abbrev moveWrites (n : Nat) : Nat := key (0x6810 + n) 0xB
/-- RESPACE_WRITES (R289). -/
abbrev respaceWrites (n : Nat) : Nat := key (0x6810 + n) 0xC
/-- SEARCHES (R289). -/
abbrev ascSearches (n : Nat) : Nat := key (0x6810 + n) 0xD
/-- HITS (R289). -/
abbrev ascHits (n : Nat) : Nat := key (0x6810 + n) 0xE
/-- SEARCH_WAITS (R289). -/
abbrev searchWaits (n : Nat) : Nat := key (0x6810 + n) 0xF
/-- PARITY_REMOVED (R289). -/
abbrev parityRemoved (n : Nat) : Nat := key (0x6810 + n) 0x10
/-- UPDATE_SPACING (R303). -/
abbrev updateSpacing : Nat := 0x680001
/-- SLICES_IN_USE (R303). -/
abbrev slicesInUse : Nat := 0x680002
/-- ASSOC_ERROR_TABLE (R303). -/
abbrev assocErrorTable : Nat := 0x680003
/-- SCRUB_PASSES (R303). -/
abbrev scrubPasses : Nat := 0x680004
/-- ASC_CMD (R304). -/
abbrev ascCmd : Nat := 0x688001
/-- ASC_VALUE (R304). -/
abbrev ascValue : Nat := 0x688002
/-- ASC_MASK (R304). -/
abbrev ascMask : Nat := 0x688003
/-- ASC_PRIORITY (R304). -/
abbrev ascPriority : Nat := 0x688004
/-- ASC_TAG (R304). -/
abbrev ascTag : Nat := 0x688005
/-- ASC_ROW (R304). -/
abbrev ascRow : Nat := 0x688006
/-- ASC_STATUS (R304). -/
abbrev ascStatus : Nat := 0x688007
/-- ASC_FOUND (R304). -/
abbrev ascFound : Nat := 0x688008
/-- ASC_WRITES (R304). -/
abbrev ascWrites : Nat := 0x688009
/-- SLICE_TABLE (R310). -/
abbrev sliceTable (n : Nat) : Nat := key (0x6840 + n) 0x1
/-- SLICE_REPLICA (R310). -/
abbrev sliceReplica (n : Nat) : Nat := key (0x6840 + n) 0x2
/-- SLICE_SEARCH_SLOTS (R310). -/
abbrev sliceSearchSlots (n : Nat) : Nat := key (0x6840 + n) 0x3
/-- SLICE_UPDATE_SLOTS (R310). -/
abbrev sliceUpdateSlots (n : Nat) : Nat := key (0x6840 + n) 0x4
/-- SLICE_HOLES (R310). -/
abbrev sliceHoles (n : Nat) : Nat := key (0x6840 + n) 0x5
/-- QBUF_CMD (R316). -/
abbrev qbufCmd : Nat := 0x701001
/-- QBUF_QUEUE (R316). -/
abbrev qbufQueue : Nat := 0x701002
/-- QBUF_DATA (R316). -/
abbrev qbufData : Nat := 0x701003
/-- QBUF_RESULT (R316). -/
abbrev qbufResult : Nat := 0x701004
/-- QBUF_STATE (R316). -/
abbrev qbufState : Nat := 0x701005
/-- QBUF_ONCHIP (R316). -/
abbrev qbufOnchip : Nat := 0x701006
/-- QBUF_SEGMENTS (R316). -/
abbrev qbufSegments : Nat := 0x701007
/-- QBUF_AVG (R316). -/
abbrev qbufAvg : Nat := 0x701008
/-- SPILL_THRESHOLD (R327). -/
abbrev spillThreshold (n : Nat) : Nat := key (0x7100 + n) 0x1
/-- REFILL_TARGET (R327). -/
abbrev refillTarget (n : Nat) : Nat := key (0x7100 + n) 0x2
/-- HBM_LIMIT (R327). -/
abbrev hbmLimit (n : Nat) : Nat := key (0x7100 + n) 0x3
/-- QUEUE_LIMIT (R327). -/
abbrev queueLimit (n : Nat) : Nat := key (0x7100 + n) 0x4
/-- QUEUE_LIMIT_DROPS (R327). -/
abbrev queueLimitDrops (n : Nat) : Nat := key (0x7100 + n) 0x5
/-- SEGMENTS_WRITTEN (R327). -/
abbrev segmentsWritten (n : Nat) : Nat := key (0x7100 + n) 0x6
/-- SEGMENTS_READ (R327). -/
abbrev segmentsRead (n : Nat) : Nat := key (0x7100 + n) 0x7
/-- SPILL_BLOCKED (R327). -/
abbrev spillBlocked (n : Nat) : Nat := key (0x7100 + n) 0x8
/-- REFILL_STALLS (R327). -/
abbrev refillStalls (n : Nat) : Nat := key (0x7100 + n) 0x9
/-- SHARED_FREE (R328). -/
abbrev sharedFree : Nat := 0x700001
/-- SEGMENTS_FREE (R328). -/
abbrev segmentsFree : Nat := 0x700002
/-- PIN_BREAK_FREE (R328). -/
abbrev pinBreakFree : Nat := 0x700003
/-- HBM_READ_SHARE (R328). -/
abbrev hbmReadShare : Nat := 0x700004
/-- UNATTACHED_DROPS (R328). -/
abbrev unattachedDrops : Nat := 0x700005
/-- BUFFER_FULL_DROPS (R328). -/
abbrev bufferFullDrops : Nat := 0x700006
/-- ECC_CORRECTED (R328). -/
abbrev eccCorrected : Nat := 0x700007
/-- ECC_DROPS (R328). -/
abbrev eccDrops : Nat := 0x700008
/-- SEGMENTS_LOST (R328). -/
abbrev segmentsLost : Nat := 0x700009
/-- PACKETS_LOST (R328). -/
abbrev packetsLost : Nat := 0x70000A
/-- STOPPED_DROPS (R328). -/
abbrev stoppedDrops : Nat := 0x70000B
/-- EWMA_WEIGHT (R333). -/
abbrev ewmaWeight (n : Nat) : Nat := key (0x7500 + n) 0x1
/-- ECN_ENABLE (R333). -/
abbrev ecnEnable (n : Nat) : Nat := key (0x7500 + n) 0x2
/-- GREEN_MIN (R333). -/
abbrev greenMin (n : Nat) : Nat := key (0x7500 + n) 0x3
/-- GREEN_MAX (R333). -/
abbrev greenMax (n : Nat) : Nat := key (0x7500 + n) 0x4
/-- GREEN_MAX_P (R333). -/
abbrev greenMaxP (n : Nat) : Nat := key (0x7500 + n) 0x5
/-- YELLOW_MIN (R333). -/
abbrev yellowMin (n : Nat) : Nat := key (0x7500 + n) 0x6
/-- YELLOW_MAX (R333). -/
abbrev yellowMax (n : Nat) : Nat := key (0x7500 + n) 0x7
/-- YELLOW_MAX_P (R333). -/
abbrev yellowMaxP (n : Nat) : Nat := key (0x7500 + n) 0x8
/-- RED_MIN (R333). -/
abbrev redMin (n : Nat) : Nat := key (0x7500 + n) 0x9
/-- RED_MAX (R333). -/
abbrev redMax (n : Nat) : Nat := key (0x7500 + n) 0xA
/-- RED_MAX_P (R333). -/
abbrev redMaxP (n : Nat) : Nat := key (0x7500 + n) 0xB
/-- GREEN_DROPS (R333). -/
abbrev greenDrops (n : Nat) : Nat := key (0x7500 + n) 0xC
/-- YELLOW_DROPS (R333). -/
abbrev yellowDrops (n : Nat) : Nat := key (0x7500 + n) 0xD
/-- RED_DROPS (R333). -/
abbrev redDrops (n : Nat) : Nat := key (0x7500 + n) 0xE
/-- ECN_MARKS (R333). -/
abbrev ecnMarks (n : Nat) : Nat := key (0x7500 + n) 0xF
/-- POOL_SIZE (R337). -/
abbrev poolSize (n : Nat) : Nat := key (0x7200 + n) 0x1
/-- POOL_COUNT (R337). -/
abbrev poolCount (n : Nat) : Nat := key (0x7200 + n) 0x2
/-- POOL_BASE (R337). -/
abbrev poolBase (n : Nat) : Nat := key (0x7200 + n) 0x3
/-- POOL_FREE (R337). -/
abbrev poolFree (n : Nat) : Nat := key (0x7200 + n) 0x4
/-- POOL_LOW (R337). -/
abbrev poolLow (n : Nat) : Nat := key (0x7200 + n) 0x5
/-- ALLOC_FAILS (R337). -/
abbrev allocFails (n : Nat) : Nat := key (0x7200 + n) 0x6
/-- BPM_CMD (R338). -/
abbrev bpmCmd : Nat := 0x721001
/-- BPM_HANDLE (R338). -/
abbrev bpmHandle : Nat := 0x721002
/-- BPM_RESULT (R338). -/
abbrev bpmResult : Nat := 0x721003
/-- RANGE_REJECTS (R338). -/
abbrev rangeRejects : Nat := 0x721004
/-- ALIGN_REJECTS (R338). -/
abbrev alignRejects : Nat := 0x721005
/-- STALE_REJECTS (R338). -/
abbrev staleRejects : Nat := 0x721006
/-- DOUBLE_FREES (R338). -/
abbrev doubleFrees : Nat := 0x721007
/-- STALE_REFS (R338). -/
abbrev staleRefs : Nat := 0x721008
/-- RESEQ_TIMEOUT (R345). -/
abbrev reseqTimeout : Nat := 0x740001
/-- CORE_CELLS_LOST (R345). -/
abbrev coreCellsLost : Nat := 0x740002
/-- CORE_PACKETS_LOST (R345). -/
abbrev corePacketsLost : Nat := 0x740003
/-- CORE_MISROUTES (R345). -/
abbrev coreMisroutes : Nat := 0x740004
/-- MIDDLE_VOQ_LIMIT (R345). -/
abbrev middleVoqLimit : Nat := 0x740005
/-- IN_CELLS (R345). -/
abbrev inCells (n : Nat) : Nat := key (0x7410 + n) 0x1
/-- IN_BLOCKED_SLOTS (R345). -/
abbrev inBlockedSlots (n : Nat) : Nat := key (0x7410 + n) 0x2
/-- IN_FILL_BYTES (R345). -/
abbrev inFillBytes (n : Nat) : Nat := key (0x7410 + n) 0x3
/-- OUT_CELLS (R345). -/
abbrev outCells (n : Nat) : Nat := key (0x7420 + n) 0x1
/-- WITHHELD_ROUNDS (R345). -/
abbrev withheldRounds (n : Nat) : Nat := key (0x7420 + n) 0x2
/-- RESEQ_OCCUPANCY (R345). -/
abbrev reseqOccupancy (n : Nat) : Nat := key (0x7420 + n) 0x3
/-- RESEQ_PEAK (R345). -/
abbrev reseqPeak (n : Nat) : Nat := key (0x7420 + n) 0x4
/-- LT_MODE (R349). -/
abbrev ltMode (n : Nat) : Nat := key (0x7600 + n) 0x1
/-- LT_SAMPLE_N (R349). -/
abbrev ltSampleN (n : Nat) : Nat := key (0x7600 + n) 0x2
/-- LT_RING (R349). -/
abbrev ltRing (n : Nat) : Nat := key (0x7600 + n) 0x3
/-- LT_RATE (R349). -/
abbrev ltRate (n : Nat) : Nat := key (0x7600 + n) 0x4
/-- LT_BURST (R349). -/
abbrev ltBurst (n : Nat) : Nat := key (0x7600 + n) 0x5
/-- LT_CAPTURED (R349). -/
abbrev ltCaptured (n : Nat) : Nat := key (0x7600 + n) 0x6
/-- LT_DROPS (R349). -/
abbrev ltDrops (n : Nat) : Nat := key (0x7600 + n) 0x7
/-- LT_FLUSH_TIME (R349). -/
abbrev ltFlushTime : Nat := 0x770001
/-- NODE_CMD (R359). Log entry 59 (DEDUCED and DESIGN CHOICE). -/
abbrev nodeCmd : Nat := 0x781001
/-- NODE_NUMBER (R359). -/
abbrev nodeNumber : Nat := 0x781002
/-- NODE_DATA (R359). -/
abbrev nodeData : Nat := 0x781003
/-- NODE_RESULT (R359). -/
abbrev nodeResult : Nat := 0x781004
/-- NODE_STATUS (R359). -/
abbrev nodeStatus : Nat := 0x781005
/-- NODE_DEFICIT (R359). -/
abbrev nodeDeficit : Nat := 0x781006
/-- NODE_CBAL (R359). -/
abbrev nodeCbal : Nat := 0x781007
/-- NODE_PBAL (R359). -/
abbrev nodePbal : Nat := 0x781008
/-- NODE_FLAGS (R359). -/
abbrev nodeFlags : Nat := 0x781009
/-- NODE_CHILDREN (R359). -/
abbrev nodeChildren : Nat := 0x78100A
/-- SHAPE_CMD (R365). -/
abbrev shapeCmd : Nat := 0x782001
/-- SHAPE_CIR (R365). -/
abbrev shapeCir : Nat := 0x782002
/-- SHAPE_CBS (R365). -/
abbrev shapeCbs : Nat := 0x782003
/-- SHAPE_PIR (R365). -/
abbrev shapePir : Nat := 0x782004
/-- SHAPE_PBS (R365). -/
abbrev shapePbs : Nat := 0x782005
/-- SHAPE_LEN_ADJ (R365). -/
abbrev shapeLenAdj : Nat := 0x782006
/-- SHAPE_RESULT (R365). -/
abbrev shapeResult : Nat := 0x782007
/-- SHAPE_USERS (R365). -/
abbrev shapeUsers : Nat := 0x782008
/-- IQ_BASE (R370). -/
abbrev iqBase : Nat := 0x780001
/-- IQ_DEVICES (R370). -/
abbrev iqDevices : Nat := 0x780002
/-- QUANTUM (R370). -/
abbrev schedQuantum : Nat := 0x780003
/-- PORT_INFLIGHT (R370). -/
abbrev portInflight : Nat := 0x780004
/-- FAIR_WINDOW (R370). -/
abbrev fairWindow : Nat := 0x780005
/-- RESERVE_LIMIT (R370). -/
abbrev reserveLimit : Nat := 0x780006
/-- RESERVED_CELLS (R370). -/
abbrev reservedCells : Nat := 0x780007
/-- IQ_RANGE_DROPS (R370). -/
abbrev iqRangeDrops : Nat := 0x780008
/-- COMMIT_BREAKS (R370). -/
abbrev commitBreaks : Nat := 0x780009
/-- PIN_BREAKS (R370). -/
abbrev pinBreaks : Nat := 0x78000A
/-- FAIR_BREAKS (R370). -/
abbrev fairBreaks : Nat := 0x78000B
/-- SCHED_ERROR_NODE (R370). -/
abbrev schedErrorNode : Nat := 0x78000C
/-- RESERVE_CELLS1–15 (R370). -/
abbrev reserveCells (j : Nat) : Nat := key 0x7801 j
/-- SCHED_PACKETS (R370). -/
abbrev schedPackets (n : Nat) : Nat := key (0x7840 + n) 0x1
/-- SCHED_BYTES (R370). -/
abbrev schedBytes (n : Nat) : Nat := key (0x7840 + n) 0x2
/-- SCHED_IDLE_CYCLES (R370). -/
abbrev schedIdleCycles (n : Nat) : Nat := key (0x7840 + n) 0x3
/-- SCHED_HELD_CYCLES (R370). -/
abbrev schedHeldCycles (n : Nat) : Nat := key (0x7840 + n) 0x4
/-- POL_GREEN (R376). -/
abbrev polGreen : Nat := 0x7C0001
/-- POL_YELLOW (R376). -/
abbrev polYellow : Nat := 0x7C0002
/-- POL_RED (R376). -/
abbrev polRed : Nat := 0x7C0003
/-- POL_RED_DROPS (R376). -/
abbrev polRedDrops : Nat := 0x7C0004
/-- POL_EXT_BYPASS (R376). -/
abbrev polExtBypass : Nat := 0x7C0005
/-- POL_EXT_STALLS (R376). -/
abbrev polExtStalls : Nat := 0x7C0006
/-- POL_CMD (R376). -/
abbrev polCmd : Nat := 0x7C1001
/-- POL_PROFILE (R376). -/
abbrev polProfile : Nat := 0x7C1002
/-- POL_CBAL (R376). -/
abbrev polCbal : Nat := 0x7C1003
/-- POL_PBAL (R376). -/
abbrev polPbal : Nat := 0x7C1004
/-- POL_RESULT (R376). -/
abbrev polResult : Nat := 0x7C1005
/-- PPROF_CMD (R377). -/
abbrev pprofCmd : Nat := 0x7C2001
/-- PPROF_MODE (R377). -/
abbrev pprofMode : Nat := 0x7C2002
/-- PPROF_AWARE (R377). -/
abbrev pprofAware : Nat := 0x7C2003
/-- PPROF_COUPLED (R377). -/
abbrev pprofCoupled : Nat := 0x7C2004
/-- PPROF_CIR (R377). -/
abbrev pprofCir : Nat := 0x7C2005
/-- PPROF_CBS (R377). -/
abbrev pprofCbs : Nat := 0x7C2006
/-- PPROF_PIR (R377). -/
abbrev pprofPir : Nat := 0x7C2007
/-- PPROF_PBS (R377). -/
abbrev pprofPbs : Nat := 0x7C2008
/-- PPROF_LEN_ADJ (R377). -/
abbrev pprofLenAdj : Nat := 0x7C2009
/-- PPROF_RED_ACTION (R377). -/
abbrev pprofRedAction : Nat := 0x7C200A
/-- PPROF_RESULT (R377). -/
abbrev pprofResult : Nat := 0x7C200B
/-- MY_DEVICE (R402). -/
abbrev myDevice : Nat := 0x800001
/-- FAB_RESEQ_TIMEOUT (R402). -/
abbrev fabReseqTimeout : Nat := 0x800002
/-- FAB_CLOSE_TIME (R402). -/
abbrev fabCloseTime : Nat := 0x800003
/-- FAB_WTR (R402). -/
abbrev fabWtr : Nat := 0x800004
/-- XOFF_CELLS (R402). -/
abbrev xoffCells : Nat := 0x800005
/-- XON_CELLS (R402). -/
abbrev xonCells : Nat := 0x800006
/-- SPRAY_PLANES (R402). -/
abbrev sprayPlanes : Nat := 0x800007
/-- PLANE_STATE (R403). -/
abbrev planeState (n : Nat) : Nat := key (0x8010 + n) 0x1
/-- PLANE_ADMIN (R403). -/
abbrev planeAdmin (n : Nat) : Nat := key (0x8010 + n) 0x2
/-- WATCH_MODE (R403). -/
abbrev watchMode (n : Nat) : Nat := key (0x8010 + n) 0x3
/-- PATHS (R403). -/
abbrev planePaths (n : Nat) : Nat := key (0x8010 + n) 0x4
/-- INBAND_MISSES (R403). -/
abbrev inbandMisses (n : Nat) : Nat := key (0x8010 + n) 0x5
/-- SIDEBAND_MISSES (R403). -/
abbrev sidebandMisses (n : Nat) : Nat := key (0x8010 + n) 0x6
/-- PLANE_FAILURES (R403). -/
abbrev planeFailures (n : Nat) : Nat := key (0x8010 + n) 0x7
/-- CELLS_DISCARDED (R403). -/
abbrev cellsDiscarded (n : Nat) : Nat := key (0x8010 + n) 0x8
/-- WTR_LEFT (R403). -/
abbrev planeWtrLeft (n : Nat) : Nat := key (0x8010 + n) 0x9
/-- BEACON_MISMATCHES (R403). -/
abbrev beaconMismatches (n : Nat) : Nat := key (0x8010 + n) 0xA
/-- LAST_FAIL_TIME (R403). -/
abbrev lastFailTime (n : Nat) : Nat := key (0x8010 + n) 0xB
/-- TX_CELLS (R404). -/
abbrev txCells (n : Nat) : Nat := key (0x8020 + n) 0x1
/-- TX_FILL_BYTES (R404). -/
abbrev txFillBytes (n : Nat) : Nat := key (0x8020 + n) 0x2
/-- RX_CELLS (R404). -/
abbrev rxCells (n : Nat) : Nat := key (0x8020 + n) 0x3
/-- RX_CRC_ERRORS (R404). -/
abbrev rxCrcErrors (n : Nat) : Nat := key (0x8020 + n) 0x4
/-- RX_DISCARDS (R404). -/
abbrev rxDiscards (n : Nat) : Nat := key (0x8020 + n) 0x5
/-- RESEQ_LOST (R404). -/
abbrev reseqLost (n : Nat) : Nat := key (0x8020 + n) 0x6
/-- LATE_CELLS (R404). -/
abbrev lateCells (n : Nat) : Nat := key (0x8020 + n) 0x7
/-- RX_PACKETS (R404). -/
abbrev rxPackets (n : Nat) : Nat := key (0x8020 + n) 0x8
/-- RX_PACKETS_LOST (R404). -/
abbrev rxPacketsLost (n : Nat) : Nat := key (0x8020 + n) 0x9
/-- REASM_OCCUPANCY (R404). -/
abbrev reasmOccupancy (n : Nat) : Nat := key (0x8020 + n) 0xA
/-- REASM_OVERFLOWS (R404). -/
abbrev reasmOverflows (n : Nat) : Nat := key (0x8020 + n) 0xB
/-- XOFF_SENT_CYCLES (R404). -/
abbrev xoffSentCycles (n : Nat) : Nat := key (0x8020 + n) 0xC
/-- XOFF_RECEIVED_CYCLES (R404). -/
abbrev xoffReceivedCycles (n : Nat) : Nat := key (0x8020 + n) 0xD
/-- STREAM_RESYNCS (R404). -/
abbrev streamResyncs (n : Nat) : Nat := key (0x8020 + n) 0xE
/-- PROT_PREFERRED (R418). -/
abbrev protPreferred : Nat := 0x880001
/-- PROT_WTR (R418). -/
abbrev protWtr : Nat := 0x880002
/-- START_WTR (R418). -/
abbrev startWtr : Nat := 0x880003
/-- READY (R418). -/
abbrev protReady : Nat := 0x880004
/-- READY_CAUSES (R418). -/
abbrev readyCauses : Nat := 0x880005
/-- WAITING (R418). -/
abbrev protWaiting : Nat := 0x880006
/-- WTR_LEFT (R418). -/
abbrev protWtrLeft : Nat := 0x880007
/-- KEEP_GRANT_LEVEL (R418). -/
abbrev keepGrantLevel : Nat := 0x880008
/-- KEEP_STATE_LEVEL (R418). -/
abbrev keepStateLevel : Nat := 0x880009
/-- GRANT_GLITCHES (R418). -/
abbrev grantGlitches : Nat := 0x88000A
/-- RELINQUISHES (R418). -/
abbrev relinquishes : Nat := 0x88000B
/-- RELINQUISH (R418). -/
abbrev protRelinquish : Nat := 0x88000C
/-- MIN_CLUSTERS (R418). -/
abbrev minClusters : Nat := 0x88000D
/-- GAP_IDLE (R418). -/
abbrev gapIdle : Nat := 0x88000E
/-- PROT_MODE (R419). -/
abbrev protMode (n : Nat) : Nat := key (0x8820 + n) 0x1
/-- STANDBY_TX (R419). -/
abbrev standbyTx (n : Nat) : Nat := key (0x8820 + n) 0x2
/-- ROLE (R419). -/
abbrev protRole (n : Nat) : Nat := key (0x8820 + n) 0x3
/-- ROLE_CMD (R419). -/
abbrev roleCmd (n : Nat) : Nat := key (0x8820 + n) 0x4
/-- PORT_SF (R419). -/
abbrev portSf (n : Nat) : Nat := key (0x8820 + n) 0x5
/-- PORT_SD (R419). -/
abbrev portSd (n : Nat) : Nat := key (0x8820 + n) 0x6
/-- STBY_RX_FRAMES (R419). -/
abbrev stbyRxFrames (n : Nat) : Nat := key (0x8820 + n) 0x7
/-- STBY_TX_DISCARDS (R419). -/
abbrev stbyTxDiscards (n : Nat) : Nat := key (0x8820 + n) 0x8
/-- ABORTED_FRAMES (R419). -/
abbrev abortedFrames (n : Nat) : Nat := key (0x8820 + n) 0x9
/-- PORT_SWITCHOVERS (R419). -/
abbrev portSwitchovers (n : Nat) : Nat := key (0x8820 + n) 0xA
/-- LAST_GAP (R419). -/
abbrev lastGap (n : Nat) : Nat := key (0x8820 + n) 0xB
/-- CHANNELS_IN_SERVICE (R437). -/
abbrev channelsInService : Nat := 0x900001
/-- SCRUB_INTERVAL (R437). -/
abbrev scrubInterval : Nat := 0x900002
/-- HBM_REFINE (R437). -/
abbrev hbmRefine : Nat := 0x900003
/-- HBM_EYE_MIN (R437). -/
abbrev hbmEyeMin : Nat := 0x900004
/-- HBM_TEMP_CRIT (R437). -/
abbrev hbmTempCrit : Nat := 0x900005
/-- HBM_TRACK_PERIOD (R437). -/
abbrev hbmTrackPeriod : Nat := 0x900006
/-- HBM_FREEZES (R437). -/
abbrev hbmFreezes : Nat := 0x900007
/-- STACK_TEMP (R437). -/
abbrev stackTemp (n : Nat) : Nat := key (0x9010 + n) 0x1
/-- STACK_HOT (R437). -/
abbrev stackHot (n : Nat) : Nat := key (0x9010 + n) 0x2
/-- STACK_REFRESH_X2 (R437). -/
abbrev stackRefreshX2 (n : Nat) : Nat := key (0x9010 + n) 0x3
/-- CH_STATE (R438). -/
abbrev chState (n : Nat) : Nat := key (0x9100 + n) 0x1
/-- CH_CMD (R438). -/
abbrev chCmd (n : Nat) : Nat := key (0x9100 + n) 0x2
/-- CH_RESULT (R438). -/
abbrev chResult (n : Nat) : Nat := key (0x9100 + n) 0x3
/-- CH_SEGMENTS_USED (R438). -/
abbrev chSegmentsUsed (n : Nat) : Nat := key (0x9100 + n) 0x4
/-- CH_CE (R438). -/
abbrev chCe (n : Nat) : Nat := key (0x9100 + n) 0x5
/-- CH_FREEZE_CAUSE (R438). -/
abbrev chFreezeCause (n : Nat) : Nat := key (0x9100 + n) 0x6
/-- CH_SEGMENTS_LOST (R438). -/
abbrev chSegmentsLost (n : Nat) : Nat := key (0x9100 + n) 0x7
/-- CH_CAPTURE (R438). -/
abbrev chCapture (n : Nat) : Nat := key (0x9100 + n) 0x8
/-- CH_DELAYS (R438). -/
abbrev chDelays (n : Nat) : Nat := key (0x9100 + n) 0x9
/-- CH_EYES (R438). -/
abbrev chEyes (n : Nat) : Nat := key (0x9100 + n) 0xA
/-- CH_EYE_MIN (R438). -/
abbrev chEyeMin (n : Nat) : Nat := key (0x9100 + n) 0xB
/-- PAT_CMD (R440). -/
abbrev patCmd : Nat := 0x920001
/-- PAT_KIND (R440). -/
abbrev patKind : Nat := 0x920002
/-- PAT_SEED (R440). -/
abbrev patSeed : Nat := 0x920003
/-- PAT_USER (R440). -/
abbrev patUser : Nat := 0x920004
/-- PAT_BURSTS (R440). -/
abbrev patBursts : Nat := 0x920005
/-- PAT_SWEEP (R440). -/
abbrev patSweep : Nat := 0x920006
/-- PAT_STATE (R440). -/
abbrev patState : Nat := 0x920007
/-- PAT_RESULT (R440). -/
abbrev patResult : Nat := 0x920008
/-- PAT_ERRORS (R440). -/
abbrev patErrors : Nat := 0x920009
/-- QDR_IF_ENABLE (R450). -/
abbrev qdrIfEnable : Nat := 0x940001
/-- QDR_EYE_MIN (R450). -/
abbrev qdrEyeMin : Nat := 0x940002
/-- QDR_ERROR_IF (R450). -/
abbrev qdrErrorIf : Nat := 0x940003
/-- QIF_STATE (R450). -/
abbrev qifState (n : Nat) : Nat := key (0x9410 + n) 0x1
/-- QIF_DENSITY (R450). -/
abbrev qifDensity (n : Nat) : Nat := key (0x9410 + n) 0x2
/-- QIF_ACCESSES (R450). -/
abbrev qifAccesses (n : Nat) : Nat := key (0x9410 + n) 0x3
/-- QIF_CE (R450). -/
abbrev qifCe (n : Nat) : Nat := key (0x9410 + n) 0x4
/-- QIF_UE (R450). -/
abbrev qifUe (n : Nat) : Nat := key (0x9410 + n) 0x5
/-- QIF_LAST_UE (R450). -/
abbrev qifLastUe (n : Nat) : Nat := key (0x9410 + n) 0x6
/-- QIF_AP_ERRORS (R450). -/
abbrev qifApErrors (n : Nat) : Nat := key (0x9410 + n) 0x7
/-- QIF_REPLAYS (R450). -/
abbrev qifReplays (n : Nat) : Nat := key (0x9410 + n) 0x8
/-- QIF_EYE_MIN (R450). -/
abbrev qifEyeMin (n : Nat) : Nat := key (0x9410 + n) 0x9
/-- FW_CMD (R470). -/
abbrev fwCmd : Nat := 0xA00001
/-- FW_STATE (R470). -/
abbrev fwState : Nat := 0xA00002
/-- FW_RESULT (R470). -/
abbrev fwResult : Nat := 0xA00003
/-- FW_KIND (R470). -/
abbrev fwKind : Nat := 0xA00004
/-- FW_LENGTH (R470). -/
abbrev fwLength : Nat := 0xA00005
/-- FW_RECEIVED (R470). -/
abbrev fwReceived : Nat := 0xA00006
/-- FW_TARGET_SLOT (R470). -/
abbrev fwTargetSlot : Nat := 0xA00007
/-- FW_VERIFY_ERROR (R470). -/
abbrev fwVerifyError : Nat := 0xA00008
/-- FW_IMAGE_VERSION (R470). -/
abbrev fwImageVersion : Nat := 0xA00009
/-- FW_BLOCK_REJECTS (R470). -/
abbrev fwBlockRejects : Nat := 0xA0000A
/-- FW_BLOCK (R470). -/
abbrev fwBlock : Nat := 0xA00101
/-- FW_BLOCK_OFFSET (R470). -/
abbrev fwBlockOffset : Nat := 0xA00102
/-- FW_BLOCK_LENGTH (R470). -/
abbrev fwBlockLength : Nat := 0xA00103
/-- FW_BLOCK_CRC (R470). -/
abbrev fwBlockCrc : Nat := 0xA00104
/-- BOOT_SLOT (R471). -/
abbrev bootSlot : Nat := 0xA00201
/-- BOOT_STATE (R471). -/
abbrev bootState : Nat := 0xA00202
/-- CONFIRM_WINDOW (R471). -/
abbrev confirmWindow : Nat := 0xA00203
/-- CONFIRM_LEFT (R471). -/
abbrev confirmLeft : Nat := 0xA00204
/-- MC_VERSION_A (R471). -/
abbrev mcVersionA : Nat := 0xA00205
/-- MC_VERSION_B (R471). -/
abbrev mcVersionB : Nat := 0xA00206
/-- ENG_VERSION_A (R471). -/
abbrev engVersionA : Nat := 0xA00207
/-- ENG_VERSION_B (R471). -/
abbrev engVersionB : Nat := 0xA00208
/-- ENG_BOOT_SLOT (R471). -/
abbrev engBootSlot : Nat := 0xA00209
/-- MC_SEC_FLOOR (R471). -/
abbrev mcSecFloor : Nat := 0xA0020A
/-- ENG_SEC_FLOOR (R471). -/
abbrev engSecFloor : Nat := 0xA0020B
/-- KEY_REVOKED (R471). -/
abbrev keyRevoked : Nat := 0xA0020C
/-- KEY_REVOKE (R471). -/
abbrev keyRevoke : Nat := 0xA0020D
/-- LAST_FALLBACK (R471). -/
abbrev lastFallback : Nat := 0xA0020E
/-- LAST_FALLBACK_VERSION (R471). -/
abbrev lastFallbackVersion : Nat := 0xA0020F
/-- SETTINGS_CMD (R471). -/
abbrev settingsCmd : Nat := 0xA00301
/-- SETTINGS_RESULT (R471). -/
abbrev settingsResult : Nat := 0xA00302
/-- SETTINGS_FORMAT (R471). -/
abbrev settingsFormat : Nat := 0xA00303
/-- SETTINGS_STORE (R471). -/
abbrev settingsStore : Nat := 0xA00304
/-- SETTINGS_LIST (R471). -/
abbrev settingsList : Nat := 0xA00305
/-- SETTINGS_SKIPPED (R471). -/
abbrev settingsSkipped : Nat := 0xA00306
/-- SETTINGS_ERROR_ENTRY (R471). -/
abbrev settingsErrorEntry : Nat := 0xA00307
/-- SETTINGS_SAVES (R471). -/
abbrev settingsSaves : Nat := 0xA00308
/-- PERF_CMD (R489). -/
abbrev perfCmd : Nat := 0xB00001
/-- USER_ACCESS (R489). -/
abbrev userAccess : Nat := 0xB00002
/-- FROZEN (R489). -/
abbrev frozen : Nat := 0xB00003
/-- SNAP_GEN (R489). -/
abbrev snapGen : Nat := 0xB00004
/-- SNAP_PIN_MODE (R489). -/
abbrev snapPinMode : Nat := 0xB00005
/-- SNAP_MERGED (R489). -/
abbrev snapMerged : Nat := 0xB00006
/-- PC_EVENT (R490). -/
abbrev pcEvent (n : Nat) : Nat := key (0xB010 + n) 0x1
/-- PC_PRIV (R490). -/
abbrev pcPriv (n : Nat) : Nat := key (0xB010 + n) 0x2
/-- PC_MASTER (R490). -/
abbrev pcMaster (n : Nat) : Nat := key (0xB010 + n) 0x3
/-- PC_ADDR_LO (R490). -/
abbrev pcAddrLo (n : Nat) : Nat := key (0xB010 + n) 0x4
/-- PC_ADDR_HI (R490). -/
abbrev pcAddrHi (n : Nat) : Nat := key (0xB010 + n) 0x5
/-- PC_TC_MASK (R490). -/
abbrev pcTcMask (n : Nat) : Nat := key (0xB010 + n) 0x6
/-- PC_VALUE (R490). -/
abbrev pcValue (n : Nat) : Nat := key (0xB010 + n) 0x7
/-- PC_SNAP (R490). -/
abbrev pcSnap (n : Nat) : Nat := key (0xB010 + n) 0x8
/-- STAT_CMD (R491). Log entry 72 (DEDUCED and DESIGN CHOICE). -/
abbrev statCmd : Nat := 0xB10001
/-- STAT_BYTES (R491). -/
abbrev statBytes : Nat := 0xB10002
/-- STAT_PACKETS (R491). -/
abbrev statPackets : Nat := 0xB10003
/-- STAT_RESULT (R491). -/
abbrev statResult : Nat := 0xB10004
/-- STAT_UPDATES (R491). -/
abbrev statUpdates : Nat := 0xB10005
/-- STAT_SKIPPED (R491). -/
abbrev statSkipped : Nat := 0xB10006
/-- STAT_EXT_STALLS (R491). -/
abbrev statExtStalls : Nat := 0xB10007
/-- STAT_PARITY_RESETS (R491). -/
abbrev statParityResets : Nat := 0xB10008
/-- EXP_FIRST (R491). -/
abbrev expFirst (n : Nat) : Nat := key (0xB200 + n) 0x1
/-- EXP_COUNT (R491). -/
abbrev expCount (n : Nat) : Nat := key (0xB200 + n) 0x2
/-- EXP_PERIOD (R491). -/
abbrev expPeriod (n : Nat) : Nat := key (0xB200 + n) 0x3
/-- EXP_CLEAR (R491). -/
abbrev expClear (n : Nat) : Nat := key (0xB200 + n) 0x4
/-- EXP_SWEEPS (R491). -/
abbrev expSweeps (n : Nat) : Nat := key (0xB200 + n) 0x5
/-- EXP_OVERRUNS (R491). -/
abbrev expOverruns (n : Nat) : Nat := key (0xB200 + n) 0x6

end Sys2Proof.Machine.O
end

