-- ==== Sys2Proof/Machine/State.lean ====
section
/-!
DEFINITION. The state of the block as plain data: the queue of waiting commands, the dictionary objects, and for every chapter
of the manual the tables, queues, counters and pins that it gives the machine and that no object holds. Every field's default
is its value after the reset that State.reset describes; `{}` of a part is that part just after its function's reset.
-/

namespace Sys2Proof.Machine

/-! ### How a step can stop -/

/-- Reasons for which the block stops with a fault. No command of this block raises one: the manual gives every command an
effect or a refusal status of its own. -/
inductive Fault
  /-- Raised by no command. Safe: it would stop where the block goes on. -/
  | none
  deriving DecidableEq, Repr

/-- Reasons for which a command has no meaning in the model. -/
inductive Refusal
  /-- A command whose meaning is not written yet. Safe: the model stops where the block goes on. -/
  | notModelled (mnemonic : String)
  deriving DecidableEq, Repr

/-! ### Records that leave the block -/

/-- An event record (R59). `time` is in PCLK cycles since the last POR. -/
structure EvRec where
  type     : Nat
  func     : Nat
  severity : Nat
  overflow : Bool
  seq      : Nat
  time     : Nat
  arg0     : Nat
  arg1     : Nat
  arg2     : Nat
  ring     : Nat
  phase    : Bool
  deriving DecidableEq, Repr

/-- What an observer sees the block send or answer. -/
inductive Out
  /-- A dictionary access ended: its path, object and status (R27, R31). -/
  | access (p : Path) (key : Nat) (st : Status)
  /-- A completion of a window read, with the bytes returned (R33, R34, R35). -/
  | readDone (key : Nat) (st : Status) (data : List Byte)
  /-- What a window read returns that the dictionary service does not serve (R131). -/
  | unserved (key : Nat) (data : List Byte)
  /-- The data a mailbox or KDP read returns. -/
  | dataOut (p : Path) (key : Nat) (data : List Byte)
  /-- A configuration request answered with Request Retry Status (R127). -/
  | retry
  /-- A request completed as Unsupported Request (R106). -/
  | unsupported (header : Nat)
  /-- A UDP datagram from the management port: destination address, port and payload (R41, R49). -/
  | datagram (dest port : Nat) (payload : List Byte)
  /-- An event record written to host memory at an address (R59, R63). -/
  | event (addr : Nat) (r : EvRec)
  /-- An MSI-X message of a vector, with the address and data of its table entry (R117). -/
  | msix (vector addr data : Nat)
  /-- A write of buffer data by DMA, with the Relaxed Ordering attribute or without (R98, R116). -/
  | dmaWrite (addr : Nat) (data : List Byte) (relaxed : Bool)
  /-- Bytes 24 to 31 of a descriptor: ring, slot, done length, result, status code, phase (R113). -/
  | dmaStatus (ring slot len result status : Nat) (phase : Bool)
  /-- A read request issued with a tag (R118, R119). -/
  | readRequest (tag addr len : Nat)
  /-- A Translation Request, with its tag (R118, R123). -/
  | translate (tag ring page : Nat)
  /-- The device requests L1, and enters L1.1 from there or not (R128). -/
  | l1 (deeper : Bool)
  /-- An Invalidate Completion (R124). -/
  | invalidateDone (itag : Nat)
  /-- A Data Object Exchange response, in dwords (R104). -/
  | doe (dwords : List Nat)
  /-- An SMBus write was acknowledged or not (R97). -/
  | smbus (ack : Bool)
  /-- An error logged in AER, by its name in the PCIe specification (R106, R121, R122). -/
  | aer (kind : String) (header : Nat)
  /-- The result of an associative search that an engine pass issued (R293, R294). -/
  | searchResult (table : Nat) (result : Option Nat)
  /-- What the buffer pools answer an engine: status, handle, bytes read (R335, R336). -/
  | pool (st : Status) (handle : Nat) (data : List Byte)
  /-- A frame sent by a port's MAC, without its FCS (R147). -/
  | frame (port : Nat) (bytes : List Byte) (fcsBad : Bool)
  /-- A cell sent on a fabric lane: lane, header, payload (R386, R392). -/
  | cell (lane : Nat) (header : BitVec 128) (payload : List Byte)
  /-- A beacon sent on a fabric lane: its lane, PLANE, RX_OK, XOFF and BEACON_SEQ (R383, R396). -/
  | beacon (lane plane : Nat) (rxOk xoff : Bool) (seq : Nat)
  /-- A pulse edge of PPS_OUT (R157). -/
  | pps (level : Bool)
  deriving DecidableEq, Repr

/-! ### The dictionary service (chapter 02) -/

/-- A mailbox access in progress (R37): the direction, object, offset and length. -/
structure MbxReq where
  write  : Bool
  object : Nat
  offset : Nat
  length : Nat
  deriving DecidableEq, Repr

/-- One tracked request stream of KDP (R45). `maxSeq` is the highest SEQ accepted, `recent` the accepted SEQ values of the last
64, `responses` the stored responses of the last 16 accepted requests, newest first. -/
structure KdpStream where
  source    : Nat
  gen       : Nat
  maxSeq    : Option Nat
  recent    : List Nat
  responses : List (Nat × List Byte)
  deriving DecidableEq, Repr

/-- A KDP request that waits for the dictionary service (R41): where it came from, its bytes, the key that authenticated it, and the
ports to which repeats asked for the response meanwhile (R45 rule 4). -/
structure KdpReq where
  source : Nat
  port   : Nat
  bytes  : List Byte
  key    : Option (List Byte)
  again  : List Nat
  deriving DecidableEq, Repr

/-- Resets that a dictionary command starts after its response (R81). -/
inductive ResetLevel | por | sys | core
  deriving DecidableEq, Repr

/-- A dictionary access that waits for the end of an outage of the Evrad control channels (R12, R31): its path, whether it writes, its
object, the offset in it, the bytes written, and how many bytes a read asks for. -/
structure HeldAccess where
  path   : Path
  write  : Bool
  key    : Nat
  offset : Nat
  data   : List Byte
  length : Nat
  deriving DecidableEq, Repr

/-- State of the dictionary service and KDP that no object holds. -/
structure Service where
  /-- A staged lower half: object and value (R34). -/
  stage      : Option (Nat × Nat) := none
  /-- A captured read: object and value (R34). -/
  capture    : Option (Nat × Nat) := none
  mbx        : Option MbxReq := none
  /-- Accesses that wait behind an outage of a control channel, first come first (R12, R31). -/
  held       : List HeldAccess := []
  /-- Staging copies by object: the bytes received (R40). -/
  staging    : NMap (List Byte) := []
  /-- Tracked KDP streams, most recently heard first (R45). -/
  streams    : List KdpStream := []
  kdpQueue   : List KdpReq := []
  /-- KDP keys of the two slots; none is an empty slot (R46 to R48). -/
  key0       : Option (List Byte) := none
  key1       : Option (List Byte) := none
  /-- SEQ of the next forwarded event (R49). -/
  eventSeq   : Nat := 0
  /-- Times of the AUTH_FAIL answers of the last second, newest first (R46). -/
  authTimes  : List Nat := []
  /-- A reset commanded through a path that is answered first (R81). -/
  reset      : Option ResetLevel := none
  /-- The PLL of the management port is locked (R100). -/
  mgmtPll    : Bool := false
  deriving DecidableEq, Repr

/-! ### Function lifecycle (chapter 02) -/

/-- Transitions of one function that no object holds: an ENABLE or DISABLE in progress, a START whose checks of R519 failed, and
the STOP_TIMEOUT in force (R57). -/
structure FnSt where
  enabling  : Bool := false
  disabling : Bool := false
  verdict   : Option Status := none
  stopBound : Nat := 0
  deriving DecidableEq, Repr

/-! ### The Evrad link (chapter 01) -/

/-- One Evrad channel (R10 to R12, R518): consecutive failed replays of the flit in hand, wires found failing since retraining
or training began (in order), and wires excluded for good. -/
structure EvChan where
  failedReplays : Nat := 0
  failing       : List Nat := []
  excluded      : List Nat := []
  deriving DecidableEq, Repr

/-! ### Supply, wake-up, reset, clocks, power states (chapter 03) -/

/-- A power-state transition in progress (R94): from, to. -/
structure PTrans where
  source : Nat
  target : Nat
  deriving DecidableEq, Repr

/-- What holds the device down (R516) or how far wake-up has come. Steps are those of R70; 0 means that wake-up is over. -/
structure Power where
  /-- Step of wake-up in progress, 1 to 8; 0 when the device is up. -/
  step        : Nat := 0
  /-- In step 4, the regulator being brought up. -/
  regulator   : Nat := 0
  /-- Regulators that are enabled, as a bit mask (R65). -/
  regsOn      : Nat := 0x1FF
  /-- The regulators that P2 turned off come up before step 3 (R95). -/
  regsFirst   : Bool := false
  /-- The rail that falls in a reverse power-down (R66, R72). -/
  down        : Option Nat := none
  /-- The step code that the reverse power-down in progress ends by recording; none after a supply fault. -/
  failCode    : Option Nat := none
  /-- The automatic retry of R72 has been used in this wake-up. -/
  retried     : Bool := false
  /-- Waiting for the 10.0 ms retry timer of R72, with the step from which the retry starts. -/
  retryFrom   : Option Nat := none
  /-- A wake failure is latched, with the step from which WAKE_RETRY starts (R72). -/
  latched     : Option Nat := none
  /-- A thermal trip holds the device down (R69). -/
  thermalHold : Bool := false
  /-- The valid flag of the trim and option load (R73). -/
  trimValid   : Bool := true
  /-- The AON LDO did not reach regulation: nothing answers until VIN12 is cycled (R71). -/
  dark        : Bool := false
  /-- The AON LDO is in regulation: the AON domain and the SMBus run (R71, R97). -/
  aonUp       : Bool := true
  /-- VIN12 is good. -/
  vinGood     : Bool := true
  /-- The MGMT_EN strap as sampled (R73). -/
  mgmtEn      : Bool := false
  /-- Domains released, as a bit mask laid out as DOMAIN_STABLE (R77, R78). -/
  released    : Nat := 0xF
  /-- PIPE cycles of the root clock for which PIPE stood still since the last POR: held in reset, off in P2 or gated in P1 (R86). -/
  pipeOff     : Nat := 0
  /-- PIPE cycle at which PIPE was released (R340). -/
  pipeStart   : Nat := 0
  /-- Last diode readings, in 0.01 °C (R69, R97). -/
  diodeF      : Int := 0
  diodeT      : Int := 0
  /-- Rails in a warned excursion, as a bit mask laid out as SUPPLY_FLAGS (R66). -/
  excursion   : Nat := 0
  /-- Thresholds crossed and not re-armed, laid out as THERMAL_FLAGS (R67). -/
  crossed     : Nat := 0
  /-- A reset is in progress: its level and whether wake-up steps run again (R75). -/
  resetting   : Option ResetLevel := none
  trans       : Option PTrans := none
  /-- A return from P2 is in progress, retried, or latched as failed (R95). -/
  returning   : Bool := false
  returnFailed: Bool := false
  /-- The chrysalis store (R91): the saved objects. -/
  store       : Option (List (Nat × Nat)) := none
  /-- The state to which HOST returns from P2 (R92). -/
  hostState   : Nat := 3
  /-- A CORE reset ended P2, and HOST takes that state at its release (R75, R79). -/
  hostDue     : Bool := false
  /-- PHY PLLs that are powered, laid out as PHY_PLL_LOCK (R84). -/
  plls        : Nat := 0
  deriving DecidableEq, Repr

/-! ### PCIe host endpoint and DMA (chapter 04) -/

/-- An event ring beside its objects (R59, R62, R63): next SEQ, phase, whether a record was dropped since the last one written,
and records that wait for a translation (R123). -/
structure EvRing where
  seq     : Nat := 0
  phase   : Bool := true
  dropped : Bool := false
  waiting : List EvRec := []
  deriving DecidableEq, Repr

/-- A record that the T-die has raised and that waits for channel 17 (R10, R11): its ring, TYPE, FUNC, severity and arguments. -/
structure LateRecord where
  ring : Nat
  type : Nat
  func : Nat
  sev  : Nat
  a0   : Nat
  a1   : Nat
  a2   : Nat
  deriving DecidableEq, Repr

/-- A descriptor in flight (R125): its slot and contents, the bytes of its buffer whose reads have been issued and the bytes
read, whether it may start under FENCE (R115), the record at which its owner goes on and whether a flush of that record runs (R236, R267),
whether it has taken effect, what it will report (R113), and the cause with which its ring halts once it completes (R114, R121, R123).
For a ring that moves data to the host, `length` also counts the bytes already in the buffer. -/
structure Flight where
  slot    : Nat
  desc    : Desc
  data    : List Byte := []
  issued  : Nat := 0
  arrived : Nat := 0
  record  : Nat := 0
  busy    : Bool := false
  effect  : Bool := false
  status  : Nat := 0
  length  : Nat := 0
  result  : Nat := 0
  halt    : Nat := 0
  deriving DecidableEq, Repr

/-- A page for whose translation a DMA ring waits, and the slot of the descriptor that missed it (R123). -/
structure PageWait where
  page : Nat
  slot : Nat
  deriving DecidableEq, Repr

/-- A DMA ring beside its objects: phase at the head, the slot fetched next, descriptors in flight in ring order, the page for
whose translation the ring waits (R123), whether ARM must first write the statuses of R126, and the descriptors of such an ARM whose statuses
are still to be written. -/
structure DRing where
  phase    : Bool := true
  fetched  : Nat := 0
  flight   : List Flight := []
  waitPage : Option PageWait := none
  owed     : Bool := false
  owing    : List Flight := []
  deriving DecidableEq, Repr

/-- What a non-posted request asks for (R107, R118): data of a buffer, descriptors, or a translation. -/
inductive ReadKind | buffer | fetch | translate
  deriving DecidableEq, Repr

/-- An outstanding non-posted request (R118, R119): the DMA ring (0 to 47) and slot it serves, the bus address, the offset in the buffer, the
bytes asked for and still to come, and whether its data is dropped on arrival (R121, R125). A Translation Request names its ring by its
own number (0 to 63) and the page by its address. -/
structure ReadReq where
  kind   : ReadKind := .buffer
  ring   : Nat
  slot   : Nat
  addr   : Nat
  offset : Nat
  length : Nat
  left   : Nat
  orphan : Bool := false
  deriving DecidableEq, Repr

/-- An entry of the translation cache (R123): first 4 KiB page and log2 of its pages. The cache lists them most recently used
first. -/
structure AtsEntry where
  page     : Nat
  sizeLog2 : Nat
  deriving DecidableEq, Repr

/-- One MSI-X vector beside its objects: its table entry and pending bit (R111, R117), and its unsent signals. -/
structure Vector where
  addr    : Nat := 0
  data    : Nat := 0
  masked  : Bool := true
  pending : Bool := false
  unsent  : Nat := 0
  deriving DecidableEq, Repr

/-- The endpoint's state that no object holds: configuration-space controls (R101 to R106, R118, R120, R123, R125), rings, tags,
translations. -/
structure HostSt where
  bme        : Bool := false
  atsEnable  : Bool := false
  d3hot      : Bool := false
  /-- A Function Level Reset is in progress (R127). -/
  flr        : Bool := false
  /-- Max Read Request Size (R119). -/
  maxRead    : Nat := 512
  /-- 10-Bit and 14-bit Tag Requester Enable (R118). -/
  tag10      : Bool := false
  tag14      : Bool := false
  /-- Completion Timeout Disable and encoding in Device Control 2 (R120). -/
  cplTimeoutOff : Bool := false
  cplTimeout : Nat := 0
  /-- Memory Space Enable (R106). -/
  memSpace   : Bool := true
  /-- Enable Relaxed Ordering (R98, R116). -/
  relaxed    : Bool := true
  /-- ECRC Generation Enable and ECRC Check Enable (R98). -/
  ecrcGen    : Bool := false
  ecrcCheck  : Bool := false
  /-- Max Payload Size (R98). -/
  maxPayload : Nat := 128
  /-- ASPM L1 enabled in Link Control, and L1.1 in the L1 PM Substates capability (R128). -/
  aspmL1     : Bool := true
  l11        : Bool := false
  /-- The DMA ring whose turn it is (R115). -/
  turn       : Nat := 0
  rings      : NMap EvRing := []
  /-- Records of the T-die that wait for channel 17 to carry them (R10, R11), oldest first. -/
  late       : List LateRecord := []
  drings     : NMap DRing := []
  /-- Outstanding reads by tag. -/
  reads      : NMap ReadReq := []
  quarantine : List Nat := []
  cache      : List AtsEntry := []
  /-- Invalidations that wait for reads: itag, and the tags of the reads that used the range (R124). -/
  invalidates : List (Nat × List Nat) := []
  vectors    : NMap Vector := []
  /-- TAIL registers of BAR2 as last written, by ring (R111). -/
  tails      : NMap Nat := []
  /-- Time of the last record of each rate-limited kind. -/
  limits     : NMap Nat := []
  /-- Occurrences since that record, for the kinds that report their number. -/
  since      : NMap Nat := []
  deriving DecidableEq, Repr

/-! ### Line lanes, ports and time (chapter 05) -/

/-- State of LINE and of the time-of-day counter that no object holds. -/
structure LineSt where
  /-- Training attempts of each lane since admin up (R162). -/
  attempts   : NMap Nat := []
  /-- Ports whose link-down waits for LINK_DOWN_HOLD, with its cause (R145). -/
  held       : NMap Nat := []
  /-- Sub-ports 96 to 511 that are bound, with their port (R152). -/
  subports   : NMap Nat := []
  /-- The time-of-day counter (R154) in units of 10^-12 ns: seconds, nanoseconds, and the exact rest of which the 32-bit
  fraction is the truncation. -/
  tod        : Nat := 0
  /-- The load armed by TOD_SET 0x02, in seconds and nanoseconds (R159). -/
  armed      : Option (Nat × Nat) := none
  ppsHigh    : Bool := false
  /-- An edge of PPS_IN has been captured since the last loss (R157). -/
  ppsSeen    : Bool := false
  /-- Why each SyncE output is squelched, as bits: 1 CLK, 2 MODE, 4 RATE, 8 LOCK (R160). -/
  synceWhy   : NMap Nat := []
  /-- RWS objects in force by lane: bit 0 TX_POLARITY, bit 1 RX_POLARITY, bit 2 TRAIN_ENABLE, then TX_TAPS (R56, R140). -/
  cfg        : NMap Nat := []
  deriving DecidableEq, Repr

/-! ### OTUCn framing and tributary interchange (chapter 06) -/

/-- The aligner of one received OTUC slice (R168 to R170): the tracker while it hunts, misses in frame, the multiframe aligner,
the integrated defects, received indications, the BEI values that the next transmitted frame returns (R173), the TTI read last and how often
in a row (R174). -/
structure OtnSlice where
  hunting : Bool := true
  /-- Candidates: bit position and count. -/
  cands   : List (Nat × Nat) := []
  pos     : Nat := 0
  misses  : Nat := 0
  inMulti : Bool := false
  mfas    : Option Nat := none
  mfMiss  : Nat := 0
  lof     : Bool := false
  lom     : Bool := false
  /-- Frame periods since HUNT began, until the group is aligned. -/
  age     : Nat := 0
  smBdi   : Bool := false
  pmBdi   : Bool := false
  biae    : Bool := false
  smBei   : Nat := 0
  pmBei   : Nat := 0
  tti     : List Byte := []
  ttiRuns : Nat := 0
  deriving DecidableEq, Repr

/-- One FlexO group in force (R163, R171, R174): its slices and the counts of SM_DEG. `rows` are the slices whose frame period of
the frame in hand has come, and `agree` whether all slices read one MFAS in the last frame that was complete. -/
structure OtnGroup where
  inForce  : Bool := false
  noPort   : Bool := false
  los      : Bool := true
  aligned  : Bool := false
  rows     : List Nat := []
  agree    : Bool := false
  slices   : NMap OtnSlice := []
  /-- Frames with SM BIP-8 violations in this second, and whether the frame in hand has been counted. -/
  errored  : Nat := 0
  counted  : Bool := false
  badSecs  : Nat := 0
  goodSecs : Nat := 0
  smDeg    : Bool := false
  deriving DecidableEq, Repr

/-- One packet client (R176, R189): what its demapper last saw, the violations that its next transmitted frame returns as PM BEI, its state and
counts. -/
structure OtnClient where
  allOnes : Bool := false
  noLock  : Bool := false
  pmBdi   : Bool := false
  txBei   : Nat := 0
  state   : Nat := 0
  bip     : Nat := 0
  bei     : Nat := 0
  drops   : Nat := 0
  deriving DecidableEq, Repr

/-- State of OTN that no object holds. Pages list entries by key; an unlisted entry is UNEQUIPPED or NONE (R179, R180). -/
structure OtnSt where
  groups  : NMap OtnGroup := []
  clients : NMap OtnClient := []
  active  : NMap Nat := []
  standby : NMap Nat := []
  /-- Clients whose mapper finishes the frame that it is sending while OTN is STOPPING (R186). -/
  sending : List Nat := []
  deriving DecidableEq, Repr
/-! ### Packets on the F-die (chapters 07 and 08) -/

/-- A packet on the F-die. `slice` is 0 to 7 on ingress and 8 + s on egress; `port` and `seq` are the port whose order it keeps
and its place in that order (R211, R215); `stamp` is its epoch (R268); `byDefault` tells that it took its default action (R207);
`bytes` is its length when the scheduler dequeued it (R366). -/
structure Pkt where
  id        : Nat
  md        : BitVec 512
  frame     : List Byte
  slice     : Nat
  port      : Nat
  seq       : Nat
  stamp     : Nat := 0
  byDefault : Bool := false
  bytes     : Nat := 0
  deriving DecidableEq, Repr

/-- A frame at a slice input that the parser has not taken (R210): the metadata that the slice input wrote. -/
structure RawPkt where
  md    : BitVec 512
  frame : List Byte
  port  : Nat
  seq   : Nat
  deriving DecidableEq, Repr

/-- A pass on a thread (R223 to R226): its packet, cluster, engine and bank, profile entry, dispatch time in PIPE cycles, and
whether the reorder stage has skipped it (R212). -/
structure Pass where
  pkt     : Pkt
  cluster : Nat
  engine  : Nat
  bank    : Nat
  entry   : List Byte
  /-- The WRITE of its profile whose copy the pass runs (R233, R235). -/
  gen     : Nat := 0
  start   : Nat
  skipped : Bool := false
  deriving DecidableEq, Repr

/-- What a pass asked of the MAC (R156, R231): action, offset, tag. -/
structure TsAction where
  action : Nat := 0
  offset : Nat := 0
  tag    : Nat := 0
  deriving DecidableEq, Repr

/-- A packet that returned and waits in the reorder buffer (R211). -/
structure Waiting where
  pkt  : Pkt
  trap : Bool
  ts   : TsAction := {}
  deriving DecidableEq, Repr

/-- Order of one port in one reorder stage (R211 to R213). -/
structure Reorder where
  expected : Nat := 0
  waiting  : List Waiting := []
  gone     : List Nat := []
  deriving DecidableEq, Repr

/-- A packet in the trap path (R216). -/
structure Trapped where
  pkt    : Pkt
  egress : Bool
  deriving DecidableEq, Repr

/-- A packet on an Evrad ingress channel (R10): its metadata word and frame. -/
structure ChanPkt where
  md    : BitVec 512
  frame : List Byte
  deriving DecidableEq, Repr

/-- A packet on the T-die: its system header (R388) and frame. -/
structure TPkt where
  hdr   : BitVec 256
  frame : List Byte
  deriving DecidableEq, Repr

/-- A packet on an Evrad egress channel, with the port whose in-flight bytes it counts and its place in that port's order
(R366). -/
structure EgPkt where
  hdr   : BitVec 256
  frame : List Byte
  port  : Nat
  seq   : Nat
  deriving DecidableEq, Repr

/-- A frame released to a port's MAC (R147, R156); `owner` is the port whose in-flight bytes it counts. -/
structure TxFrame where
  frame   : List Byte
  subport : Nat
  ts      : TsAction
  rxSec   : Nat
  rxNs    : Nat
  bytes   : Nat
  owner   : Nat
  deriving DecidableEq, Repr

/-- A rate limiter (R216, R346): time of the last refill in root cycles and level in units of 1/6,000,000,000 item. -/
structure Bucket where
  time  : Nat := 0
  level : Option Nat := none
  deriving DecidableEq, Repr

/-- One copy pair of an action profile (R233): the entry in force, its counters (R235), and whether the old copy is held. -/
structure Profile where
  entry     : List Byte := []
  hold      : Bool := false
  gen       : Nat := 0
  passes    : Nat := 0
  issue     : Nat := 0
  residence : Nat := 0
  deriving DecidableEq, Repr

/-- A cluster beside its objects (R240, R241): exceptions and time of the last record, time of the last bank parity error, and
whether a repair, and after it a switch, is owed. -/
structure Cluster where
  lastRecord : Option Nat := none
  since      : Nat := 0
  parity     : Option Nat := none
  out        : Bool := false
  deriving DecidableEq, Repr

/-- A microcode bundle (R230, R248): version and behaviour catalogue as a little-endian number. -/
structure Bundle where
  version   : Nat
  catalogue : Nat
  deriving DecidableEq, Repr

/-- PARSE, ENG and TRAP beside their objects. Packets are listed oldest first. -/
structure PacketSt where
  nextId   : Nat := 0
  /-- Next place in a port's order, on ingress and on egress, and the places at which PORT_SEQ last restarted: PORT_SEQ is their
  difference modulo 2^24 (R198, R366). -/
  seqIn    : NMap Nat := []
  seqEg    : NMap Nat := []
  baseIn   : NMap Nat := []
  baseEg   : NMap Nat := []
  /-- Frames at slice inputs that wait for the parser, by ingress slice. -/
  raw      : NMap (List RawPkt) := []
  /-- Dispatch queues by slice (R209), and the cluster that each dispatcher offers to next. -/
  dispatch : NMap (List Pkt) := []
  nextClu  : NMap Nat := []
  /-- The RWS objects of the parser in force while PARSE is stopped (R56, R197). -/
  parser   : NMap Nat := []
  /-- Per cluster: the last PIPE cycle in which it accepted packets, with their number, and the slice whose offer has priority (R209). -/
  accepts  : NMap (Nat × Nat) := []
  priority : NMap Nat := []
  passes   : List Pass := []
  /-- Reorder states by stage × 128 + port. -/
  reorder  : NMap Reorder := []
  trap     : List Trapped := []
  trapRate : NMap Bucket := []
  /-- The stage configuration of the active chain bank, by the key of the standby object (R205). -/
  chain    : NMap Nat := []
  profiles : NMap Profile := []
  clusters : NMap Cluster := []
  /-- Bundles of the active banks, the idle banks and the staging half (R242 to R245). -/
  active   : Option Bundle := none
  idle     : Option Bundle := none
  staged   : Option Bundle := none
  /-- Cluster whose turn it is in a switch, and the ENG cycles of the switch so far (R245). -/
  turn     : Nat := 0
  switched : Nat := 0
  /-- PIPE cycle at which a SWAP was accepted, while it is pending (R206). -/
  swapAt   : Option Nat := none
  /-- Evrad channels 0 to 7 (R10), and 8 to 15. -/
  chanIn   : NMap (List ChanPkt) := []
  chanEg   : NMap (List EgPkt) := []
  /-- Frames released to the MACs, by port. -/
  mac      : NMap (List TxFrame) := []
  /-- Bytes dequeued for a port and not yet sent or discarded (R366). -/
  inflight : NMap Nat := []
  deriving DecidableEq, Repr

/-! ### Forwarding tables (chapter 09) -/

/-- An exact-match entry (R259, R280). -/
structure ExactEntry where
  data : Nat
  age  : Bool
  hit  : Bool
  mark : Bool
  deriving DecidableEq, Repr

/-- A bridging entry (R258, R280): its 64-bit word, hit and mark bits. -/
structure BridgeEntry where
  data : Nat
  hit  : Bool
  mark : Bool
  deriving DecidableEq, Repr

/-- An entry of an index table (R270): state 1 VALID, 2 RETIRING, 3 BAD; its data as a big-endian number; the epoch of RETIRE. -/
structure IndexEntry where
  state : Nat
  data  : Nat
  tag   : Nat := 0
  deriving DecidableEq, Repr

/-- A pending learn request (R274, R275): FID and MAC, station, whether it is a MOVE. -/
structure LearnReq where
  key     : Nat
  station : Nat
  move    : Bool
  deriving DecidableEq, Repr

/-- A flush in progress (R283): halves, station, INCLUDE_STATIC, keys relearned during the walk are kept aside by the walk itself;
the DMA ring, slot and record that wait for it. -/
structure Flush where
  halves  : Nat
  station : Nat
  static  : Bool
  ring    : Option (Nat × Nat × Nat) := none
  /-- The PIPE cycle at which the walk began, and the entries removed so far from each half. -/
  start   : Nat := 0
  gone0   : Nat := 0
  gone1   : Nat := 0
  deriving DecidableEq, Repr

/-- A sweep in progress (R281): the PIPE cycle at which its walk began, and the entries that it has visited. -/
structure AgeSweep where
  start : Nat
  seen  : List Nat := []
  deriving DecidableEq, Repr

/-- FWD beside its objects. Keys are the numbers of R264's orders: LPM VRF, address, length; EXACT sub-table, key; BRIDGE FID,
MAC; index tables TID and index. -/
structure FwdSt where
  v4      : NMap Nat := []
  v6      : NMap Nat := []
  /-- LPM nodes with bad parity (R285): VRF, prefix address, prefix length. -/
  bad4    : List (Nat × Nat × Nat) := []
  bad6    : List (Nat × Nat × Nat) := []
  exact   : NMap ExactEntry := []
  half0   : NMap BridgeEntry := []
  half1   : NMap BridgeEntry := []
  index   : NMap IndexEntry := []
  /-- Pending requests by half, oldest first (R275), and the notify filter by half, newest first (R276). -/
  learn   : NMap (List LearnReq) := []
  filter  : NMap (List Nat) := []
  flushes : List Flush := []
  /-- The epoch counter without its wrap (R268). -/
  epoch   : Nat := 0
  /-- The epoch boundary's start in PIPE cycles, and the period in force (R273). -/
  period  : Nat := 150000
  /-- Sweeps in progress, by sweeper (R281). -/
  sweeps  : NMap AgeSweep := []
  deriving DecidableEq, Repr

/-! ### Associative engine (chapter 10) -/

/-- A valid row of a table (R291): VALUE and MASK as numbers of the table's width, PRIORITY, TAG. -/
structure AscEntry where
  value : Nat
  mask  : Nat
  prio  : Nat
  tag   : Nat
  deriving DecidableEq, Repr

/-- A row write that waits for its update slot (R300, R302, R308): copy a row, write an entry, clear a row. -/
inductive RowWrite
  | copy (source target : Nat) (respace : Bool)
  | write (row : Nat) (e : AscEntry) (respace : Bool)
  | clear (row : Nat) (respace : Bool)
  deriving DecidableEq, Repr

/-- A table of the associative engine (R288): its rows as they stand and the row writes due, in order; rows found bad that the
next update slot clears; and the master of R476 whose command the writes due carry out. -/
structure AscTable where
  rows    : NMap AscEntry := []
  due     : List RowWrite := []
  bad     : List Nat := []
  asker   : Nat := 0
  /-- ASC_ROW as the last NEXT left it, and the number of rows that the iteration has passed (R305). -/
  cursor  : Option (Nat × Nat) := none
  deriving DecidableEq, Repr

/-- A PIPE cycle of slices that a search or an update takes (R296): the table, the slices, the cycle, whether it serves a search, and the
pipeline slice whose chain the search holds until then. -/
structure SlotUse where
  table  : Nat
  slices : List Nat
  cycle  : Nat
  search : Bool
  chain  : Option Nat := none
  deriving DecidableEq, Repr

/-- ASSOC beside its objects. -/
structure AssocSt where
  tables : NMap AscTable := []
  /-- The scrubber, by slice (R307): twice the row after the last checked, plus 1 when its pass over the slice is complete. -/
  scrub  : NMap Nat := []
  /-- Cycles taken, the present one and later ones (R296). -/
  slots  : List SlotUse := []
  /-- The PIPE cycle of a slice's last update slot (R302). -/
  updated : NMap Nat := []
  /-- The PIPE cycle until which the chain of a pipeline slice holds for a search that waits (R296). -/
  chains : NMap Nat := []
  deriving DecidableEq, Repr

/-! ### Statistics and performance counters (chapter 17) -/

/-- An export sweep in progress (R486): next pair, pairs left, its number, bytes of records in the buffer in hand. -/
structure Sweep where
  next  : Nat
  left  : Nat
  sweep : Nat
  clear : Bool
  deriving DecidableEq, Repr

/-- PERF and the F-die counter pairs beside their objects. Pairs hold bytes and packets; `dirty` lists the words of the QDR
coherent cache that differ from memory, with the memory's value (R449, R483). -/
structure PerfSt where
  pairs    : NMap (Nat × Nat) := []
  dirty    : NMap (Nat × Nat) := []
  sweeps   : NMap Sweep := []
  /-- Root cycles of the last snapshot edge (R478). -/
  lastSnap : Option Nat := none
  snapHigh : Bool := false
  /-- A FREEZE command is in force (R477). -/
  latch    : Bool := false
  /-- The export set from which the round robin over the sweeping sets looks next (R486). -/
  turn     : Nat := 0
  deriving DecidableEq, Repr


/-! ### Port protection (chapter 14) -/

/-- PROT beside its objects (R410 to R416): READY as last acted on, whether RELINQUISH is in force, the PCLK cycle at which the wait
ends or the cycles left of a frozen one, whether READY has yet to return for the first time since START, ports that ROLE_CMD keeps
active, and ports in SWITCHING. -/
structure ProtSt where
  ready   : Bool := false
  forced  : Bool := false
  waitEnd : Option Nat := none
  frozen  : Option Nat := none
  first   : Bool := false
  want    : List Nat := []
  deriving DecidableEq, Repr


/-! ### Buffers, pools, light-trap and switch core (chapter 11) -/

/-- A packet in a queue (R314): its system header and frame, the cells that are left of it, and whether a lost segment held part of
it. -/
structure QPkt where
  hdr   : BitVec 256
  frame : List Byte
  cells : Nat
  lost  : Bool := false
  deriving DecidableEq, Repr

/-- Where a segment of a queue stands (R319, R320). -/
inductive SegPhase | writing | stored | reading | read
  deriving DecidableEq, Repr

/-- A segment of 8 cells (R318 to R325): its 26-bit address (R425) and phase. -/
structure Seg where
  id    : Nat
  phase : SegPhase
  deriving DecidableEq, Repr

/-- A queue (R315 to R326, R330, R367, R369): attribute word, packets in order, cells in HEAD, segments in order, cells in TAIL, whether
it is SPILLING, whether a broken pin lets it spill, formed segments counted as waiting, average depth in 1/256 cell, the PIPE cycle
at which it became empty, reserve set aside, guarantee flags. -/
structure Queue where
  attr      : Nat := 0
  pkts      : List QPkt := []
  head      : Nat := 0
  segs      : List Seg := []
  tail      : Nat := 0
  spilling  : Bool := false
  pinBroken : Bool := false
  blocked   : Nat := 0
  avg       : Nat := 0
  emptied   : Nat := 0
  reserve   : Nat := 0
  flags     : Nat := 0
  deriving DecidableEq, Repr

/-- BUF beside its objects: queues, the last channel that supplied a segment, by channel the first segment never used and the freed
segments in order (R426), freezes whose trim is not yet reported: channel, segments and packets lost (R323, R325). -/
structure BufSt where
  queues   : NMap Queue := []
  lastChan : Nat := 63
  fresh    : NMap Nat := []
  freed    : NMap (List Nat) := []
  trims    : List (Nat × Nat × Nat) := []
  /-- The queue after the one whose segment was read last: the round robin of R320. -/
  turn     : Nat := 0
  deriving DecidableEq, Repr

/-- A buffer of a pool (R335, R336): its generation and whether it is allocated. -/
structure PoolBuf where
  gen  : Nat := 0
  used : Bool := false
  deriving DecidableEq, Repr

/-- BPM beside its objects: buffers by pool × 65536 + number, the pool counts in force (R352), and the bytes of the region by offset, of which those
that are 0 are not listed (R334, R336). -/
structure BpmSt where
  bufs   : NMap PoolBuf := []
  layout : List Nat := [8192, 4096, 2048, 1024, 512, 256, 128, 51]
  mem    : NMap Byte := []
  deriving DecidableEq, Repr

/-- A light-trap session (R346, R347): captures taken, admitted packets counted, and its rate limiter. -/
structure LtSession where
  seq    : Nat := 0
  count  : Nat := 0
  bucket : Bucket := {}
  deriving DecidableEq, Repr

/-- A capture held until DMA delivers it: ring, session, handle of the buffer that holds its record. -/
structure LtRec where
  ring    : Nat
  session : Nat
  handle  : Nat
  deriving DecidableEq, Repr

/-- Light-trap capture. -/
structure LtSt where
  sessions : NMap LtSession := []
  held     : List LtRec := []
  device   : Bucket := {}
  deriving DecidableEq, Repr

/-- A part of a packet in a core cell (R19): the packet's number, bytes and TC, and the packet itself where it ends. -/
structure Frag where
  id    : Nat
  bytes : Nat
  tc    : Nat
  last  : Option TPkt := none
  deriving DecidableEq, Repr

/-- A core cell (R342): its stream, number, parts, order of closing, and the PIPE cycle at which it entered its middle; at its output, the
served cycles of its stream at which it arrived there. -/
structure CoreCell where
  input  : Nat
  output : Nat
  seq    : Nat
  frags  : List Frag
  order  : Nat
  since  : Nat
  deriving DecidableEq, Repr

/-- A stream of an input towards an output (R342): closed cells, the open cell's parts, and the next number. -/
structure Staging where
  closed : List CoreCell := []
  open_  : List Frag := []
  next   : Nat := 0
  deriving DecidableEq, Repr

/-- A stream at its output (R344): the number expected, the cells held, and the PIPE cycles of served rounds for which it has held cells. -/
structure Reseq where
  expected : Nat := 0
  held     : List CoreCell := []
  cycles   : Nat := 0
  deriving DecidableEq, Repr

/-- SWC beside its objects: streams by input × 16 + output, middles by middle × 16 + output, resequencing by output × 16 + input, output
FIFOs of cells, the PIPE cycle from which on an egress admission decides next, outputs that withhold the round, packets to drop because a part of them was lost, next packet and cell numbers. -/
structure SwcSt where
  staging : NMap Staging := []
  middles : NMap (List CoreCell) := []
  reseq   : NMap Reseq := []
  fifo    : NMap (List CoreCell) := []
  admits  : NMap Nat := []
  holding : List Nat := []
  dropped : List Nat := []
  nextPkt : Nat := 0
  nextOrd : Nat := 0
  deriving DecidableEq, Repr

/-! ### Scheduling and policing (chapter 12) -/

/-- A node or queue of the trees (R358, R361 to R363): its record, deficit, balances in units of 1/12,000,000 byte with the PIPE cycle
of their last refill, and the pointers of its priorities as child number plus 1. -/
structure Node where
  record  : Nat := 0
  deficit : Int := 0
  cbal    : Int := 0
  pbal    : Int := 0
  time    : Nat := 0
  ptr     : NMap Nat := []
  deriving DecidableEq, Repr

/-- A shaper profile (R365). -/
structure Shape where
  cir : Nat := 0
  cbs : Nat := 20480
  pir : Nat := 0
  pbs : Nat := 20480
  adj : Int := 0
  deriving DecidableEq, Repr

/-- Breaks of one kind of guarantee since its last record (R380): PCLK cycle of that record, breaks, first queue. -/
structure Breaks where
  last  : Option Nat := none
  since : Nat := 0
  first : Nat := 0
  deriving DecidableEq, Repr

/-- SCHED beside its objects: nodes by level × 2^20 + number (level 0: the roots), profiles, breaks by kind, the ingress region in force
(R56, R354). -/
structure SchedSt where
  iqBase    : Nat := 983040
  iqDevices : Nat := 1024
  /-- RESERVE_CELLS of classes 1 to 15 and RESERVE_LIMIT in force (R56, R367, R378). -/
  reserves  : List Nat := (List.range 15).map fun i => 16 * (i + 1)
  limit     : Nat := 65536
  nodes  : NMap Node := []
  shapes : NMap Shape := []
  breaks : NMap Breaks := []
  deriving DecidableEq, Repr

/-- A policer profile that has been written (R377). -/
structure PolProf where
  mode    : Nat
  aware   : Bool
  coupled : Bool
  cir     : Nat
  cbs     : Nat
  pir     : Nat
  pbs     : Nat
  adj     : Int
  pass    : Bool
  deriving DecidableEq, Repr

/-- A policer (R372, R373, R445): its profile and buckets: on chip in 1/12,000,000 byte with time in PIPE cycles, an extension policer
in 1/256 byte with time in units of 64 PIPE cycles. -/
structure Policer where
  profile : Nat := 0
  tc      : Nat := 0
  tp      : Nat := 0
  time    : Nat := 0
  deriving DecidableEq, Repr

/-- POL beside its objects. `dirty` lists the extension policers whose cached word differs from memory, with memory's value
(R375, R449). -/
structure PolSt where
  policers : NMap Policer := []
  profiles : NMap PolProf := []
  dirty    : NMap Policer := []
  deriving DecidableEq, Repr

/-! ### Fabric (chapter 13) -/

/-- A fabric cell that is closed or queued (R386): destination, number, whether it starts the stream, PRIO, VALID, CONT, FIRST_START and
payload. -/
structure FabCell where
  dest    : Nat
  seq     : Nat
  sync    : Bool
  prio    : Nat
  valid   : Nat
  cont    : Bool
  start   : Nat
  payload : List Byte
  deriving DecidableEq, Repr

/-- A sending stream (R390, R391): the open cell's bytes, whether its byte 0 continues a packet, its first start, highest TC, the next
number, and whether the first cell of the stream has closed since START. -/
structure TxStream where
  bytes : List Byte := []
  cont  : Bool := false
  start : Nat := 0x1FF
  prio  : Nat := 0
  next  : Nat := 0
  begun : Bool := false
  deriving DecidableEq, Repr

/-- A received cell that its stream holds (R394): number, VALID, CONT, FIRST_START, payload and the PIPE cycle of its arrival. -/
structure RxCell where
  seq     : Nat
  valid   : Nat
  cont    : Bool
  start   : Nat
  payload : List Byte
  time    : Nat
  deriving DecidableEq, Repr

/-- A receiving stream (R394, R395): the number expected (none until a cell with SYNC), cells held, the packet begun, whether bytes
up to the next start are discarded, the bytes still to come of the packet that they belong to, if it is counted, and the packets rebuilt. -/
structure RxStream where
  expected : Option Nat := none
  held     : List RxCell := []
  partial_ : List Byte := []
  skip     : Bool := false
  after    : Nat := 0
  ready    : List TPkt := []
  deriving DecidableEq, Repr

/-- A fabric lane beside its objects (R384, R385): consecutive good or bad framings, slot alignment, the far end's RX_OK and XOFF, queued
cells, and whether it was usable when last reported. -/
structure FabLane where
  good    : Nat := 0
  bad     : Nat := 0
  aligned : Bool := false
  rxOk    : Bool := false
  xoff    : Bool := false
  queue   : List FabCell := []
  usable  : Bool := false
  deriving DecidableEq, Repr

/-- A plane beside its objects (R397 to R401): consecutive misses of the in-band and the sideband path, the PCLK cycle at which
WAIT_TO_RESTORE ends, and the PIPE cycle at which the removal window ends. -/
structure FabPlane where
  missIn   : Nat := 6
  missSide : Nat := 6
  waitEnd  : Option Nat := none
  window   : Option Nat := none
  deriving DecidableEq, Repr

/-- FAB beside its objects: MY_DEVICE in force, sending streams by group × 2048 + destination, receiving streams by group × 2048 +
source, closed cells waiting for a lane by group, rotation positions by group, lanes, planes, groups that send XOFF, beacons sent, and by
group the source of the first loss since the last record. -/
structure FabSt where
  me      : Nat := 65535
  tx      : NMap TxStream := []
  rx      : NMap RxStream := []
  waiting : NMap (List FabCell) := []
  rotate  : NMap Nat := []
  lanes   : NMap FabLane := []
  planes  : NMap FabPlane := []
  xoff    : List Nat := []
  beacons : Nat := 0
  loss    : NMap Nat := []
  /-- The source after the one whose packet a group's input took last: the round robin of R395. -/
  turn    : NMap Nat := []
  deriving DecidableEq, Repr

/-! ### External memory (chapter 15) -/

/-- HBM beside its objects: whether the channels have been trained since ENABLE or P2, the state to which a HOT channel returns, the state
that a channel in training aims at, and the channel of the pattern run in progress. -/
structure HbmSt where
  trained : Bool := false
  former  : NMap Nat := []
  goal    : NMap Nat := []
  pattern : Option Nat := none
  /-- The next segment that the scrubber reads, by channel (R432). -/
  scrub   : NMap Nat := []
  deriving DecidableEq, Repr

/-- QDR beside its objects: the interfaces whose words have been initialised since ENABLE or P2, with the TIME that policer words took then
(R447). -/
structure QdrSt where
  filled : NMap Nat := []
  deriving DecidableEq, Repr

/-! ### Boot flash and OTP (chapter 16) -/

/-- A slot of the boot flash that has been erased or written since delivery (R453): image length, blocks by offset, and whether it holds a
verified image. -/
structure FlashSlot where
  length : Nat := 0
  blocks : NMap (List Byte) := []
  good   : Bool := false
  deriving DecidableEq, Repr

/-- A settings store (R464, R466): FORMAT and sequence number of its header, whether it failed its CRC-32C, the saved objects in order, the
KDP keys. -/
structure SetStore where
  format  : Nat := 0
  seq     : Nat := 0
  crcBad  : Bool := false
  entries : List (Nat × Nat) := []
  key0    : Option (List Byte) := none
  key1    : Option (List Byte) := none
  deriving DecidableEq, Repr

/-- What the boot record names (R453): confirmed MC slot, engine boot slot and settings store in force, none being as delivered; the trial slot
and whether the trial has booted. -/
structure BootRecord where
  confirmed : Option Nat := none
  engSlot   : Option Nat := none
  store     : Option Nat := none
  trial     : Option Nat := none
  booted    : Bool := false
  deriving DecidableEq, Repr

/-- A copy of the boot record (R453): its sequence number, whether its CRC-32C is right, and what it names. -/
structure RecordCopy where
  seq  : Nat := 0
  good : Bool := false
  body : BootRecord := {}
  deriving DecidableEq, Repr

/-- The boot flash, its boot record and OTP beside FWUP's objects (R452 to R469): slots by number (0, 1 MC A, B; 2, 3 engine A, B), an
unlisted one being as delivered; confirmed MC slot, engine boot slot and store in force, none being as delivered; the trial slot and
whether it has booted; settings stores; floors and revoke bits set since delivery; the reason for the next fall-back; whether
FW_FALLBACK is still to be raised; consecutive watchdog boots by MC slot, and whether a boot that another reset ended broke a run of them; blocks in the programming buffers;
the sequence number of the boot record written last, counted from delivery, with whether its write is still in progress; and the other copy. -/
structure FwSt where
  slots     : NMap FlashSlot := []
  confirmed : Option Nat := none
  engSlot   : Option Nat := none
  store     : Option Nat := none
  trial     : Option Nat := none
  booted    : Bool := false
  stores    : NMap SetStore := []
  floorMc   : Nat := 0
  floorEng  : Nat := 0
  revoked   : Nat := 0
  reason    : Nat := 2
  due       : Bool := false
  wdt       : NMap Nat := []
  buffers   : List (Nat × List Byte) := []
  records   : Nat := 0
  writing   : Bool := false
  other     : RecordCopy := {}
  cut       : Bool := false
  deriving DecidableEq, Repr


/-! ### JTAG (chapter 18) -/

/-- A state of the TAP controller of IEEE 1149.1 (R506). -/
inductive TapCtl
  | reset | idle | selectDr | captureDr | shiftDr | exit1Dr | pauseDr | exit2Dr | updateDr
  | selectIr | captureIr | shiftIr | exit1Ir | pauseIr | exit2Ir | updateIr
  deriving DecidableEq, Repr

/-- The TAP (R506): the controller, the instruction in force, the shift stages of the instruction register and of the selected data
register, bit 0 first, and what EXTEST drives. -/
structure Tap where
  ctl   : TapCtl := .reset
  instr : Config.TapInstr := .idcode
  ir    : List Bool := []
  dr    : List Bool := []
  drive : List Bool := []
  deriving DecidableEq, Repr

/-- The state of the block. -/
structure State where
  /-- Commands that wait, first in, first out. -/
  pending : List Instr := []
  /-- Root clock cycles (6.0 GHz) since the last POR: ENG 3, PIPE 4, XCLK 6, PCLK 24 of them to a cycle (R20). -/
  ticks   : Nat := 0
  /-- Number of free values drawn: the model's own counter. -/
  free    : Nat := 0
  /-- Number of RED draws taken (R331). -/
  draws   : Nat := 0
  /-- Everything the block has sent or answered, newest first. -/
  out     : List Out := []
  /-- Every dictionary object that does not hold its default, by key. -/
  objs    : NMap Nat := []
  /-- Live bytes of the Kenlith Description Table (R130). -/
  mcState : Nat := 0
  failReason : Nat := 0
  svc     : Service := {}
  fns     : NMap FnSt := []
  ev      : NMap EvChan := []
  pwr     : Power := {}
  host    : HostSt := {}
  line    : LineSt := {}
  otn     : OtnSt := {}
  pk      : PacketSt := {}
  fwd     : FwdSt := {}
  asc     : AssocSt := {}
  perf    : PerfSt := {}
  prot    : ProtSt := {}
  buf     : BufSt := {}
  bpm     : BpmSt := {}
  lt      : LtSt := {}
  swc     : SwcSt := {}
  sched   : SchedSt := {}
  pol     : PolSt := {}
  fab : FabSt := {}
  hbm : HbmSt := {}
  qdr : QdrSt := {}
  tap : Tap := {}
  fw : FwSt := {}
  deriving DecidableEq, Repr

/-- The machine right after reset: every domain released after a first power-up (R79); dictionary objects at their defaults.
Log entries 3, 4 and 5 (DESIGN CHOICE and DEDUCED). -/
def State.reset : State := {}

end Sys2Proof.Machine
end

