-- ==== Sys2Proof/Machine/Ops.lean ====
section
/-!
DEFINITION. The operations that every chapter shares: reading, writing and counting in dictionary objects; time; free values;
MSI-X signals and event records; and the access to a dictionary object with the gates that every path passes first.
-/

namespace Sys2Proof.Machine

/-! ### Objects -/

/-- The value of an object: what it holds, or its default (R30). Log entries 5 (DEDUCED and DESIGN CHOICE), 15 (DEDUCED and DESIGN CHOICE). -/
def State.rd (s : State) (k : Nat) : Nat := mget s.objs (dfltOf k) k

/-- Give an object a value. Log entry 15 (DEDUCED and DESIGN CHOICE). -/
def State.wr (s : State) (k v : Nat) : State := { s with objs := mset s.objs (dfltOf k) k v }

/-- Return an object to its default. -/
def State.toDflt (s : State) (k : Nat) : State := { s with objs := mdel s.objs k }

/-- The type of an object. -/
def tyOf (k : Nat) : Ty := ((lookup (k / 256) (k % 256)).map Row.ty).getD .u64

/-- A counter after `n` more occurrences (R514): a U64 counter wraps, a narrower one saturates. Log entry 74 (DEDUCED). -/
def counted (t : Ty) (v n : Nat) : Nat :=
  match t with
  | .u8 => min (v + n) 0xFF
  | .u16 => min (v + n) 0xFFFF
  | .u32 => min (v + n) 0xFFFFFFFF
  | _ => (v + n) % 18446744073709551616

/-- Count `n` occurrences in a counter object (R514). Log entry 74 (DEDUCED). -/
def State.add (s : State) (k n : Nat) : State := s.wr k (counted (tyOf k) (s.rd k) n)

/-- Count one occurrence. Log entry 74 (DEDUCED). -/
def State.inc (s : State) (k : Nat) : State := s.add k 1

/-- A signed object. -/
def State.rdS (s : State) (k : Nat) : Int := toS32 (s.rd k)

/-- Write a signed object. -/
def State.wrS (s : State) (k : Nat) (v : Int) : State := s.wr k (ofS32 v)

/-- Record a status in an object that holds one. -/
def State.wrSt (s : State) (k : Nat) (st : Status) : State := s.wr k st.code

/-- Write an object when a condition holds. -/
def State.wrIf (s : State) (c : Bool) (k v : Nat) : State := if c then s.wr k v else s

/-- Send something to the outside. Log entry 7 (DESIGN CHOICE). -/
def State.emit (s : State) (o : Out) : State := { s with out := o :: s.out }

/-- The bytes of an OCTETS object of `n` bytes. -/
def State.rdB (s : State) (k n : Nat) : List Byte := leBytes n (s.rd k)

/-- Write an OCTETS object. -/
def State.wrB (s : State) (k : Nat) (l : List Byte) : State := s.wr k (leNat l)

/-! ### Time and free values -/

/-- PCLK cycles since the last POR (R20, R59). -/
def State.pclk (s : State) : Nat := s.ticks / 24

/-- PIPE cycles since the last POR: those for which PIPE runs (R20, R86). -/
def State.pipe (s : State) : Nat := s.ticks / 4 - s.pwr.pipeOff

/-- PIPE cycles since the release of PIPE, which number the timeslots of the core (R340). -/
def State.coreSlot (s : State) : Nat := s.pipe - s.pwr.pipeStart

/-- A value that the manual leaves open; the next one differs. Log entries 8 (DESIGN CHOICE), 13 (DEDUCED and DESIGN CHOICE). -/
def State.open_ (s : State) : BitVec 64 × State := (Config.freeValue s.free, { s with free := s.free + 1 })

/-- One of several values where the manual leaves open which. Log entry 13 (DEDUCED and DESIGN CHOICE). -/
def State.oneOf (s : State) (l : List Nat) : Nat × State :=
  if l.length ≤ 1 then (l.headD 0, s) else let v := s.open_; (l.getD (v.1.toNat % l.length) 0, v.2)

/-- A choice that the manual leaves open. Log entry 13 (DEDUCED and DESIGN CHOICE). -/
def State.openBit (s : State) : Bool × State := let v := s.open_; (bit v.1.toNat 0, v.2)

/-- What a read of a statistics pair, or of a policer, meets where the command that makes it does not tell: open (R448, R485).
Log entry 25 (DEDUCED). -/
def State.openPair (s : State) : PairRead × State :=
  let v := s.open_
  let n := v.1.toNat
  ({ parityBad := bit n 0, part := ⟨n / 2 % 2, Nat.mod_lt _ (by decide)⟩
     ecc := if n / 4 % 3 = 0 then .clean else if n / 4 % 3 = 1 then .corrected else .uncorrectable }, v.2)

/-! ### Function states -/

/-- STATE of a function (R50, R58). -/
abbrev O.state (f : Fn) : Nat := O.fnState f.code

/-- The state of a function. -/
def State.fnState (s : State) (f : Fn) : Nat := s.rd (O.state f)

/-- Set the state of a function. -/
def State.setFn (s : State) (f : Fn) (v : Nat) : State := s.wr (O.state f) v

/-- Is a function RUNNING? -/
def State.running (s : State) (f : Fn) : Bool := s.fnState f == RUNNING

/-- Is a function in a state in which RWS objects are closed (R29)? -/
def State.active (s : State) (f : Fn) : Bool :=
  s.fnState f == STARTING || s.fnState f == RUNNING || s.fnState f == STOPPING

/-- The transitions of a function. -/
def State.fn (s : State) (f : Fn) : FnSt := mget s.fns {} f.code

/-- Change the transitions of a function. -/
def State.updFn (s : State) (f : Fn) (g : FnSt → FnSt) : State := { s with fns := mupd s.fns {} f.code g }

/-! ### Performance counters (R474 to R476) -/

/-- The filters that apply to an event, as the letters P, M, A, T of R475: privilege, master, address, traffic class. -/
def perfFilters (code : Nat) : Bool × Bool × Bool × Bool :=
  match code with
  | 0x0010 | 0x0011 | 0x0022 | 0x0040 => (false, true, false, true)
  | 0x0012 | 0x0041 => (false, true, false, false)
  | 0x0020 | 0x0021 | 0x0030 | 0x0031 | 0x0032 => (true, true, true, false)
  | 0x0023 => (true, true, false, false)
  | 0x0100 | 0x0101 => (false, false, true, true)
  | 0x0102 | 0x0103 | 0x0150 => (false, false, true, false)
  | 0x0110 | 0x0111 | 0x0120 | 0x0130 | 0x0131 | 0x0140 => (false, false, false, true)
  | _ => (false, false, false, false)

/-- What an occurrence of an event shows to the filters (R476): class of privilege, master, address, traffic class. -/
structure Occurrence where
  priv   : Nat := 0
  master : Nat := 0
  addr   : Nat := 0
  tc     : Option Nat := none
  deriving DecidableEq, Repr

/-- An access by a master (R476): what the management controller does, learners and sweepers included, is of class MC. The manual names no class for
learners and sweepers. Log entry 71 (DESIGN CHOICE). -/
def Occurrence.by (master : Nat) : Occurrence := { priv := if master = 2 || master = 0x50 then 2 else 0, master := master }

/-- The master that makes the accesses of a path (R476). -/
def Path.master (p : Path) : Nat := if p = .kdp then 2 else 0

/-- Does an occurrence of an event pass the filters of a counter (R476)? -/
def State.passes (s : State) (n code : Nat) (o : Occurrence) : Bool :=
  let f := perfFilters code
  (!f.1 || bit (s.rd (O.pcPriv n)) o.priv)
    && (!f.2.1 || s.rd (O.pcMaster n) == 0xFF || s.rd (O.pcMaster n) == o.master)
    && (!f.2.2.1 || (decide (s.rd (O.pcAddrLo n) ≤ o.addr) && decide (o.addr ≤ s.rd (O.pcAddrHi n))))
    && (!f.2.2.2 || match o.tc with
      | some c => bit (s.rd (O.pcTcMask n)) c
      | none => true)

/-- `num` occurrences of an event on the F-die (`t` false) or the T-die: the counters on it add them (R474, R475, R477, R55).
Log entry 71 (DEDUCED). -/
def State.perfEvent (s : State) (t : Bool) (code num : Nat) (o : Occurrence) : State :=
  if !s.running .perf || s.rd O.frozen == 1 then s
  else (List.range 48).foldl (fun s i =>
    let n := if t then i + 48 else i
    if s.rd (O.pcEvent n) == code && s.passes n code o then s.add (O.pcValue n) num else s) s

/-- One occurrence at each of `len` addresses from `addr` on, on the F-die (`t` false) or the T-die (R476): a counter gains those in its range. -/
def State.perfRange (s : State) (t : Bool) (code addr len : Nat) (o : Occurrence) : State :=
  if !s.running .perf || s.rd O.frozen == 1 then s
  else (List.range 48).foldl (fun s i =>
    let c := if t then i + 48 else i
    let lo := max addr (s.rd (O.pcAddrLo c))
    let n := min (addr + len) (s.rd (O.pcAddrHi c) + 1) - lo
    if n ≠ 0 && s.rd (O.pcEvent c) == code && s.passes c code { o with addr := lo } then s.add (O.pcValue c) n else s) s

/-- Occurrences whose number and address the manual does not give: the counters on the event gain an open number. -/
def State.perfOpen (s : State) (t : Bool) (code : Nat) (o : Occurrence) : State :=
  if s.running .perf && (List.range 48).any (fun i => s.rd (O.pcEvent (if t then i + 48 else i)) == code) then
    let v := s.open_
    let w := v.2.open_
    w.2.perfEvent t code v.1.toNat { o with addr := w.1.toNat % 301989888 }
  else s

/-! ### MSI-X and event records -/

/-- Can requests leave the endpoint (R103, R125, R127, R515)? -/
def State.linkOpen (s : State) : Bool := s.rd O.pcieLinkState == 2 && s.host.bme && !s.host.d3hot && !s.host.flr

/-- Can event records, MSI-X messages and new descriptors go (R63, R125)? -/
def State.canSend (s : State) : Bool := s.running .host && s.linkOpen

/-- Does the endpoint take memory requests (R106, R127)? -/
def State.memOpen (s : State) : Bool := s.host.memSpace && !s.host.flr

/-- An MSI-X vector. -/
def State.vec (s : State) (v : Nat) : Vector := mget s.host.vectors {} v

/-- Change an MSI-X vector. -/
def State.updVec (s : State) (v : Nat) (f : Vector → Vector) : State :=
  { s with host := { s.host with vectors := mupd s.host.vectors {} v f } }

/-- Send the message of a vector, or set its pending bit (R117). -/
def State.sendVector (s : State) (v : Nat) : State :=
  if (s.vec v).masked || !s.canSend then
    s.updVec v fun x => { x with pending := true, unsent := 0 }
  else
    ((s.updVec v fun x => { x with pending := false, unsent := 0 }).inc (O.msixSent v)).emit (.msix v (s.vec v).addr (s.vec v).data)

/-- A signal of a vector (R117); a halt of a DMA ring sends at once. -/
def State.signal (s : State) (v : Nat) (now : Bool) : State :=
  let s := s.updVec v fun x => { x with unsent := x.unsent + 1 }
  if now || decide ((s.vec v).unsent ≥ s.rd (O.coalCount v)) then s.sendVector v else s

/-- Send the messages that pending bits owe, once sending is possible again (R117, R125, R515). -/
def State.sendPending (s : State) : State :=
  (List.range 64).foldl
    (fun s v => if (s.vec v).pending && !(s.vec v).masked && s.canSend then s.sendVector v else s) s

/-- An event ring beside its objects. -/
def State.ring (s : State) (r : Nat) : EvRing := mget s.host.rings {} r

/-- Change an event ring. -/
def State.updRing (s : State) (r : Nat) (f : EvRing → EvRing) : State :=
  { s with host := { s.host with rings := mupd s.host.rings {} r f } }

/-! ### Tags and translations (R118, R123) -/

/-- Change the outstanding requests. -/
def State.updReads (s : State) (f : NMap ReadReq → NMap ReadReq) : State :=
  { s with host := { s.host with reads := f s.host.reads } }

/-- The tags that the device may draw now (R118): first tag and their number. -/
def State.tagRange (s : State) : Nat × Nat :=
  if s.host.tag14 && s.rd O.flitMode == 1 then (0x100, 1024)
  else if s.host.tag10 then (0x100, 768)
  else (0, 256)

/-- A free tag, if the limit of R118 allows one more request. Log entry 39 (DEDUCED and DESIGN CHOICE). -/
def State.freeTag (s : State) : Option Nat :=
  if s.host.reads.length ≥ 768 then none
  else (List.range s.tagRange.2).map (· + s.tagRange.1) |>.find? fun t =>
    (mfind s.host.reads t).isNone && !s.host.quarantine.contains t

/-- The number of requests that await completion (R107). -/
def State.countReads (s : State) : State := s.wr O.outstandingNp s.host.reads.length

/-- Issue a request under a tag. -/
def State.request (s : State) (tag : Nat) (q : ReadReq) (o : Out) : State := ((s.updReads fun m => mput m tag q).countReads).emit o

/-- Does a cache entry hold a page? -/
def AtsEntry.holds (e : AtsEntry) (page : Nat) : Bool := e.page / 2 ^ e.sizeLog2 == page / 2 ^ e.sizeLog2

/-- Does the translation cache hold a page (R123)? -/
def State.atsHit (s : State) (page : Nat) : Bool := s.host.cache.any fun e => e.holds page

/-- A DMA access uses the translation of its page (R107, R123): the entry becomes the most recently used. The manual does not say whether an access that missed
counts in ATS_HITS too, once it uses the translation granted: it does. Log entry 39 (DEDUCED and DESIGN CHOICE). -/
def State.hitPage (s : State) (page : Nat) : State :=
  if s.host.atsEnable then
    let hit := fun (e : AtsEntry) => e.holds page
    { s.inc O.atsHits with host := { s.host with cache := s.host.cache.filter hit ++ s.host.cache.filter fun e => !hit e } }
  else s

/-- Request a translation for ring `ring` (0 to 63), once a tag is free (R118, R123). -/
def State.requestPage (s : State) (ring page : Nat) : State :=
  match s.freeTag with
  | some tag =>
    (s.inc O.atsMisses).request tag { kind := .translate, ring := ring, slot := 0, addr := page * 4096, offset := 0, length := 0, left := 0 }
      (.translate tag ring page)
  | none => s

/-- Does a ring await a translation? -/
def State.asking (s : State) (ring : Nat) : Bool :=
  s.host.reads.any fun (e : Nat × ReadReq) => e.2.kind == .translate && e.2.ring == ring && !e.2.orphan

/-- Host address of a slot of an event ring (R62). -/
def State.slotAddr (s : State) (r slot : Nat) : Nat := s.rd (O.ringBase r) + 32 * slot

/-- The 32 bytes of a record (R59). -/
def EvRec.bytes (e : EvRec) : List Byte :=
  leBytes 2 e.type ++ leBytes 1 e.func ++ leBytes 1 (e.severity * 16 + b2n e.overflow * 8) ++ leBytes 4 e.seq
    ++ leBytes 8 e.time ++ leBytes 4 e.arg0 ++ leBytes 4 e.arg1 ++ leBytes 4 e.arg2 ++ zeros 2 ++ leBytes 1 e.ring
    ++ leBytes 1 (b2n e.phase)

/-- Is the event ring full (R62)? Records that wait for a translation hold their slots. Log entry 29 (DEDUCED and DESIGN CHOICE). -/
def State.ringFull (s : State) (r : Nat) : Bool :=
  (s.rd (O.ringHead r) + (s.ring r).waiting.length + 1) % 2 ^ s.rd (O.ringSizeLog2 r) == s.rd (O.ringTail r)

/-- Drop a record of a ring (R63). -/
def State.dropRecord (s : State) (r : Nat) : State :=
  (s.inc (O.ringLost r)).updRing r fun x => { x with dropped := true }

/-- Write a record into the next slot of its ring (R59, R62, R63) and signal its vector. Log entry 29 (DEDUCED and DESIGN CHOICE). -/
def State.writeRecord (s : State) (e : EvRec) : State :=
  let r := e.ring
  let x := s.ring r
  let head := s.rd (O.ringHead r)
  let e := { e with overflow := x.dropped, phase := x.phase }
  let next := (head + 1) % 2 ^ s.rd (O.ringSizeLog2 r)
  let s := s.emit (.event (s.slotAddr r head) e)
  let s := s.perfRange false 0x0032 (s.slotAddr r head) 32 (.by 1)
  let s := s.wr (O.ringHead r) next
  let s := s.updRing r fun x => { x with dropped := false, phase := if next = 0 then !x.phase else x.phase }
  s.signal r false

/-- The page of a ring's next slot. -/
def State.recordPage (s : State) (r : Nat) : Nat := s.slotAddr r (s.rd (O.ringHead r)) / 4096

/-- Records reach their ring in order (R59, R123): each is written once its slot's page is translated; on a miss the ring asks, and the
rest wait. Log entry 29 (DEDUCED and DESIGN CHOICE). -/
def State.sendRecords (r : Nat) : List EvRec → State → State
  | [], s => s
  | e :: t, s =>
    if s.rd (O.ringEnable r) == 1 && s.canSend then
      if s.host.atsEnable && !s.atsHit (s.recordPage r) then
        (s.updRing r fun x => { x with waiting := e :: t }).requestPage r (s.recordPage r)
      else State.sendRecords r t ((s.hitPage (s.recordPage r)).writeRecord e)
    else State.sendRecords r t (s.dropRecord r)

/-- The records that an event ring holds back go on. -/
def State.flushRing (s : State) (r : Nat) : State :=
  State.sendRecords r (s.ring r).waiting (s.updRing r fun x => { x with waiting := [] })

/-- The records that an event ring holds back are dropped and counted (R63). -/
def State.dropWaiting (s : State) (r : Nat) : State :=
  (s.ring r).waiting.foldl (fun s _ => s.dropRecord r) (s.updRing r fun x => { x with waiting := [] })

/-- No record can reach a ring any more: those held back are dropped too (R63, R125, R515). -/
def State.dropAllWaiting (s : State) : State := (List.range 16).foldl State.dropWaiting s

/-- A KDP datagram of the block: 24-byte header, records, HMAC (R42, R46). Log entry 24 (DEDUCED and DESIGN CHOICE). -/
def kdpDatagram (opcode requestId slot count status flags : Nat) (records : List Byte) (k : Option (List Byte)) : List Byte :=
  let head := beBytes 2 0x4B44 ++ [1#8, BitVec.ofNat 8 opcode] ++ beBytes 4 requestId
    ++ [BitVec.ofNat 8 slot, BitVec.ofNat 8 count] ++ beBytes 2 records.length
    ++ [BitVec.ofNat 8 status, BitVec.ofNat 8 flags] ++ zeros 2 ++ beBytes 8 Config.serial.toNat
  let body := head ++ records
  body ++ (match k with
    | some key => fit (Config.hmacSha256 key body) 32
    | none => zeros 32)

/-- The key of a KDP slot. -/
def State.kdpKey (s : State) (slot : Nat) : Option (List Byte) := if slot = 0 then s.svc.key0 else s.svc.key1

/-- Is the management port able to send (R48, R55, R100)? -/
def State.mgmtUp (s : State) : Bool := s.running .mgmt && s.svc.mgmtPll

/-- Forward a record that is selected for forwarding (R49). The manual does not say what GEN and FLAGS [0] of such a
datagram are. Log entry 29 (DEDUCED and DESIGN CHOICE). -/
def State.forward (s : State) (e : EvRec) : State :=
  match s.kdpKey (s.rd O.kdpEventSlot) with
  | some k =>
    if bit (s.rd O.kdpEventRings) e.ring && s.rd O.kdpEventDest != 0 && s.mgmtUp then
      let v := s.open_
      let q := v.2.svc.eventSeq
      let s := v.2.emit (.datagram (s.rd O.kdpEventDest) (s.rd O.kdpEventPort)
        (kdpDatagram 3 (v.1.toNat / 2 % 16 * 2 ^ 28 + q % 2 ^ 28) (s.rd O.kdpEventSlot) 0 0 (v.1.toNat % 2) e.bytes (some k)))
      { s with svc := { s.svc with eventSeq := q + 1 } }
    else s
  | none => s

/-- Raise an event record (R49, R59, R61, R62, R63, R123) with the arguments that reach it. A count in an argument saturates (R514).
The copy that R49 forwards carries the OVERFLOW and PHASE that the record would carry if its ring took it next: the manual gives both
only for a record written to the ring, so for a record that is dropped they are the model's choice.
Log entries 29 (DEDUCED and DESIGN CHOICE), 30 (DEDUCED and DESIGN CHOICE). -/
def State.raiseNow (s : State) (r type func sev a0 a1 a2 : Nat) : State :=
  if sev < s.rd (O.ringSevMin r) then s
  else
    let x := s.ring r
    let e : EvRec := { type := type, func := func, severity := sev, overflow := x.dropped, seq := x.seq, time := s.pclk,
                       arg0 := min a0 0xFFFFFFFF, arg1 := min a1 0xFFFFFFFF, arg2 := min a2 0xFFFFFFFF, ring := r, phase := x.phase }
    let s := s.updRing r fun x => { x with seq := (x.seq + 1) % 4294967296 }
    let s := s.forward e
    if s.rd (O.ringEnable r) == 1 && !s.ringFull r && s.canSend then
      if (s.ring r).waiting.isEmpty then State.sendRecords r [e] s else s.updRing r fun x => { x with waiting := x.waiting ++ [e] }
    else s.dropRecord r

/-! ### Evrad channels -/

/-- A channel. -/
def State.chan (s : State) (n : Nat) : EvChan := mget s.ev {} n

/-- Change a channel. -/
def State.updChan (s : State) (n : Nat) (f : EvChan → EvChan) : State := { s with ev := mupd s.ev {} n f }

/-- A packet, an access or a record arrives over a channel: its flit got through, so that the replays that had failed were not 16 in a row
(R11). Log entry 37 (DEDUCED). -/
def State.carried (s : State) (n : Nat) : State :=
  if (s.chan n).failedReplays = 0 then s else s.updChan n fun c => { c with failedReplays := 0 }

/-- Does a record come from the T-die, so that channel 17 carries it (R8, R10)? Its function sits there, or it is an ECC report of QA_ or
QB_. The two records of R11 and R12 report the link itself. Log entry 37 (DEDUCED and DESIGN CHOICE). -/
def fromTDie (type func a0 : Nat) : Bool :=
  ([0x0A, 0x0B, 0x0C, 0x0D, 0x0E, 0x10, 0x15].contains func && type != 0x04A0 && type != 0x04A1)
    || ((type == 0x03F0 || type == 0x04F0) && decide (a0 < 2))

/-- Raise an event record: one of the T-die waits while channel 17 retrains, and does not arrive once the channel is FAILED (R11, R12).
Log entry 37 (DEDUCED and DESIGN CHOICE). -/
def State.raise (s : State) (r type func sev a0 a1 a2 : Nat) : State :=
  if fromTDie type func a0 && s.rd (O.evradState 17) == 2 then
    { s with host := { s.host with late := s.host.late ++ [⟨r, type, func, sev, a0, a1, a2⟩] } }
  else if fromTDie type func a0 && s.rd (O.evradState 17) == 3 then s
  else (if fromTDie type func a0 then s.carried 17 else s).raiseNow r type func sev a0 a1 a2

/-- A rate-limited record: at most one per `gap` PCLK cycles for each `id` (a TYPE, or a TYPE with an element number).
Log entry 29 (DEDUCED and DESIGN CHOICE). -/
def State.raiseLimited (s : State) (id gap : Nat) (r type func sev a0 a1 a2 : Nat) : State :=
  match mfind s.host.limits id with
  | some t => if s.pclk < t + gap then s
              else { s with host := { s.host with limits := mput s.host.limits id s.pclk } }.raise r type func sev a0 a1 a2
  | none => { s with host := { s.host with limits := mput s.host.limits id s.pclk } }.raise r type func sev a0 a1 a2

/-! ### Dictionary traffic -/

/-- The byte offset of an object in BAR0 (R33). -/
def bar0Offset (k : Nat) : Nat := k / 256 * 2048 + k % 256 * 8

/-- A dictionary access completed on a path (event 0x0030; R476). Log entry 71 (DEDUCED). -/
def State.countAccess (s : State) (p : Path) (k : Nat) : State :=
  s.perfEvent false 0x0030 1 { Occurrence.by (Path.master p) with addr := bar0Offset k }

/-! ### Access to the dictionary -/

/-- Is the object in the recovery subset (R131, R468)? Log entry 16 (DEDUCED and DESIGN CHOICE). -/
def inRecovery (k : Nat) : Bool :=
  let i := k / 256
  let sub := k % 256
  i == 0x1000 || i == 0x1001 || i == 0x1002 || i == 0x1200 || i == 0x2500 || i == 0x3000 || i == 0x3010 || i == 0x3020
    || i == 0x3022 || i == 0x3023 || (i == 0xA000 && sub ≤ 0x0A) || i == 0xA001 || i == 0xA002

/-- Is the object's unit on the T-die (R8, R9)? The control objects of a function go with its unit. Log entry 16 (DEDUCED and DESIGN CHOICE). -/
def onTDie (k : Nat) : Bool :=
  let i := k / 256
  (0x7000 ≤ i && i < 0x8400) || (0x9000 ≤ i && i < 0x9400) || (0x4360 ≤ i && i < 0x43F0) || (0xB040 ≤ i && i < 0xB070)
    || i == 0x9410 || i == 0x9411
    || i == 0x110A || i == 0x110B || i == 0x110C || i == 0x110D || i == 0x110E || i == 0x1110 || i == 0x1115

/-- Is the object in a range that R75 keeps through a CORE reset, the always-on domain's among them? Others answer BUSY meanwhile (R79).
Log entries 16 (DEDUCED and DESIGN CHOICE), 32 (DEDUCED). -/
def keptByCore (k : Nat) : Bool :=
  let i := k / 256
  (0x1200 ≤ i && i < 0x1300) || (0x2500 ≤ i && i < 0x2600) || (0x3000 ≤ i && i < 0x3500)

/-- What a function answers to new work of its tables that it does not take: it takes some while STOPPED or RUNNING (R55, R286, R312). The
manual names the status for DISABLED only. Log entry 26 (DEDUCED and DESIGN CHOICE). -/
def State.workRefused (s : State) (f : Fn) : Option Status :=
  if s.fnState f = DISABLED then some .functionDisabled
  else if s.fnState f = STARTING then some .busy
  else if s.fnState f = STOPPING then some .busyStopping
  else none

/-- Is a function between its states, so that descriptors for its tables wait? -/
def State.between (s : State) (f : Fn) : Bool := s.fnState f == STARTING || s.fnState f == STOPPING

/-- What meets an access before the object itself answers: nothing, a status, silence, the wait of R12, or the endpoint, which does not
support the request (R106, R127). -/
inductive Gate
  | pass
  | refuse (st : Status)
  | silent
  | hold
  | unsupported
  deriving DecidableEq, Repr

/-- The Evrad control channels as an access to a T-die object finds them: the worse of channels 16 and 17 (R12, R79).
Log entry 16 (DEDUCED and DESIGN CHOICE). -/
def State.evradGate (s : State) : Gate :=
  if s.rd (O.evradState 16) == 3 || s.rd (O.evradState 17) == 3 then .refuse .internal
  else if s.rd (O.evradState 16) == 0 || s.rd (O.evradState 17) == 0 then .refuse .busy
  else if s.rd (O.evradState 16) == 2 || s.rd (O.evradState 17) == 2 then .hold
  else .pass

/-- Is the object one that an access reaches over the Evrad control channels (R8 to R10)? -/
def onLink (k : Nat) : Bool := onTDie k && (lookup (k / 256) (k % 256)).isSome

/-- An access to the object goes through: channels 16 and 17 carry it and its completion (R10, R11). -/
def State.linked (s : State) (k : Nat) : State := if onLink k then (s.carried 16).carried 17 else s

/-- The entries of SETTINGS_LIST, up to the first that is zero (R466). -/
def State.settingsEntries (s : State) : List Nat :=
  let l := s.rdB O.settingsList 2048
  ((List.range 512).map fun i => be l (4 * i) 4).takeWhile fun e => e ≠ 0

/-- The settings store in force (R464). -/
def State.storeInForce (s : State) : Nat := s.fw.store.getD Config.flashStore.toNat

/-- A settings store: as written, or as delivered. -/
def State.setStore (s : State) (n : Nat) : SetStore :=
  (mfind s.fw.stores n).getD { format := Config.flashFormat n, entries := Config.flashSettings n }

/-- The store that SETTINGS_CMD acts on (R465, R466): during a trial, the other one. -/
def State.saveStore (s : State) : Nat := if s.rd O.bootState = 1 then 1 - s.storeInForce else s.storeInForce

/-- Does a SETTINGS_CMD reach objects of the T-die: those that SAVE reads or APPLY writes (R466)? The manual does not say what an outage does
to such a command: it waits whole. Log entry 70 (DEDUCED and DESIGN CHOICE). -/
def State.settingsLinked (s : State) : Bool :=
  s.settingsEntries.any onLink || (s.setStore s.saveStore).entries.any fun e => onLink e.1

/-- Has PCLK been released, so that the dictionary service runs (R78, R79)? Log entry 2 (DESIGN CHOICE). -/
def State.alive (s : State) : Bool := bit s.pwr.released 3

/-- What stands between the dictionary service and an object: PCLK (R78), MC_STATE (R131), a reset in progress (R79), the Evrad control
channels (R12, R79). Log entries 3 (DEDUCED and DESIGN CHOICE), 16 (DEDUCED and DESIGN CHOICE), 17 (DEDUCED). -/
def State.reach (s : State) (k : Nat) : Gate :=
  if !s.alive || s.mcState = 3 then .silent
  else if s.mcState = 0 && !inRecovery k then .refuse .busy
  else if s.mcState = 2 && !inRecovery k then .refuse .noObject
  else if s.pwr.resetting = some .core && !keptByCore k then .refuse .busy
  else if onLink k then s.evradGate
  else if k = O.settingsCmd && s.evradGate = .hold && s.settingsLinked then .hold
  else .pass

/-- Does neither key slot hold a key (R47)? -/
def State.keyless (s : State) : Bool := s.svc.key0.isNone && s.svc.key1.isNone

/-- Is the object one of the identity range that KDP reads without a key (R42, R47)? -/
def identityObject (k : Nat) : Bool := decide (0x1000 ≤ k / 256) && decide (k / 256 ≤ 0x10FF)

/-- Is an access of the mailbox in progress: one of MBX_CMD, or one that waits for the end of an outage (R37, R38)? -/
def State.mbxTaken (s : State) : Bool := s.svc.mbx.isSome || s.svc.held.any fun h => h.path == .mailbox

/-- While an access of the mailbox is performed or waits, MBX_STATE reads BUSY (R37). Log entry 23 (DEDUCED). -/
def State.atMailbox (s : State) (p : Path) : State := if p = .mailbox then s.wr O.mbxState 1 else s

/-- What meets an access of a path before its object: KDP is silent until the controller and the port are up (R55, R131) and executes
nothing else while neither key slot holds a key, unless the access is `free` of that rule (R47); the mailbox takes one access at a time
(R38); an access waits behind one that an outage of the control channels holds (R12, R31); and through the window the endpoint stands
before them all (R106, R127). Log entry 17 (DEDUCED). -/
def State.pathGate (s : State) (p : Path) (free : Bool) (k : Nat) : Gate :=
  if !s.alive then .silent
  else if p = .window && !s.memOpen then .unsupported
  else if s.reach k = .silent then .silent
  else if p = .kdp && (s.mcState != 1 || !s.mgmtUp) then .silent
  else if p = .kdp && s.keyless && !free then .refuse .authFail
  else if p = .mailbox && s.mbxTaken then .refuse .busy
  else if !s.svc.held.isEmpty then .hold
  else s.reach k

/-- The gates of a write or a command. -/
def State.gate (s : State) (p : Path) (k : Nat) : Gate := s.pathGate p false k

/-- The gates of a read: identity objects need no key (R47). -/
def State.gateRead (s : State) (p : Path) (k : Nat) : Gate := s.pathGate p (identityObject k) k

/-- An access waits for the end of the outage (R12). Log entry 37 (DEDUCED and DESIGN CHOICE). -/
def State.hold (s : State) (h : HeldAccess) : State :=
  { s with svc := { s.svc with held := s.svc.held ++ [h] } }.atMailbox h.path

/-- A memory request that the endpoint does not support (R106): a posted one is dropped, another completed with Unsupported Request. Its
header is open. -/
def State.unsupported (s : State) (posted : Bool) : State :=
  let v := s.open_
  let s := (v.2.inc O.urReceived).emit (.aer "Unsupported Request" v.1.toNat)
  if posted then s else s.emit (.unsupported v.1.toNat)

/-- A window access other than the second half drops a staged or captured half (R34); index 0x3010 counts as any access. Log entry 22 (DEDUCED). -/
def State.dropHalves (s : State) : State :=
  let s := if s.svc.stage.isSome then s.inc O.winRefused else s
  { s with svc := { s.svc with stage := none, capture := none } }

/-- Record the status of a window write (R35). Accesses to index 0x3010 do not change its objects. -/
def State.windowWrote (s : State) (k : Nat) (st : Status) : State :=
  if k / 256 = 0x3010 then s
  else
    let s := (s.wrSt O.winWriteStatus st).wr O.winWriteObject k
    if st = .ok then s else s.inc O.winRefused

/-- Record the status of a window read (R35). Log entry 21 (DEDUCED). -/
def State.windowRead (s : State) (k : Nat) (st : Status) : State :=
  if k / 256 = 0x3010 then s
  else
    let s := s.wrSt O.winReadStatus st
    if st = .ok then s else s.inc O.winRefused

/-- The end of a mailbox access (R37, R39, R60): MBX_STATE DONE, the status, and MAILBOX_DONE on ring 0. Log entry 21 (DEDUCED). -/
def State.mailboxDone (s : State) (object bytes : Nat) (st : Status) : State :=
  let s := (s.wr O.mbxState 2).wrSt O.mbxStatus st
  s.raise 0 0x0002 0 (doneSeverity st WARNING) object (if st = .ok then bytes else 0) st.code

/-- A write of MBX_CMD that would begin an access finds the mailbox BUSY (R38): it is refused, and the access in progress continues.
Log entry 23 (DEDUCED). -/
def State.mailboxBusy (s : State) (k : Nat) (st : Status) : State := (s.windowWrote O.mbxCmd .busy).emit (.access .mailbox k st)

/-- A KDP request that fails authentication is not executed (R46, R47). -/
def State.unauthentic (s : State) (k : Nat) : State := (s.inc O.kdpAuthFails).emit (.access .kdp k .authFail)

/-- The end of a dictionary command or write on its path. Log entry 21 (DEDUCED). -/
def State.finish (s : State) (p : Path) (k bytes : Nat) (st : Status) : State :=
  let s := s.countAccess p k
  match p with
  | .window => (s.windowWrote k st).emit (.access p k st)
  | .mailbox => (({ s with svc := { s.svc with mbx := none } }).mailboxDone k bytes st).emit (.access p k st)
  | .kdp => s.emit (.access p k st)

/-- The end of an access that the gates refuse: nothing is performed when the mailbox is BUSY (R38) or the request is not authentic (R47). -/
def State.accessRefused (s : State) (p : Path) (k bytes : Nat) (st : Status) : State :=
  if p = .mailbox && s.mbxTaken then s.mailboxBusy k st
  else if p = .kdp && st == .authFail then s.unauthentic k
  else s.finish p k bytes st

/-- The bytes of a CMD value: code and argument (R28). -/
def cmdData (code : Nat) (arg : BitVec 24) : List Byte := leBytes 4 (code + 256 * arg.toNat)

/-- A write access to an object by the path `p` that carries `data`: the gates, then the effect `f`, then the path's record of the status.
Log entry 17 (DEDUCED). -/
def access (p : Path) (k : Nat) (data : List Byte) (f : State → State × Status) (s : State) : State :=
  let t := if p = .window then s.dropHalves else s
  match s.gate p k with
  | .silent => s
  | .unsupported => s.unsupported true
  | .hold => s.hold { path := p, write := true, key := k, offset := 0, data := data, length := data.length }
  | .refuse st => t.accessRefused p k data.length st
  | .pass =>
    let r := f (t.linked k)
    r.1.finish p k data.length r.2

/-- A command whose row's argument must be zero (R3, R28). Log entry 19 (DEDUCED). -/
def noArg (arg : BitVec 24) (f : State → State × Status) (s : State) : State × Status :=
  if arg = 0 then f s else (s, .range)

/-- An outcome that only changes the state. Log entry 6 (DEDUCED and DESIGN CHOICE). -/
abbrev done (s : State) : Host.Outcome State Fault Refusal := .next s

end Sys2Proof.Machine
end

