-- ==== Sys2Proof/Machine/Host.lean ====
section
/-!
DEFINITION. The PCIe host endpoint (chapter 04): the link, configuration controls, DMA rings and their descriptors, tags and
reads, address translation, MSI-X and the teardowns. DMA ring r is `n = r - 16` here, as its objects are.
-/

namespace Sys2Proof.Machine

/-! ### Rings -/

/-- A DMA ring beside its objects. -/
def State.dring (s : State) (n : Nat) : DRing := mget s.host.drings {} n

/-- Change a DMA ring. -/
def State.updD (s : State) (n : Nat) (f : DRing → DRing) : State :=
  { s with host := { s.host with drings := mupd s.host.drings {} n f } }

/-- Slots of a DMA ring. -/
def State.dsize (s : State) (n : Nat) : Nat := 2 ^ s.rd (O.dringSizeLog2 n)

/-- Is a DMA ring ARMED? -/
def State.armed (s : State) (n : Nat) : Bool := s.rd (O.dringState n) == RING_ARMED

/-- Does a ring of this kind move data to the host (R108)? -/
def toHost (kind : Nat) : Bool := kind == 2 || kind == 3 || kind == 5

/-- The data of outstanding requests is dropped on arrival from now on (R121, R125). -/
def State.orphanIf (s : State) (f : ReadReq → Bool) : State :=
  s.updReads fun m => m.map fun e => (e.1, if f e.2 then { e.2 with orphan := true } else e.2)

/-- Is a request a read of a DMA ring? -/
def ReadReq.ofRing (q : ReadReq) (n : Nat) : Bool := q.kind != .translate && q.ring == n

/-- Every read of a ring. -/
def State.orphan (s : State) (n : Nat) : State := s.orphanIf fun q => q.ofRing n

/-- The data of every outstanding request is dropped on arrival, and its tag freed then (R125). -/
def State.orphanAll (s : State) : State := s.orphanIf fun _ => true

/-- The pages of a range of bus addresses. -/
def pagesOf (addr len : Nat) : List Nat := (List.range ((addr + len - 1) / 4096 - addr / 4096 + 1)).map (· + addr / 4096)

/-- The first page of a range that the translation cache does not hold, when translations are used (R123). -/
def State.missingPage (s : State) (addr len : Nat) : Option Nat :=
  if s.host.atsEnable then (pagesOf addr len).find? fun p => !s.atsHit p else none

/-- The translations of a range are used (R107, R123). -/
def State.hitPages (s : State) (addr len : Nat) : State := (pagesOf addr len).foldl State.hitPage s

/-- Bytes that DMA moves (events 0x0031 and 0x0032; R476). -/
def State.dmaBytes (s : State) (write : Bool) (addr len : Nat) : State :=
  s.perfRange false (if write then 0x0032 else 0x0031) addr len (.by 1)

/-- Write buffer data (R98, R116, R123). -/
def State.writeBuffer (s : State) (addr : Nat) (d : List Byte) : State :=
  ((s.hitPages addr d.length).emit (.dmaWrite addr d s.host.relaxed)).dmaBytes true addr d.length

/-- The bus address at which a slot's status is written (R113). -/
def State.statusAddr (s : State) (n slot : Nat) : Nat := s.rd (O.dringBase n) + 32 * slot + 24

/-- Write the status of the descriptor at the head and move the head past it (R113, R115, R117). -/
def State.completeHead (s : State) (n : Nat) (irq : Bool) (status len result : Nat) : State :=
  let head := s.rd (O.dringHead n)
  let next := (head + 1) % s.dsize n
  let ph := (s.dring n).phase
  let s := s.emit (.dmaStatus (n + 16) head len result status ph)
  let s := s.dmaBytes true (s.statusAddr n head) 8
  let s := (s.wr (O.dringHead n) next).inc (O.dringCompleted n)
  let s := s.updD n fun d => { d with phase := if next = 0 then !d.phase else d.phase }
  if irq then s.signal (n + 16) false else s

/-- A halt of a DMA ring with a cause (R110, R117, R132). Log entry 38 (DEDUCED and DESIGN CHOICE). -/
def State.haltRing (s : State) (n cause : Nat) : State :=
  let s := (s.wr (O.dringState n) RING_HALTED).wr (O.dringHaltCause n) cause
  let s := s.raise 4 0x0481 0x01 WARNING (n + 16) cause (s.rd (O.dringHead n))
  s.signal (n + 16) true

/-- Drop everything in flight on a ring; ARM fetches from the head again (R121, R126). -/
def State.dropFlight (s : State) (n : Nat) : State :=
  (s.orphan n).updD n fun d => { d with flight := [], fetched := s.rd (O.dringHead n), waitPage := none, owed := false, owing := [] }

/-- Has a descriptor in flight taken effect? One that failed has not: it waits with the status of its failure (R114, R121). -/
def Flight.taken (f : Flight) : Bool := f.effect && f.halt == 0

/-- Descriptors in flight that have not taken effect. -/
def unaffected (l : List Flight) : Nat := (l.filter fun f => !f.taken).length

/-- Write the status that the descriptor at the head owes after a teardown: its own if it took effect, ABORTED otherwise (R125, R126). A page that
the cache holds is used (R123). -/
def State.payOne (s : State) (n : Nat) (f : Flight) : State :=
  let a := s.statusAddr n (s.rd (O.dringHead n))
  let s := if (s.missingPage a 8).isNone then s.hitPages a 8 else s
  if f.taken then s.completeHead n (bit f.desc.flags 0) f.status f.length f.result
  else s.completeHead n (bit f.desc.flags 0) Status.aborted.code 0 0

/-- Write at once the statuses that a ring owes (R125, CORE reset). The reset lets no request out, so a page that the cache does not hold is
written without a translation. Log entry 39 (DEDUCED and DESIGN CHOICE). -/
def State.payFlight (s : State) (n : Nat) : State :=
  let d := s.dring n
  let s := (d.owing ++ d.flight).foldl (fun s f => s.payOne n f) s
  s.updD n fun d => { d with flight := [], fetched := s.rd (O.dringHead n), waitPage := none, owed := false, owing := [] }

/-- Is a ring ARMED or HALTING? -/
def State.live (s : State) (n : Nat) : Bool :=
  s.rd (O.dringState n) == RING_ARMED || s.rd (O.dringState n) == RING_HALTING

/-- A teardown that keeps the positions and leaves the statuses to ARM (R125 Bus Master Enable, R515, forced stop).
Log entry 38 (DEDUCED and DESIGN CHOICE). -/
def State.suspendRing (s : State) (cause n : Nat) : State :=
  if s.live n then
    let s := s.add (O.dringAborted n) (unaffected (s.dring n).flight)
    let s := (s.orphan n).updD n fun d => { d with flight := d.owing ++ d.flight, owing := [], owed := true, waitPage := none }
    s.haltRing n cause
  else s

/-- Every DMA ring, one after the other. -/
def State.eachRing (s : State) (f : State → Nat → State) : State := (List.range 48).foldl f s

/-! ### ARM, HALT, RESET (R110, R126) -/

/-- The limit that the owning chapters set on rings ARMED at once, and the rings that share it (R108): by kind and target. -/
def ringClass (kind target : Nat) : Nat × Nat :=
  if kind = 1 then
    let hi := target / 65536
    (kind * 65536 + hi, if hi = 8 then 8 else if hi = 9 then 4 else 1)
  else (kind * 65536, if kind = 5 then 8 else 16)

/-- Does a ring's target have no reserved bit set for its kind (R3, R218, R219, R348, R486)? The targets of TABLE_CMD are judged by the tables
they name. Log entry 38 (DEDUCED and DESIGN CHOICE). -/
def ringTargetGood (kind target : Nat) : Bool :=
  match kind with
  | 2 => decide (target < 16)
  | 3 => target == 0
  | 4 => decide (target < 8)
  | 5 => target == 0
  | _ => true

/-- Rings ARMED in the class of ring `n`. -/
def State.armedInClass (s : State) (n : Nat) : Nat :=
  let c := (ringClass (s.rd (O.dringKind n)) (s.rd (O.dringTarget n))).1
  ((List.range 48).filter fun m =>
    s.armed m && (ringClass (s.rd (O.dringKind m)) (s.rd (O.dringTarget m))).1 == c).length

/-- May ARM be refused for the link or for Bus Master Enable (R110), which D3hot and a Function Level Reset stand for (R103, R125)? -/
def State.armBlocked (s : State) : Bool := !s.canSend

/-! ### Reads (R115, R118, R119, R123) -/

/-- A DMA ring asks for the translation of a page that a descriptor's slot needs, and waits (R123). Log entry 39 (DEDUCED and DESIGN CHOICE). -/
def State.askPage (s : State) (n page slot : Nat) : State :=
  if s.freeTag.isSome then (s.requestPage (n + 16) page).updD n fun d => { d with waitPage := some ⟨page, slot⟩ } else s

/-- Bytes of the next read of a buffer: at most Max Read Request Size and 1,024, never across 4 KiB (R119). -/
def State.readSize (s : State) (addr left : Nat) : Nat :=
  min left (min (min s.host.maxRead 1024) (4096 - addr % 4096))

/-- Set the flight at a slot. -/
def setFlight (l : List Flight) (slot : Nat) (f : Flight → Flight) : List Flight :=
  l.map fun x => if x.slot = slot then f x else x

/-- Is FENCE set (R113)? -/
def Flight.fence (f : Flight) : Bool := bit f.desc.flags 1

/-- The first descriptor in flight that still has reads to issue and may start: one with FENCE starts when it is the first, and nothing
passes it (R115). -/
def nextToRead : List Flight → Bool → Option Flight
  | [], _ => none
  | f :: t, first =>
    if f.halt ≠ 0 || (f.fence && !first) then none
    else if f.issued < f.desc.bufLength then some f
    else if f.fence then none
    else nextToRead t false

/-- The descriptor whose buffer a ring reads next. -/
def State.toRead (s : State) (n : Nat) : Option Flight :=
  if toHost (s.rd (O.dringKind n)) then none else nextToRead (s.dring n).flight true

/-- Issue the reads of one descriptor's buffer while tags are free; `fuel` bounds them. -/
def State.readBuffer : Nat → Nat → Nat → State → State
  | 0, _, _, s => s
  | fuel + 1, n, slot, s =>
    match s.toRead n, s.freeTag with
    | some f, some tag =>
      if f.slot ≠ slot then s
      else
        let addr := f.desc.bufAddr + f.issued
        let len := s.readSize addr (f.desc.bufLength - f.issued)
        match s.missingPage addr len with
        | some page => s.askPage n page slot
        | none =>
          let s := (s.hitPages addr len).request tag
            { ring := n, slot := slot, addr := addr, offset := f.issued, length := len, left := len } (.readRequest tag addr len)
          State.readBuffer fuel n slot
            (s.updD n fun d => { d with flight := setFlight d.flight slot fun x => { x with issued := x.issued + len } })
    | _, _ => s

/-- Does a ring await descriptors? -/
def State.fetching (s : State) (n : Nat) : Bool :=
  s.host.reads.any fun (e : Nat × ReadReq) => e.2.kind == .fetch && e.2.ring == n && !e.2.orphan

/-- Does a ring take descriptors: it is ARMED, HOST is RUNNING, and nothing in flight will halt it (R110, R114, R125)? -/
def State.takes (s : State) (n : Nat) : Bool := s.armed n && s.running .host && (s.dring n).flight.all fun f => f.halt == 0

/-- May the ring read its next slots (R112, R115)? -/
def State.mayFetch (s : State) (n : Nat) : Bool :=
  s.takes n && s.canSend && (s.dring n).owing.isEmpty && (s.dring n).waitPage.isNone && !s.fetching n && (s.dring n).fetched != s.rd (O.dringTail n)
    && decide ((s.dring n).flight.length < 16)

/-- Slots that one read of a ring takes: posted, at most 16 ahead, one after the other in memory, within the limits of a read (R115, R119). -/
def State.fetchSlots (s : State) (n : Nat) : Nat :=
  let d := s.dring n
  let tail := s.rd (O.dringTail n)
  let posted := if d.fetched ≤ tail then tail - d.fetched else s.dsize n - d.fetched
  min (min posted (16 - d.flight.length)) (s.readSize (s.rd (O.dringBase n) + 32 * d.fetched) 512 / 32)

/-- Read the next slots of a ring. -/
def State.fetchNext (s : State) (n : Nat) : State :=
  if !s.mayFetch n then s
  else
    let slot := (s.dring n).fetched
    let addr := s.rd (O.dringBase n) + 32 * slot
    let len := 32 * s.fetchSlots n
    match s.missingPage addr len, s.freeTag with
    | some page, _ => s.askPage n page slot
    | none, some tag =>
      (s.hitPages addr len).request tag { kind := .fetch, ring := n, slot := slot, addr := addr, offset := 0, length := len, left := len }
        (.readRequest tag addr len)
    | none, none => s

/-- After ARM, write the statuses that a ring owes in ring order (R126); one whose page the cache does not hold waits for its translation
(R123). -/
def State.payOwing : Nat → Nat → State → State
  | 0, _, s => s
  | fuel + 1, n, s =>
    match (s.dring n).owing with
    | [] => s
    | f :: t =>
      match s.missingPage (s.statusAddr n (s.rd (O.dringHead n))) 8 with
      | some page => if (s.dring n).waitPage.isNone then s.askPage n page f.slot else s
      | none => State.payOwing fuel n ((s.payOne n f).updD n fun d => { d with owing := t })

/-- Has a ring work for its turn: statuses to write, a buffer to read, or slots (R115, R126)? -/
def State.hasTurn (s : State) (n : Nat) : Bool :=
  (s.live n && (s.dring n).waitPage.isNone && (!(s.dring n).owing.isEmpty || (s.toRead n).isSome)) || s.mayFetch n

/-- The turns of the rings that hold work, one descriptor each, while tags are free (R115, R118). Log entry 39 (DEDUCED and DESIGN CHOICE). -/
def State.turns : Nat → State → State
  | 0, s => s
  | fuel + 1, s =>
    match ((List.range 48).map fun i => (s.host.turn + i) % 48).find? s.hasTurn, s.freeTag with
    | some n, some _ =>
      let s := { s with host := { s.host with turn := (n + 1) % 48 } }
      State.turns fuel (if !(s.dring n).owing.isEmpty then s.payOwing 16 n else match s.toRead n with
        | some f => if s.live n && (s.dring n).waitPage.isNone then s.readBuffer 768 n f.slot else s.fetchNext n
        | none => s.fetchNext n)
    | _, _ => s

/-- Requests go on: those of event records first, then the rings in turn (R115). -/
def State.pumpAll (s : State) : State :=
  if s.linkOpen then
    State.turns 768 ((List.range 16).foldl (fun s r =>
      if !(s.ring r).waiting.isEmpty && !s.asking r then s.flushRing r else s) s)
  else s

/-! ### DRING_CMD (R110, R126) -/

/-- ARM (R110, R126). The manual does not place NO_RESOURCE of R108 among the refusals: it comes after RANGE and BUSY, which R110 orders.
Log entry 38 (DEDUCED and DESIGN CHOICE). -/
def cmdArm (n : Nat) (s : State) : State × Status :=
  let st := s.rd (O.dringState n)
  let kind := s.rd (O.dringKind n)
  if st = RING_ARMED then (s, .ok)
  else if st = RING_HALTING then (s, .busy)
  else if st = RING_OFF && (kind == 0 || s.rd (O.dringBase n) % 4096 != 0 || !ringTargetGood kind (s.rd (O.dringTarget n))) then (s, .range)
  else if s.armBlocked then (s, .busy)
  else if s.armedInClass n ≥ (ringClass kind (s.rd (O.dringTarget n))).2 then (s, .noResource)
  else
    let s := if st = RING_OFF then (s.updD n fun _ => {})
      else if (s.dring n).owed then s.updD n fun d => { d with
          owing := d.flight, flight := [], fetched := (s.rd (O.dringHead n) + d.flight.length) % s.dsize n, waitPage := none, owed := false }
      else s.dropFlight n
    ((((s.wr (O.dringHaltCause n) 0).wr (O.dringState n) RING_ARMED).payOwing 16 n).pumpAll, .ok)

/-- No new descriptor starts on a ring that is ARMED or HALTING (R110, R125): slots being read are not taken, and a buffer for the host that holds
nothing yet is given back. Log entry 38 (DEDUCED and DESIGN CHOICE). -/
def State.startNone (s : State) (n : Nat) : State :=
  if !s.live n then s else
  let s := s.orphanIf fun q => q.kind == .fetch && q.ring == n
  if toHost (s.rd (O.dringKind n)) then
    s.updD n fun d =>
      let keep := d.flight.takeWhile fun f => f.effect || f.length != 0
      { d with flight := keep, fetched := ((d.flight.drop keep.length).head?.map Flight.slot).getD d.fetched }
  else s

/-- HALT (R110). -/
def cmdHalt (n : Nat) (s : State) : State × Status :=
  if s.armed n then ((s.startNone n).wr (O.dringState n) RING_HALTING, .ok) else (s, .ok)

/-- RESET of a DMA ring (R110). -/
def cmdResetRing (n : Nat) (s : State) : State × Status :=
  let st := s.rd (O.dringState n)
  if st = RING_OFF then (s, .ok)
  else if st = RING_HALTED then
    let s := (s.orphan n).updD n fun _ => {}
    (((s.wr (O.dringHead n) 0).wr (O.dringTail n) 0).wr (O.dringHaltCause n) 0 |>.wr (O.dringState n) RING_OFF, .ok)
  else (s, .notStopped)

/-- The meaning of ARM. Log entry 38 (DEDUCED and DESIGN CHOICE). -/
def execArm (p : Path) (r : Fin 48) (arg : BitVec 24) (s : State) : Host.Outcome State Fault Refusal :=
  done (access p (O.dringCmd r.val) (cmdData 1 arg) (noArg arg (cmdArm r.val)) s)

/-- The meaning of HALT. -/
def execHalt (p : Path) (r : Fin 48) (arg : BitVec 24) (s : State) : Host.Outcome State Fault Refusal :=
  done (access p (O.dringCmd r.val) (cmdData 2 arg) (noArg arg (cmdHalt r.val)) s)

/-- The meaning of RESET of a ring. -/
def execReset (p : Path) (r : Fin 48) (arg : BitVec 24) (s : State) : Host.Outcome State Fault Refusal :=
  done (access p (O.dringCmd r.val) (cmdData 3 arg) (noArg arg (cmdResetRing r.val)) s)

/-- The meaning of RING_HALTED: a HALTING ring whose descriptors in flight have completed becomes HALTED (R110). -/
def execRingHalted (r : Fin 48) (s : State) : Host.Outcome State Fault Refusal :=
  if s.rd (O.dringState r.val) == RING_HALTING && (s.dring r.val).flight.isEmpty && (s.dring r.val).owing.isEmpty then done (s.haltRing r.val 1) else done s

/-! ### Doorbells (R111, R112) -/

/-- Write of RING_TAIL of an event ring that exists and holds the value (R62). -/
def State.eventTail (s : State) (ring v : Nat) : State :=
  if ring ≤ 10 && v < 2 ^ s.rd (O.ringSizeLog2 ring) then s.wr (O.ringTail ring) v else s.inc O.doorbellErrors

/-- The meaning of DOORBELL: a TAIL write. The manual does not say what becomes of the descriptors in flight when a value out of range halts
an ARMED ring: all are dropped without a status, those in effect too, and ARM fetches from the head again. Log entry 38 (DEDUCED and DESIGN CHOICE). -/
def execDoorbell (ring : Fin 64) (value : BitVec 32) (s : State) : Host.Outcome State Fault Refusal :=
  if !s.alive then done s else if !s.memOpen then done (s.unsupported true) else
  let v := value.toNat
  let s := { s with host := { s.host with tails := mset s.host.tails 0 ring.val v } }
  if ring.val < 16 then done (s.eventTail ring.val v)
  else
    let n := ring.val - 16
    let st := s.rd (O.dringState n)
    if st = RING_OFF then done (s.inc O.doorbellErrors)
    else if v < s.dsize n then done (s.wr (O.dringTail n) v).pumpAll
    else if st = RING_ARMED then done ((s.dropFlight n).haltRing n 9)
    else done (s.inc O.doorbellErrors)

/-! ### Descriptors (R113 to R115) -/

/-- Does a ring's kind and target define the OPCODE (R108, R114; R184, R218, R219, R236, R266, R306, R316, R348, R359, R376,
R486)? -/
def opcodeDefined (kind target op : Nat) : Bool :=
  if kind = 1 then
    let hi := target / 65536
    if hi = 8 then 1 ≤ op && op ≤ 6 else if hi = 9 then op == 1 || op == 2 else op == 1
  else if kind = 4 then op == 1 || op == 2
  else op == 1

/-- The checks that a fetch makes on a descriptor (R3, R113, R114). -/
def State.descGood (s : State) (n : Nat) (d : Desc) : Bool :=
  let kind := s.rd (O.dringKind n)
  1 ≤ d.bufLength && d.bufLength ≤ 65536 && (!toHost kind || decide (256 ≤ d.bufLength)) && d.flags < 4 && d.reserved == 0
    && opcodeDefined kind (s.rd (O.dringTarget n)) d.opcode
    && (if kind = 4 then decide (d.arg < if d.opcode = 1 then 2 ^ 7 else 2 ^ 41) else d.arg == 0)

/-- A descriptor arrives and is checked (R114, R115). -/
def State.takeDesc (s : State) (n : Nat) (d : Desc) : State :=
  if !s.takes n then s
  else
    let slot := (s.dring n).fetched
    let f : Flight :=
      if s.descGood n d then { slot := slot, desc := d, data := if toHost (s.rd (O.dringKind n)) then [] else zeros d.bufLength }
      else { slot := slot, desc := d, effect := true, status := Status.range.code, halt := 6 }
    (s.dmaBytes false (s.rd (O.dringBase n) + 32 * slot) 32).updD n fun x => { x with
      fetched := (slot + 1) % s.dsize n, flight := x.flight ++ [f] }

/-- The reads of an Invalidate Request that have ended leave it (R124). Log entry 39 (DEDUCED and DESIGN CHOICE). -/
def State.readEnded (s : State) (tag : Nat) : State :=
  { s with host := { s.host with invalidates := s.host.invalidates.map fun e => (e.1, e.2.filter fun t => t ≠ tag) } }

/-- Take a tag out of the outstanding reads. -/
def State.endRead (s : State) (tag : Nat) : State := ((s.updReads fun m => mdel m tag).readEnded tag).countReads

/-- Descriptors of a ring's outstanding read arrive; with the last of them the read ends. -/
def State.takeDescs (s : State) (tag : Nat) (q : ReadReq) (l : List Desc) (last : Bool) : State :=
  let s := l.foldl (fun s d => s.takeDesc q.ring d) s
  if last || decide (q.left ≤ 32 * l.length) then s.endRead tag
  else s.updReads fun m => mput m tag { q with left := q.left - 32 * l.length }

/-- The read of descriptors that a ring has outstanding, by its tag. -/
def State.fetchRead (s : State) (n : Nat) : Option (Nat × ReadReq) :=
  s.host.reads.find? fun e => e.2.kind == .fetch && e.2.ring == n && !e.2.orphan

/-- The meaning of DESCRIPTOR_FETCH: the next descriptor of the ring's read arrives with contents `d` and is checked (R114, R115, R119); a ring
whose turn has not come since reads its slots first. Log entry 39 (DEDUCED and DESIGN CHOICE). -/
def execDescriptorFetch (r : Fin 48) (d : Desc) (s : State) : Host.Outcome State Fault Refusal :=
  let s := s.fetchNext r.val
  match s.fetchRead r.val with
  | some (tag, q) => done (s.takeDescs tag q [d] false).pumpAll
  | none => done s

/-- Is the data of a descriptor that moves data to the device complete? -/
def Flight.ready (f : Flight) : Bool := f.halt == 0 && !f.effect && decide (f.desc.bufLength ≤ f.arrived)

/-- The first descriptor of a running ring that has not taken effect, when its data is complete: the one whose effect comes next (R115). An
aborted descriptor never takes effect (R126). -/
def State.nextEffect (s : State) (n : Nat) : Option Flight :=
  if s.live n then
    match (s.dring n).flight.find? fun f => !f.effect with
    | some f => if f.ready then some f else none
    | none => none
  else none

/-- A descriptor takes effect, with what it will report. -/
def State.tookEffect (s : State) (n slot : Nat) (st : Status) (len result : Nat) : State :=
  s.updD n fun d => { d with flight := setFlight d.flight slot fun f =>
    { f with effect := true, status := st.code, length := len, result := result } }

/-- A descriptor's owner goes on at a record of it, while a flush of that record runs or not (R236, R267). -/
def State.resumeAt (s : State) (n slot record : Nat) (busy : Bool) : State :=
  s.updD n fun d => { d with flight := setFlight d.flight slot fun f => { f with record := record, busy := busy } }

/-- The oldest descriptor in flight completes with what it reports, and halts its ring where it must (R113 to R115). -/
def State.finishFirst (s : State) (n : Nat) : State :=
  match (s.dring n).flight with
  | [] => s
  | f :: t =>
    let s := s.updD n fun d => { d with flight := t }
    let s := s.completeHead n (bit f.desc.flags 0) f.status f.length f.result
    if f.halt = 0 then s else (s.dropFlight n).haltRing n f.halt

/-- The same, once the page of its status is translated (R123). -/
def State.completeFirst (s : State) (n : Nat) : State :=
  match (s.dring n).flight with
  | [] => s
  | f :: _ =>
    match s.missingPage (s.statusAddr n f.slot) 8 with
    | some page => if (s.dring n).waitPage.isNone then s.askPage n page f.slot else s
    | none => (s.hitPages (s.statusAddr n f.slot) 8).finishFirst n

/-- The meaning of DESCRIPTOR_COMPLETE: the oldest descriptor in flight, having taken effect, has its status and phase written
(R113, R115); a bad one halts the ring (R114, R121, R123). Log entry 38 (DEDUCED and DESIGN CHOICE). -/
def execDescriptorComplete (r : Fin 48) (s : State) : Host.Outcome State Fault Refusal :=
  let n := r.val
  match (s.dring n).flight with
  | [] => done s
  | f :: _ => if f.effect && s.live n && s.linkOpen then done (s.completeFirst n).pumpAll else done s

/-- A descriptor whose contents the device does not know. -/
def unknownDesc : Desc := { bufAddr := 0, bufLength := 0, opcode := 0, flags := 0, reserved := 0, arg := 0 }

/-- The descriptor of a slot fails with a status and halts its ring once it completes (R121, R123): what follows it is discarded. One that
could not be fetched comes after those in flight; where no translation is to be had, its status is written without one.
Log entry 39 (DEDUCED and DESIGN CHOICE). -/
def State.failSlot (s : State) (n slot cause : Nat) (st : Status) : State :=
  if !s.live n then s
  else
    let l := (s.dring n).flight
    let before := l.takeWhile fun f => f.slot != slot
    let kept := fun k => before.any fun f => f.slot == k
    let g := (l.find? fun f => f.slot == slot).getD { slot := slot, desc := unknownDesc }
    let s := s.orphanIf fun q => q.ofRing n && !kept q.slot
    let s := s.updD n fun d => { d with
      flight := before ++ [{ g with effect := true, status := st.code, length := 0, result := 0, halt := cause }]
      fetched := (slot + 1) % s.dsize n, waitPage := d.waitPage.filter fun w => kept w.slot }
    if before.isEmpty then (if cause = 8 then s.finishFirst n else s.completeFirst n) else s

/-- A completion that matches no outstanding request (R122). Log entry 39 (DEDUCED and DESIGN CHOICE). -/
def State.unexpected (s : State) (tag : Nat) : State :=
  let s := { s with host := { s.host with quarantine := s.host.quarantine.filter fun t => t ≠ tag } }
  let s := ((s.inc O.unexpectedCpls).wr O.quarantinedTags s.host.quarantine.length).emit (.aer "Unexpected Completion" tag)
  s.raise 4 0x0483 0x01 WARNING tag (s.rd O.unexpectedCpls) 0

/-- The AER name of a bad completion (R121). -/
def cplError : CplStatus → String
  | .unsupported => "Unsupported Request received"
  | .abort => "Completer Abort received"
  | _ => "Poisoned TLP"

/-- A descriptor from its 24 bytes (R113). -/
def decodeDesc (b : List Byte) : Desc :=
  { bufAddr := leNat (slice b 0 8), bufLength := leNat (slice b 8 4), opcode := leNat (slice b 12 2), flags := leNat (slice b 14 1),
    reserved := leNat (slice b 15 1), arg := leNat (slice b 16 8) }

/-- The whole descriptors of a completion. -/
def decodeDescs (b : List Byte) : List Desc := (List.range (b.length / 32)).map fun i => decodeDesc (slice b (32 * i) 32)

/-- The status of a descriptor that an ARM owes cannot be written where it belongs, for want of a translation: TRANSLATION_FAILED, and the ring
halts with that cause (R123); the statuses after it stay owed to the next ARM (R126). Log entry 39 (DEDUCED and DESIGN CHOICE). -/
def State.owingFailed (s : State) (n : Nat) (f : Flight) (t : List Flight) : State :=
  let s := s.updD n fun d => { d with owing := [], flight := t, owed := true }
  (s.completeHead n (bit f.desc.flags 0) Status.translationFailed.code 0 0).haltRing n 8

/-- A Translation Request of a ring has ended (R123): on a grant the ring goes on; otherwise the event record is dropped and the next one
tries again, or the descriptor fails and the ring halts. The manual does not say what becomes of a request that was asked for a record dropped
since, by a disabled ring or a stopped HOST: it stays outstanding, and its answer serves the records that the ring then holds back, so that
a refusal drops the first of them whatever its page. Log entry 39 (DEDUCED and DESIGN CHOICE). -/
def State.pageEnded (s : State) (ring : Nat) (granted : Bool) : State :=
  if ring < 16 then
    if granted then s.flushRing ring
    else match (s.ring ring).waiting with
      | [] => s
      | _ :: t => ((s.updRing ring fun x => { x with waiting := t }).dropRecord ring).flushRing ring
  else
    let n := ring - 16
    match (s.dring n).waitPage with
    | none => s
    | some w =>
      let s := s.updD n fun d => { d with waitPage := none }
      if granted then s
      else match (s.dring n).owing with
        | f :: t => s.owingFailed n f t
        | [] => s.failSlot n w.slot 8 .translationFailed

/-- An outstanding request fails (R121, R123). -/
def State.failRead (s : State) (q : ReadReq) : State :=
  if q.orphan then s
  else match q.kind with
    | .buffer => s.failSlot q.ring q.slot 7 .readFailed
    | .fetch => s.failSlot q.ring (s.dring q.ring).fetched 7 .readFailed
    | .translate => s.pageEnded q.ring false

/-- Data of a read of a buffer arrives. -/
def State.takeData (s : State) (tag : Nat) (q : ReadReq) (data : List Byte) (last : Bool) : State :=
  let got := data.take q.left
  let s := s.dmaBytes false (q.addr + (q.length - q.left)) got.length
  let s := s.updD q.ring fun d => { d with flight := setFlight d.flight q.slot fun f =>
    { f with data := splice f.data (q.offset + (q.length - q.left)) got, arrived := f.arrived + got.length } }
  if last || got.length = q.left then s.endRead tag else s.updReads fun m => mput m tag { q with left := q.left - got.length }

/-- The meaning of COMPLETION_RECEIVED (R121, R122, R125). A Translation Request is answered by TRANSLATION_COMPLETION, unless it fails. -/
def execCompletionReceived (tag : Nat) (st : CplStatus) (data : List Byte) (last : Bool) (s : State) :
    Host.Outcome State Fault Refusal :=
  match mfind s.host.reads tag with
  | none => done (s.unexpected tag)
  | some q =>
    if st ≠ .success then
      let s := s.endRead tag
      let s := if q.orphan || q.kind == .translate then s else s.emit (.aer (cplError st) tag)
      done (s.failRead q).pumpAll
    else if q.orphan then done (if last then (s.endRead tag).pumpAll else s)
    else match q.kind with
      | .buffer => done (s.takeData tag q data last).pumpAll
      | .fetch => done (s.takeDescs tag q (decodeDescs (data.take q.left)) last).pumpAll
      | .translate => done s

/-- The ring that CPL_TIMEOUT names: 0xFF for the write of an event ring (R132). -/
def ReadReq.ringName (q : ReadReq) : Nat := if q.kind = .translate then (if q.ring < 16 then 0xFF else q.ring) else q.ring + 16

/-- The meaning of COMPLETION_TIMEOUT (R120, R121). -/
def execCompletionTimeout (tag : Nat) (s : State) : Host.Outcome State Fault Refusal :=
  match mfind s.host.reads tag with
  | none => done s
  | some q =>
    if s.host.cplTimeoutOff then done s
    else
      let s := s.endRead tag
      let s := { s with host := { s.host with quarantine := tag :: s.host.quarantine } }
      let s := ((s.inc O.cplTimeouts).wr O.quarantinedTags s.host.quarantine.length).emit (.aer "Completion Timeout" tag)
      let s := s.raise 4 0x0482 0x01 ERROR q.ringName tag (s.rd O.quarantinedTags)
      done (s.failRead q).pumpAll

/-- The meaning of UNEXPECTED_CPL (R122). -/
def execUnexpectedCpl (tag : Nat) (s : State) : Host.Outcome State Fault Refusal :=
  if (mfind s.host.reads tag).isSome then done s else done (s.unexpected tag).pumpAll

/-- The meaning of QUARANTINE_EXPIRY (R122). Log entry 39 (DEDUCED and DESIGN CHOICE). -/
def execQuarantineExpiry (tag : Nat) (s : State) : Host.Outcome State Fault Refusal :=
  let s := { s with host := { s.host with quarantine := s.host.quarantine.filter fun t => t ≠ tag } }
  done (s.wr O.quarantinedTags s.host.quarantine.length).pumpAll

/-! ### MSI-X (R117) -/

/-- The meaning of COAL_TIME_EXPIRY: the oldest unsent signal of a vector is COAL_TIME old. -/
def execCoalTimeExpiry (v : Fin 64) (s : State) : Host.Outcome State Fault Refusal :=
  if (s.vec v.val).unsent = 0 || s.rd (O.coalTime v.val) == 0 then done s else done (s.sendVector v.val)

/-- Does an access lie in the MSI-X table, as one aligned dword or quadword (R111)? -/
def inMsixTable (off len : Nat) : Bool :=
  decide (0xFF0000 ≤ off) && decide (off + len ≤ 0xFF0400) && (len == 4 || len == 8) && off % len == 0

/-- The 16 bytes of an MSI-X table entry (R111, R117). -/
def State.msixEntry (s : State) (v : Nat) : List Byte :=
  leBytes 8 (s.vec v).addr ++ leBytes 4 (s.vec v).data ++ leBytes 4 (b2n (s.vec v).masked)

/-- Bytes written at an offset of an MSI-X table entry: address, data and mask bit. -/
def State.msixStore (s : State) (v off : Nat) (d : List Byte) : State :=
  let b := splice (s.msixEntry v) off d
  s.updVec v fun x => { x with addr := le b 0 8, data := le b 8 4, masked := bit (le b 12 4) 0 }

/-- The meaning of MSIX_UNMASK: a write of the MSI-X table (R111); a vector that it leaves unmasked with its pending bit set sends one message
(R117). Log entry 40 (DEDUCED, PRESUMED and DESIGN CHOICE). -/
def execMsixUnmask (w : MsixWrite) (s : State) : Host.Outcome State Fault Refusal :=
  let v := w.offset.val / 16
  if !s.alive then done s
  else if !s.memOpen || !inMsixTable (0xFF0000 + w.offset.val) w.data.length then done (s.unsupported true)
  else
    let s := s.msixStore v (w.offset.val % 16) w.data
    if !(s.vec v).masked && (s.vec v).pending && s.canSend then done (s.sendVector v) else done s

/-! ### Address translation (R123, R124) -/

/-- A translation enters the cache, as one entry of at most 1 GiB (R123). -/
def State.learnPage (s : State) (page sizeLog2 : Nat) : State :=
  if s.host.atsEnable then
    let s := { s with host := { s.host with cache := (({ page := page, sizeLog2 := min sizeLog2 18 } : AtsEntry) :: s.host.cache).take 1024 } }
    s.wr O.atsCacheUsed s.host.cache.length
  else s

/-- The Translation Request that a completion answers, by its tag. -/
def State.translateRead (s : State) (ring page : Nat) : Option (Nat × ReadReq) :=
  s.host.reads.find? fun e => e.2.kind == .translate && e.2.ring == ring && e.2.addr == page * 4096

/-- The meaning of TRANSLATION_COMPLETION: a granted page enters the cache and the ring goes on; otherwise the descriptor fails
and the ring halts, or the event record is dropped (R123). -/
def execTranslationCompletion (ring : Fin 64) (page sizeLog2 : Nat) (granted : Bool) (s : State) :
    Host.Outcome State Fault Refusal :=
  match s.translateRead ring.val page with
  | none => done s
  | some (tag, q) =>
    let s := s.endRead tag
    if q.orphan then done s.pumpAll
    else done (((if granted then s.learnPage page sizeLog2 else s).pageEnded ring.val granted).pumpAll)

/-- Does a cache entry overlap a range of pages? -/
def AtsEntry.overlaps (e : AtsEntry) (page sizeLog2 : Nat) : Bool :=
  decide (e.page / 2 ^ e.sizeLog2 * 2 ^ e.sizeLog2 < page / 2 ^ sizeLog2 * 2 ^ sizeLog2 + 2 ^ sizeLog2)
    && decide (page / 2 ^ sizeLog2 * 2 ^ sizeLog2 < e.page / 2 ^ e.sizeLog2 * 2 ^ e.sizeLog2 + 2 ^ e.sizeLog2)

/-- Tags of outstanding reads whose address lies in a range of pages. -/
def State.readsIn (s : State) (page sizeLog2 : Nat) : List Nat :=
  (s.host.reads.filter fun e => e.2.kind != .translate && e.2.addr / 4096 / 2 ^ sizeLog2 == page / 2 ^ sizeLog2).map fun e => e.1

/-- The meaning of INVALIDATE_REQUEST: the range leaves the cache at once, and the completion waits for reads that used it.
Log entry 39 (DEDUCED and DESIGN CHOICE). -/
def execInvalidateRequest (itag page sizeLog2 : Nat) (s : State) : Host.Outcome State Fault Refusal :=
  if s.host.invalidates.length ≥ 32 then done s
  else
    let s := { s with host := { s.host with
      cache := s.host.cache.filter fun e => !e.overlaps page sizeLog2
      invalidates := s.host.invalidates ++ [(itag, s.readsIn page sizeLog2)] } }
    done (s.wr O.atsCacheUsed s.host.cache.length)

/-- The meaning of INVALIDATE_COMPLETE: sent when no read that used the range is outstanding, whatever Bus Master Enable. -/
def execInvalidateComplete (itag : Nat) (s : State) : Host.Outcome State Fault Refusal :=
  match s.host.invalidates.find? fun e => e.1 == itag with
  | some e =>
    if e.2.isEmpty then
      let s := { s with host := { s.host with invalidates := s.host.invalidates.filter fun x => x.1 ≠ itag } }
      done ((s.inc O.atsInvalidations).emit (.invalidateDone itag))
    else done s
  | none => done s

/-- Empty the translation cache. -/
def State.emptyCache (s : State) : State := ({ s with host := { s.host with cache := [] } }).wr O.atsCacheUsed 0

/-- A configuration request: answered with Request Retry Status during a Function Level Reset (R127). -/
def configAccess (f : State → State) (s : State) : Host.Outcome State Fault Refusal :=
  if s.host.flr then done (s.emit .retry) else done (f s)

/-- The meaning of ATS_ENABLE_CLEAR (R123). -/
def execAtsEnableClear : State → Host.Outcome State Fault Refusal :=
  configAccess fun s => ({ s.emptyCache with host := { s.emptyCache.host with atsEnable := false } }).pumpAll

/-! ### The link and its PLL (R99, R100, R132, R515) -/

/-- Forget every outstanding read and quarantine: the tags are freed (R122, R515). -/
def State.freeTags (s : State) : State :=
  let s := { s with host := { s.host with
    reads := [], quarantine := [], invalidates := s.host.invalidates.map fun (e : Nat × List Nat) => (e.1, []) } }
  (s.wr O.quarantinedTags 0).countReads

/-- A link-down (R515): no link, no reads, every running ring halts with LINK_DOWN. -/
def State.linkLost (s : State) : State :=
  if s.rd O.pcieLinkState == 2 then
    let s := ((((s.inc O.pcieLinkDowns).wr O.pcieLinkState 0).wr O.linkSpeed 0).wr O.linkWidth 0).wr O.flitMode 0
    let s := s.freeTags
    let s := if s.host.bme then s.eachRing (fun s n => s.suspendRing 0x0B n) else s
    s.dropAllWaiting.emptyCache
  else s.wr O.pcieLinkState 0

/-- Is the PCIe PHY powered: PCLK is released, and the device is not in P2 (R86, R100)? -/
def State.hostPowered (s : State) : Bool := s.alive && s.rd O.pstate != 2 && !(s.pwr.trans.any fun t => t.source == 2)

/-- The meaning of PCIE_PLL_LOCKED (R100): link training starts. -/
def execPciePllLocked (s : State) : Host.Outcome State Fault Refusal :=
  if s.rd O.pciePllLock == 1 || !s.hostPowered then done s
  else done ((s.wr O.pciePllLock 1).wr O.pcieLinkState 1)

/-- The meaning of PCIE_PLL_UNLOCK (R100). -/
def execPciePllUnlock (s : State) : Host.Outcome State Fault Refusal :=
  if s.rd O.pciePllLock == 1 then done (s.linkLost.wr O.pciePllLock 0) else done s

/-- The meaning of MGMT_PLL_UNLOCK (R100): KDP is silent until the PLL relocks. -/
def execMgmtPllUnlock (s : State) : Host.Outcome State Fault Refusal :=
  done { s with svc := { s.svc with mgmtPll := false } }

/-- The meaning of MGMT_PLL_LOCKED (R100): the PLL starts at the release of PCLK. -/
def execMgmtPllLocked (s : State) : Host.Outcome State Fault Refusal :=
  if !s.alive then done s else
  done { s with svc := { s.svc with mgmtPll := true } }

/-- May the link train to a speed and width, in flit mode or not (R98, R99)? -/
def State.linkFits (s : State) (speed width : Nat) (flit : Bool) : Bool :=
  decide (1 ≤ speed) && decide (speed ≤ s.rd O.targetSpeed) && (width == 1 || width == 2 || width == 4 || width == 8)
    && (if speed = 6 then flit else decide (4 ≤ speed) || !flit)

/-- The meaning of PCIE_LINK_UP (R99, R132): the link trains at a speed up to TARGET_SPEED, for the first time, after a link-down, or because
the host retrains it. -/
def execPcieLinkUp (speed : Fin 7) (width : Nat) (flit : Bool) (s : State) : Host.Outcome State Fault Refusal :=
  if s.rd O.pciePllLock == 1 && s.linkFits speed.val width flit then
    let s := (((s.wr O.pcieLinkState 2).wr O.linkSpeed speed.val).wr O.linkWidth width).wr O.flitMode (b2n flit)
    let s := s.raise 4 0x0480 0x01 NOTICE speed.val width (b2n flit + 65536 * min (s.rd O.pcieLinkDowns) 0xFFFF)
    done s.sendPending.pumpAll
  else done s

/-- The meaning of LINK_DOWN (R515). -/
def execLinkDown (s : State) : Host.Outcome State Fault Refusal := done s.linkLost

/-! ### Configuration writes and teardown (R103, R125, R127) -/

/-- The meaning of BME_CLEAR (R125): Bus Master Enable is cleared. -/
def execBmeClear : State → Host.Outcome State Fault Refusal :=
  configAccess fun s =>
    if s.host.bme then
      let s := { s.orphanAll with host := { s.orphanAll.host with bme := false } }
      (s.eachRing fun s n => s.suspendRing 2 n).dropAllWaiting
    else s

/-- The meaning of BUS_MASTER_ENABLE_SET (R125, R515): owed MSI-X messages are sent. -/
def execBusMasterEnableSet : State → Host.Outcome State Fault Refusal :=
  configAccess fun s => ({ s with host := { s.host with bme := true } }).sendPending

/-- The FLR column of R125 for one DMA ring: OFF, cause FLR, positions 0, settings kept. -/
def State.flrRing (s : State) (n : Nat) : State :=
  if s.rd (O.dringState n) == RING_OFF then s
  else
    let s := s.add (O.dringAborted n) (if s.live n then unaffected (s.dring n).flight else 0)
    let s := (s.orphan n).updD n fun _ => {}
    (((s.wr (O.dringHead n) 0).wr (O.dringTail n) 0).wr (O.dringHaltCause n) 0x0A).wr (O.dringState n) RING_OFF

/-- The meaning of FUNCTION_LEVEL_RESET (R125, R127): DMA stops, event rings are disabled, the MSI-X table and configuration
space return to their defaults, staged window halves are discarded. The ECRC enables are sticky. Log entry 40 (DEDUCED, PRESUMED and DESIGN CHOICE). -/
def execFunctionLevelReset : State → Host.Outcome State Fault Refusal :=
  configAccess fun s =>
    let s := (s.eachRing State.flrRing).orphanAll.dropAllWaiting
    let s := (List.range 11).foldl (fun s r => s.wr (O.ringEnable r) 0) s
    let s := s.dropHalves.emptyCache
    { s with host := { s.host with
      flr := true, bme := false, atsEnable := false, d3hot := false, maxRead := 512, tag10 := false, tag14 := false,
      cplTimeoutOff := false, cplTimeout := 0, memSpace := false, relaxed := true, maxPayload := 128, aspmL1 := true, l11 := false,
      vectors := [] } }

/-- The meaning of FLR_DONE (R127). The host sets Memory Space Enable again at once. Log entry 40 (DEDUCED, PRESUMED and DESIGN CHOICE). -/
def execFlrDone (s : State) : Host.Outcome State Fault Refusal :=
  if s.host.flr then done { s with host := { s.host with flr := false, memSpace := true } } else done s

/-- The meaning of D3HOT (R103): DMA and MSI-X act as with Bus Master Enable clear. -/
def execD3hot : State → Host.Outcome State Fault Refusal :=
  configAccess fun s =>
    if s.host.d3hot then s
    else
      let s := { s.orphanAll with host := { s.orphanAll.host with d3hot := true } }
      (s.eachRing fun s n => s.suspendRing 2 n).dropAllWaiting

/-- The meaning of RETURN_TO_D0 (R103): configuration space and every object are kept. -/
def execReturnToD0 : State → Host.Outcome State Fault Refusal :=
  configAccess fun s => ({ s with host := { s.host with d3hot := false } }).sendPending

/-! ### Bad requests, power management and the Expansion ROM (R104, R106, R128, R130) -/

/-- The meaning of UNSUPPORTED_REQUEST (R106): a non-posted one is completed with Unsupported Request, a posted one dropped. -/
def execUnsupportedRequest (posted : Bool) (header : Nat) (s : State) : Host.Outcome State Fault Refusal :=
  let s := (s.inc O.urReceived).emit (.aer "Unsupported Request" header)
  done (if posted then s else s.emit (.unsupported header))

/-- The meaning of POISONED_WRITE (R106). -/
def execPoisonedWrite (header : Nat) (s : State) : Host.Outcome State Fault Refusal :=
  done ((s.inc O.poisonedReceived).emit (.aer "Poisoned TLP" header))

/-- Is the endpoint idle: no outstanding request, no unsent descriptor or record, and no pending or unsent message (R128)? -/
def State.hostIdle (s : State) : Bool :=
  s.host.reads.isEmpty && s.host.late.isEmpty && (s.host.rings.all fun (e : Nat × EvRing) => e.2.waiting.isEmpty)
    && (s.host.drings.all fun (e : Nat × DRing) => e.2.flight.isEmpty && e.2.owing.isEmpty)
    && (s.host.vectors.all fun (e : Nat × Vector) => !e.2.pending && e.2.unsent == 0)

/-- The meaning of ASPM_L1_ENTRY (R128): the endpoint has been idle for ASPM_IDLE, and requests L1 where it is enabled. -/
def execAspmL1Entry (s : State) : Host.Outcome State Fault Refusal :=
  if s.rd O.pcieLinkState == 2 && s.host.aspmL1 && s.hostIdle then done ((s.inc O.l1Entries).emit (.l1 s.host.l11)) else done s

/-- The index ranges of the shipped table (R131, R468). Log entry 40 (DEDUCED and PRESUMED). -/
def kdtRanges : List (Nat × Nat × Nat) :=
  [(0x1000, 1, 4), (0x1001, 1, 1), (0x1002, 1, 2), (0x1200, 1, 7), (0x2500, 1, 7), (0x3000, 1, 0x15), (0x3010, 1, 4),
   (0x3020, 1, 6), (0x3022, 0, 0xFF), (0x3023, 0, 0xFF), (0xA000, 1, 0x0A), (0xA001, 1, 4), (0xA002, 1, 0x0F)]

/-- The Kenlith Description Table (R130). Log entry 40 (DEDUCED and PRESUMED). -/
def kdt (mcState failReason : Nat) : List Byte :=
  let body := fun (a b : Nat) => [0x4B#8, 0x44#8, 0x54#8, 0x31#8] ++ leBytes 2 1 ++ leBytes 2 (20 + 4 * kdtRanges.length)
    ++ [BitVec.ofNat 8 a, BitVec.ofNat 8 b] ++ leBytes 2 0x9A20 ++ leBytes 2 0x0102 ++ [0#8]
    ++ [BitVec.ofNat 8 kdtRanges.length]
    ++ kdtRanges.flatMap fun r => leBytes 2 r.1 ++ [BitVec.ofNat 8 r.2.1, BitVec.ofNat 8 r.2.2]
  body mcState failReason ++ leBytes 4 (crc32c (body 0 0))

/-- A byte string as little-endian dwords. -/
def dwords : List Byte → List Nat
  | a :: b :: c :: d :: t => leNat [a, b, c, d] :: dwords t
  | [] => []
  | l => [leNat l]

/-- The meaning of DOE_REQUEST (R104): DOE Discovery, or the Pelsaod protocol that returns the description table. The discovery
response is that of the PCIe base specification for index 0 and 1. The manual does not say what a discovery index of 2 or more, a Pelsaod request
with a payload, or a request of another protocol meets: the first is answered with the Pelsaod entry, the others are dropped without an answer.
Log entry 40 (DEDUCED, PRESUMED and DESIGN CHOICE). -/
def execDoeRequest (vendor type : Nat) (payload : List Nat) : State → Host.Outcome State Fault Refusal :=
  configAccess fun s =>
    if vendor = 0x1F4C && type = 0x01 then
      if payload.isEmpty then s.emit (.doe (dwords (kdt s.mcState s.failReason))) else s
    else if vendor = 0x0001 && type = 0x00 then
      let i := payload.headD 0 % 256
      if i = 0 then s.emit (.doe [0x01000001]) else s.emit (.doe [0x00011F4C])
    else s

end Sys2Proof.Machine
end

