-- ==== Sys2Proof/Machine/Count.lean ====
section
/-!
DEFINITION. What several chapters share beside the dictionary: items delivered to host rings (R115), rate limiters, and the
statistics pairs with the QDR coherent cache (R480 to R485, R444, R446, R448).
-/

namespace Sys2Proof.Machine

/-! ### Items for rings that move data to the host (R115) -/

/-- How a delivery went: written to buffers, dropped for want of a buffer, or not possible yet. -/
inductive Delivery | sent | noBuffer | wait
  deriving DecidableEq, Repr

/-- Descriptors in flight that a delivery may fill. -/
def State.buffers (s : State) (n : Nat) : List Flight := (s.dring n).flight.filter fun f => !f.effect && f.halt == 0

/-- Posted descriptors that the ring has not fetched. Log entry 38 (DEDUCED and DESIGN CHOICE). -/
def State.unfetched (s : State) (n : Nat) : Nat :=
  (s.rd (O.dringTail n) + s.dsize n - (s.dring n).fetched) % s.dsize n

/-- Cut an item over buffers; none when they are too small together. -/
def cutItem : List Flight → List Byte → Option (List (Flight × List Byte))
  | [], _ => none
  | f :: t, d =>
    if d.length ≤ f.desc.bufLength then some [(f, d)]
    else (cutItem t (d.drop f.desc.bufLength)).map fun r => (f, d.take f.desc.bufLength) :: r

/-- The descriptors before a slot complete, as far as the pages of their statuses are translated (R123); those of a ring to the host have all
taken effect by then (R115). -/
def State.finishBefore : Nat → Nat → Nat → State → State
  | 0, _, _, s => s
  | fuel + 1, n, slot, s =>
    if (s.dring n).flight.head?.any fun f => f.effect && f.slot != slot then
      let t := s.completeFirst n
      if (t.dring n).flight.length < (s.dring n).flight.length then State.finishBefore fuel n slot t else t
    else s

/-- A descriptor with FENCE is about to be filled: every earlier one completes first (R115). -/
def State.fenceFirst (s : State) (n : Nat) (f : Flight) : State := if f.fence then s.finishBefore 16 n f.slot else s

/-- Does an earlier descriptor, whose status waits for a translation, hold back one with FENCE (R115, R123)? -/
def State.fenced (s : State) (n : Nat) (f : Flight) : Bool :=
  f.fence && (s.dring n).flight.head?.any fun g => g.effect && g.slot != f.slot

/-- Write one part of an item into its buffer: `more` tells that the item continues. A descriptor with FENCE starts when every earlier one
has completed (R115). -/
def State.fillBuffer (s : State) (n : Nat) (f : Flight) (d : List Byte) (result : Nat) (more : Bool) : State :=
  let s := (s.fenceFirst n f).writeBuffer f.desc.bufAddr d
  s.tookEffect n f.slot .ok d.length (if more then result % 0x8000 + 0x8000 else result % 0x8000)

/-- Write the parts of an item in order. Log entry 38 (DEDUCED and DESIGN CHOICE). -/
def State.fillAll (s : State) (n result : Nat) : List (Flight × List Byte) → State
  | [] => s
  | [(f, d)] => s.fillBuffer n f d result false
  | (f, d) :: t => State.fillAll (s.fillBuffer n f d result true) n result t

/-- The pages that the parts of an item wait for (R123): those of the buffers, and those of the statuses that a later part with FENCE has written
first (R115). -/
def State.partsPage (s : State) (n : Nat) (parts : List (Flight × List Byte)) : Option PageWait :=
  let buffers := parts.findSome? fun x => (s.missingPage x.1.desc.bufAddr x.2.length).map fun p => ⟨p, x.1.slot⟩
  let statuses := if (parts.drop 1).any fun x => x.1.fence then
      parts.dropLast.findSome? fun x => (s.missingPage (s.statusAddr n x.1.slot) 8).map fun p => ⟨p, x.1.slot⟩
    else none
  buffers.or statuses

/-- Deliver an item to a ring (R115, R123, R125): an item for a ring that is not ARMED or has too few posted descriptors is
counted in DRING_NO_BUFFER; one whose descriptors are not all fetched, or whose writes wait for a translation, waits.
Log entry 38 (DEDUCED and DESIGN CHOICE). -/
def State.deliver (s : State) (n : Nat) (data : List Byte) (result : Nat) : State × Delivery :=
  if !s.armed n then (s.inc (O.dringNoBuffer n), .noBuffer)
  else match cutItem (s.buffers n) data with
    | none => if s.unfetched n = 0 then (s.inc (O.dringNoBuffer n), .noBuffer) else (s, .wait)
    | some parts =>
      if !s.canSend || (s.dring n).waitPage.isSome then (s, .wait)
      else
        let s := match parts.find? (fun x => x.1.fence), parts.head? with
          | some _, some x => s.finishBefore 16 n x.1.slot
          | _, _ => s
        if parts.any (fun x => x.1.fence) && (parts.head?.any fun x => (s.dring n).flight.head?.any fun g => g.effect && g.slot != x.1.slot) then
          (s, .wait)
        else match s.partsPage n parts with
          | some x => (s.askPage n x.page x.slot, .wait)
          | none => (s.fillAll n result parts, .sent)

/-! ### Rate limiters (R216, R346) -/

/-- Take one item from a limiter of `rate` items a second and `burst` items back to back; none when it is over. -/
def Bucket.take (b : Bucket) (now rate burst : Nat) : Bucket × Bool :=
  let cap := burst * 6000000000
  let level := min cap (b.level.getD cap + rate * (now - b.time))
  if level < 6000000000 then ({ time := now, level := some level }, false)
  else ({ time := now, level := some (level - 6000000000) }, true)

/-! ### Statistics pairs (R480 to R485) -/

/-- Is a pair an extension pair (R444, R480)? -/
def extPair (p : Nat) : Bool := decide (2097152 ≤ p)

/-- The interface of an extension pair (R444): QC_ for even pairs, QD_ for odd ones. -/
def pairIf (p : Nat) : Nat := 2 + p % 2

/-- The address of an extension policer or pair on its interface (R444). -/
def qdrAddr (p : Nat) : Nat := (p - 2097152) / 2

/-- Does a QDR interface hold contents in use (R449)? -/
def State.qifUp (s : State) (i : Nat) : Bool := s.running .qdr && s.rd (O.qifState i) == 3

/-- A pair's bytes and packets. -/
def State.pair (s : State) (p : Nat) : Nat × Nat := mget s.perf.pairs (0, 0) p

/-- Give a pair a value; memory keeps the former value of an extension pair until its cached word is written back. -/
def State.setPair (s : State) (p : Nat) (v : Nat × Nat) : State :=
  let d := if extPair p && (mfind s.perf.dirty p).isNone then mput s.perf.dirty p (s.pair p) else s.perf.dirty
  { s with perf := { s.perf with pairs := mset s.perf.pairs (0, 0) p v, dirty := d } }

/-- An update of object `number` that the coherent cache may absorb: whether it costs a read and a write is open (R443, R475, R483).
Log entry 62 (DESIGN CHOICE). -/
def State.qdrTouch (s : State) (i number : Nat) : State :=
  let v := s.open_
  let s := v.2
  if v.1.toNat % 2 = 1 then
    let s := s.add (O.qifAccesses i) 2
    if i < 2 then s.perfEvent true 0x0150 2 { addr := qdrAddr number } else s
  else s

/-- The ECC of a word of a QDR interface (R448): counts, and the report of an uncorrectable half of object `number`. -/
def State.qdrEcc (s : State) (i number : Nat) (ecc : Ecc) (part : Nat) : State :=
  match ecc with
  | .clean => s
  | .corrected => s.inc (O.qifCe i)
  | .uncorrectable =>
    let w := part * 2147483648 + qdrAddr number
    let s := (s.inc (O.qifUe i)).wr (O.qifLastUe i) w
    s.raise 3 0x03F0 0x11 ERROR i w number

/-- A parity error in the statistics region (R485): both halves become zero. The word address is open. Log entry 72 (DEDUCED and DESIGN CHOICE). -/
def State.pairParity (s : State) (p : Nat) : State :=
  let s := s.setPair p (0, 0)
  let s := s.inc O.statParityResets
  let v := s.open_
  v.2.raise 3 0x0301 0x13 ERROR p (v.1.toNat % 4294967296) (s.rd O.statParityResets)

/-- What a read or update of a pair meets first: a parity error on chip, an ECC error in an extension pair. Log entry 62 (DESIGN CHOICE). -/
def State.pairCheck2 (s : State) (p : Nat) (parityBad : Bool) (ecc : Ecc) (part : Nat) : State :=
  if extPair p then
    let s := s.qdrEcc (pairIf p) p ecc part
    if ecc = .uncorrectable then
      s.setPair p (if part = 0 then (0, (s.pair p).2) else ((s.pair p).1, 0))
    else s
  else if parityBad then s.pairParity p
  else s

/-- A pair on the die is read, or read and written, in table SRAM (R252, R475). -/
def State.pairSram (s : State) (p : Nat) (read write : Bool) (o : Occurrence) : State :=
  if extPair p then s
  else
    let s := if read then s.perfOpen false 0x0020 o else s
    if write then s.perfOpen false 0x0021 o else s

/-- The ENG cycles for which a thread holds its packet until the update of an extension pair is taken (R475, R483); they are part of its residence.
Log entry 62 (DEDUCED). -/
def State.statHeld (s : State) (p cluster held : Nat) : State :=
  if extPair p then (s.add O.statExtStalls held).perfEvent false 0x0041 held { master := 0x10 + cluster } else s

/-- The update that a pass makes in the pair COUNTER names (R480 to R483): `bytes` with the FCS; pairs beyond the last hold
nothing. Log entry 51 (DEDUCED). -/
def State.statUpdate (s : State) (p bytes cluster tc residence : Nat) (use : StatUse) : State :=
  if p = 0 || p > 6291455 then s
  else if !s.running .perf || (extPair p && !s.qifUp (pairIf p)) then s.inc O.statSkipped
  else
    let s := s.statHeld p cluster (min use.held residence)
    let s := s.pairCheck2 p use.read.parityBad use.read.ecc use.read.part.val
    let s := if extPair p then s.qdrTouch (pairIf p) p else s.pairSram p true true { priv := 3, master := 0x10 + cluster }
    let v := s.pair p
    let s := s.setPair p ((v.1 + bytes) % 2 ^ 64, (v.2 + 1) % 2 ^ 64)
    (s.inc O.statUpdates).perfEvent false 0x0040 1 { master := 0x10 + cluster, tc := some tc }

end Sys2Proof.Machine
end

