-- ==== Sys2Proof/Machine/Fwd.lean ====
section
/-!
DEFINITION. Forwarding tables (chapter 09): the tables and their lookups, table commands and their DMA rings, epochs and index
retirement, learning, aging, flush and parity. Table numbers are the TIDs of R260, 1 to 8.
-/

namespace Sys2Proof.Machine

/-! ### Tables -/

/-- Change FWD. -/
def State.updFwd (s : State) (f : FwdSt → FwdSt) : State := { s with fwd := f s.fwd }

/-- Number of an IPv4 prefix in the order of R264. -/
def key4 (vrf addr len : Nat) : Nat := (vrf * 2 ^ 32 + addr) * 64 + len

/-- Number of an IPv6 prefix in the order of R264. -/
def key6 (vrf addr len : Nat) : Nat := (vrf * 2 ^ 128 + addr) * 256 + len

/-- The first `len` bits of an address of `w` bits. -/
def prefixOf (w addr len : Nat) : Nat := addr / 2 ^ (w - len) * 2 ^ (w - len)

/-- Does a bad node of an LPM table lie on the path of an address (R285)? -/
def crossesBad (w : Nat) (bad : List (Nat × Nat × Nat)) (vrf addr : Nat) : Bool :=
  bad.any fun b => b.1 == vrf && prefixOf w addr b.2.2 == b.2.1

/-- The longest matching IPv4 prefix: data and length (R254). Log entry 51 (DEDUCED). -/
def FwdSt.longest4 (f : FwdSt) (vrf addr : Nat) : Option (Nat × Nat) :=
  (List.range 33).reverse.findSome? fun len => (mfind f.v4 (key4 vrf (prefixOf 32 addr len) len)).map fun d => (d, len)

/-- The longest matching IPv6 prefix. -/
def FwdSt.longest6 (f : FwdSt) (vrf addr : Nat) : Option (Nat × Nat) :=
  (List.range 129).reverse.findSome? fun len => (mfind f.v6 (key6 vrf (prefixOf 128 addr len) len)).map fun d => (d, len)

/-- A bridging half. -/
def FwdSt.half (f : FwdSt) (h : Nat) : NMap BridgeEntry := if h = 0 then f.half0 else f.half1

/-- Change a bridging half and HALF_ENTRIES, TBL_USED with it. -/
def State.setHalf (s : State) (h : Nat) (m : NMap BridgeEntry) : State :=
  let s := s.updFwd fun f => if h = 0 then { f with half0 := m } else { f with half1 := m }
  (s.wr (O.halfEntries h) m.length).wr (O.tblUsed 4) (s.fwd.half0.length + s.fwd.half1.length)

/-- Number of an exact-match entry: sub-table and left-aligned 160-bit key. -/
def exactKey (t key : Nat) : Nat := t * 2 ^ 160 + key

/-- Entries of an exact sub-table. -/
def FwdSt.subEntries (f : FwdSt) (t : Nat) : Nat := (f.exact.filter fun e => e.1 / 2 ^ 160 == t).length

/-- Slots that an entry of a sub-table takes (R259). -/
def State.slotsOf (s : State) (t : Nat) : Nat := if s.rd (O.keyWidth t) ≤ 64 then 1 else 2

/-- Slots of the exact-match table in use. -/
def State.slotsUsed (s : State) : Nat := (s.fwd.exact.map fun e => s.slotsOf (e.1 / 2 ^ 160)).sum

/-- Change the exact-match table, with SUB_ENTRIES of a sub-table and TBL_USED. -/
def State.setExact (s : State) (t : Nat) (m : NMap ExactEntry) : State :=
  let s := s.updFwd fun f => { f with exact := m }
  (s.wr (O.subEntries t) (s.fwd.subEntries t)).wr (O.tblUsed 3) m.length

/-- Change the IPv4 routes. -/
def State.set4 (s : State) (m : NMap Nat) : State := (s.updFwd fun f => { f with v4 := m }).wr (O.tblUsed 1) m.length

/-- Change the IPv6 routes. -/
def State.set6 (s : State) (m : NMap Nat) : State := (s.updFwd fun f => { f with v6 := m }).wr (O.tblUsed 2) m.length

/-- Number of an index of an index table. -/
def idxKey (tid i : Nat) : Nat := tid * 2 ^ 24 + i

/-- The state code of an index (R270): 0 when FREE. -/
def FwdSt.idxState (f : FwdSt) (tid i : Nat) : Nat := ((mfind f.index (idxKey tid i)).map IndexEntry.state).getD 0

/-- Data of an index that lookups hit: VALID or RETIRING (R270). -/
def FwdSt.idxHit (f : FwdSt) (tid i : Nat) : Option Nat :=
  match mfind f.index (idxKey tid i) with
  | some e => if e.state = 1 || e.state = 2 then some e.data else none
  | none => none

/-- Indexes RETIRING now. -/
def FwdSt.retiring (f : FwdSt) : Nat := (f.index.filter fun e => e.2.state == 2).length

/-- Change the index tables, with TBL_USED of one of them and RETIRING_COUNT. -/
def State.setIndex (s : State) (tid : Nat) (m : NMap IndexEntry) : State :=
  let s := s.updFwd fun f => { f with index := m }
  (s.wr (O.tblUsed tid) (m.filter fun e => e.1 / 2 ^ 24 == tid).length).wr O.retiringCount s.fwd.retiring

/-! ### Parity (R284, R285) -/

/-- Raise TABLE_PARITY (R287). Log entry 52 (DEDUCED). -/
def State.tableParity (s : State) (tid word : Nat) (keyBad : Bool) (a1 a2 : Nat) : State :=
  s.raise 3 0x0380 0x08 ERROR (b2n (!keyBad) * 2147483648 + tid * 16777216 + word % 16777216) a1 a2

/-- A word of an LPM node is found bad: the node stays, and it is reported once. `w` is the width of an address. -/
def State.badNode (s : State) (v6 : Bool) (vrf addr : Nat) (b : BadRead) : State :=
  let w := if v6 then 128 else 32
  let node := (vrf, prefixOf w addr b.len, b.len)
  let old := if v6 then s.fwd.bad6 else s.fwd.bad4
  if old.contains node then s
  else
    let s := s.updFwd fun f => if v6 then { f with bad6 := node :: old } else { f with bad4 := node :: old }
    s.tableParity (if v6 then 2 else 1) b.word b.keyBad (vrf * 65536 + b.len) (node.2.1 / 2 ^ (w - 32))

/-- A word of the exact-match table is found bad: the entry that holds it is removed at once; of a word that no entry holds there is no key to tell.
Log entry 52 (DEDUCED). -/
def State.badExact (s : State) (k word : Nat) (keyBad : Bool) : State :=
  if (mfind s.fwd.exact k).isNone then s.tableParity 3 word true 0 0
  else
    let s := s.setExact (k / 2 ^ 160) (mdel s.fwd.exact k)
    let top := k % 2 ^ 160 / 2 ^ 96
    s.tableParity 3 word keyBad (if keyBad then 0 else top / 2 ^ 32) (if keyBad then 0 else top % 2 ^ 32)

/-- A word of a bridging half is found bad: the entry that holds it is removed at once; of a word that no entry holds there is no key to tell.
Log entry 52 (DEDUCED). -/
def State.badBridge (s : State) (h k word : Nat) (keyBad : Bool) : State :=
  if (mfind (s.fwd.half h) k).isNone then s.tableParity 4 word true 0 0
  else
    let s := s.setHalf h (mdel (s.fwd.half h) k)
    s.tableParity 4 word keyBad (if keyBad then 0 else k / 2 ^ 32) (if keyBad then 0 else k % 2 ^ 32)

/-- Entries of an index table. -/
def tblIndexes (tid : Nat) : Nat := [1048576, 65536, 1048576, 262144].getD (tid - 5) 0

/-- An index is found bad, a FREE one too: it becomes BAD, and each of its bad words is reported. -/
def State.badIndex (s : State) (tid i : Nat) (bad : List BadRead) : State :=
  if bad.isEmpty || i ≥ tblIndexes tid || s.fwd.idxState tid i = 3 then s
  else
    let e := (mfind s.fwd.index (idxKey tid i)).getD { state := 3, data := 0 }
    bad.foldl (fun s b => s.tableParity tid b.word b.keyBad i 0) (s.setIndex tid (mput s.fwd.index (idxKey tid i) { e with state := 3 }))

/-- The treatment of one bad word that a read of a table meets: an entry of a half, or of another table, named by its number (R284, R285). -/
def State.foundBad (s : State) (tid h : Nat) (b : BadRead) : State :=
  if b.tid ≠ tid then s
  else match tid with
    | 1 => s.badNode false (b.key / 2 ^ 32) (b.key % 2 ^ 32) b
    | 2 => s.badNode true (b.key / 2 ^ 128) (b.key % 2 ^ 128) b
    | 3 => s.badExact b.key b.word b.keyBad
    | 4 => s.badBridge h b.key b.word b.keyBad
    | _ => s.badIndex tid b.key [b]

/-- The treatment of every bad word that a read of a table meets. -/
def State.foundAll (s : State) (tid h : Nat) (bad : List BadRead) : State := bad.foldl (fun s b => s.foundBad tid h b) s

/-! ### Lookups (R254, R257) -/

/-- A lookup that met bad parity misses and is counted. Log entry 52 (DEDUCED). -/
def State.parityMiss (s : State) (tid : Nat) : State := s.inc (O.tblParityMisses tid)

/-- The bad reads of a table among those that a stage met. Log entry 52 (DEDUCED). -/
def badOf (bad : List BadRead) (tid : Nat) : List BadRead := bad.filter fun b => b.tid == tid

/-- The words of LPM nodes on the path of an address that a lookup found bad. -/
def State.badPath (s : State) (v6 : Bool) (vrf addr : Nat) (bad : List BadRead) : State :=
  (badOf bad (if v6 then 2 else 1)).foldl (fun s b => s.badNode v6 vrf addr b) s

/-- LPM_IPV4: route data of the longest match. -/
def State.look4 (s : State) (bad : List BadRead) (key : Nat) : State × Option Nat :=
  let vrf := key / 2 ^ 32
  let addr := key % 2 ^ 32
  let s := s.badPath false vrf addr bad
  if crossesBad 32 s.fwd.bad4 vrf addr then (s.parityMiss 1, none) else (s, (s.fwd.longest4 vrf addr).map Prod.fst)

/-- LPM_IPV6. -/
def State.look6 (s : State) (bad : List BadRead) (key : Nat) : State × Option Nat :=
  let vrf := key / 2 ^ 128
  let addr := key % 2 ^ 128
  let s := s.badPath true vrf addr bad
  if crossesBad 128 s.fwd.bad6 vrf addr then (s.parityMiss 2, none) else (s, (s.fwd.longest6 vrf addr).map Prod.fst)

/-- EXACT sub-table `t`, with the key left-aligned: a hit sets the hit bit of an aging entry (R280). A lookup that reads a bad word misses,
whichever entry holds the word (R284). -/
def State.lookExact (s : State) (bad : List BadRead) (t key : Nat) : State × Option Nat :=
  let k := exactKey t key
  if !(badOf bad 3).isEmpty then ((s.foundAll 3 0 bad).parityMiss 3, none)
  else
    match mfind s.fwd.exact k with
    | none => (s, none)
    | some e =>
      (if e.age then s.updFwd fun f => { f with exact := mput f.exact k { e with hit := true } } else s, some e.data)

/-- BRIDGE DEST in a half. -/
def State.lookDest (s : State) (bad : List BadRead) (h key : Nat) : State × Option Nat :=
  if !(badOf bad 4).isEmpty then ((s.foundAll 4 h bad).parityMiss 4, none)
  else (s, (mfind (s.fwd.half h) key).map BridgeEntry.data)

/-- STATION with LOCAL of a bridging word as one number, to compare with a packet's station (R274). -/
def localOf (d : Nat) : Bool := bit d 41
def stationOf (d : Nat) : Nat := bits d 40 32
def staticOf (d : Nat) : Bool := bit d 42

/-- Does a bridging word agree with a station (R274)? -/
def agrees (d q : Nat) : Bool := localOf d && stationOf d == q

/-- Pending learn requests of a half. -/
def FwdSt.requests (f : FwdSt) (h : Nat) : List LearnReq := mget f.learn [] h

/-- Change the pending requests of a half, with LEARN_QUEUE_DEPTH. -/
def State.setRequests (s : State) (h : Nat) (l : List LearnReq) : State :=
  (s.updFwd fun f => { f with learn := mset f.learn [] h l }).wr (O.learnQueueDepth h) l.length

/-- Request learning (R275): merged into a pending request of the same key, or dropped when the queue is full. -/
def State.learn (s : State) (h key station : Nat) (move : Bool) : State :=
  let l := s.fwd.requests h
  if l.any (fun r => r.key == key) then
    s.setRequests h (l.map fun r => if r.key = key then { key := key, station := station, move := move } else r)
  else if l.length ≥ 4096 then s.inc (O.learnDrops h)
  else s.setRequests h (l ++ [{ key := key, station := station, move := move }])

/-- BRIDGE SOURCE in a half (R274). -/
def State.lookSource (s : State) (bad : List BadRead) (h key station : Nat) : State × Option Nat :=
  let off := s.rd (O.learnMode station) == 0
  if !(badOf bad 4).isEmpty then
    let s := (s.foundAll 4 h bad).parityMiss 4
    (if off then s else s.learn h key station false, none)
  else
    match mfind (s.fwd.half h) key with
    | none => (if off then s else s.learn h key station false, none)
    | some e =>
      if agrees e.data station then (s.setHalf h (mput (s.fwd.half h) key { e with hit := true }), some e.data)
      else if staticOf e.data then (s.inc (O.staticMismatches h), some (e.data + 2 ^ 43))
      else (if off then s else s.learn h key station true, some (e.data + 2 ^ 43))

/-- Read an index of an index table: a BAD one has a bad word, so that every lookup of it is counted (R284). -/
def State.lookIndex (s : State) (bad : List BadRead) (tid i : Nat) : State × Option Nat :=
  if !(badOf bad tid).isEmpty then ((s.badIndex tid i (badOf bad tid)).parityMiss tid, none)
  else if s.fwd.idxState tid i = 3 then (s.parityMiss tid, none) else (s, s.fwd.idxHit tid i)

/-- Word A of the next hop of a reference (R257 steps 1 and 3). -/
def State.nextHopA (s : State) (bad : List BadRead) (i : Nat) : State × Option Nat :=
  let r := s.lookIndex bad 5 i
  (r.1, r.2.map fun d => d / 2 ^ 64)

/-- The member that an entropy selects in a group (R257 step 2). -/
def memberOf (group entropy : Nat) : Nat :=
  bits group 53 32 + (crc32c (beBytes 4 entropy) / 65536) * bits group 10 0 / 65536

/-- RESOLVE (R257). -/
def State.resolve (s : State) (bad : List BadRead) (key : Nat) : State × Option Nat :=
  let ref := key / 2 ^ 32
  let i := ref % 2 ^ 22
  match ref / 2 ^ 22 with
  | 0 => s.nextHopA bad i
  | 1 =>
    match s.lookIndex bad 6 i with
    | (s, none) => (s, none)
    | (s, some g) =>
      match s.lookIndex bad 7 (memberOf g (key % 2 ^ 32)) with
      | (s, none) => (s, none)
      | (s, some m) => s.nextHopA bad (m % 2 ^ 22)
  | _ => (s, none)

/-- The key width of a table as the match chain names it (R254); none for a table that its kind does not define. -/
def State.fwdKeyWidth (s : State) (kind table : Nat) : Option Nat :=
  match kind, table with
  | 1, 0 => some 48
  | 2, 0 => some 144
  | 3, t => if t < 16 && s.rd (O.keyWidth t) ≠ 0 then some (s.rd (O.keyWidth t)) else none
  | 4, 0 => some 64
  | 4, 1 => some 64
  | 6, 0 => some 56
  | 6, 1 => some 22
  | _, _ => none

/-- A stage's lookup of KIND LPM_IPV4 to BRIDGE or NEXT_HOP by a slice (0 to 7 within its direction) for a packet of a station
(R200, R254, R55, R286). -/
def State.fwdLook (s : State) (bad : List BadRead) (kind table slice station width key : Nat) : State × Option Nat :=
  if !s.running .fwd then (s, none)
  else
    let s := s.perfOpen false 0x0020 { priv := 3, master := 0x40 + slice }
    let h := slice % 8 / 4
    match kind, table with
    | 1, 0 => s.look4 bad key
    | 2, 0 => s.look6 bad key
    | 3, t => s.lookExact bad t (key * 2 ^ (160 - width))
    | 4, 0 => s.lookDest bad h key
    | 4, 1 => s.lookSource bad h key station
    | 6, 0 => s.resolve bad key
    | 6, 1 => let r := s.lookIndex bad 8 key; (r.1, r.2.map fun d => d / 2 ^ 448)
    | _, _ => (s, none)

/-! ### Epochs (R268 to R271) -/

/-- Stamps of the live packets of the F-die (R269). -/
def State.stamps (s : State) : List Nat :=
  (s.pk.passes.map fun p => p.pkt.stamp)
    ++ (s.pk.dispatch.map fun e => e.2.map fun p => p.stamp).flatten
    ++ (s.pk.reorder.map fun e => e.2.waiting.map fun w => w.pkt.stamp).flatten

/-- The oldest epoch that has not drained. -/
def State.oldest (s : State) : Nat := s.stamps.foldl min s.fwd.epoch

/-- Indexes RETIRING whose epochs have drained (R271). -/
def State.freeable (s : State) : NMap IndexEntry :=
  s.fwd.index.filter fun e => e.2.state == 2 && decide (e.2.tag + 1 < s.oldest)

/-- Free an index and report it (R271, R287). -/
def State.freeIndex (s : State) (k : Nat) (e : IndexEntry) : State :=
  let tid := k / 2 ^ 24
  let s := (s.setIndex tid (mdel s.fwd.index k)).inc O.indexesFreed
  s.raise 3 0x0381 0x08 INFO tid (k % 2 ^ 24) (e.tag % 65536)

/-- Follow the epochs: OLDEST_UNDRAINED, and the indexes that become FREE. -/
def State.drain (s : State) : State :=
  let s := s.wr O.oldestUndrained (s.oldest % 65536)
  s.freeable.foldl (fun s e => s.freeIndex e.1 e.2) s

/-- The meaning of EPOCH_ADVANCE (R268, R269, R271): the counter runs while PIPE is released. Log entry 51 (DEDUCED). -/
def execEpochAdvance (s : State) : Host.Outcome State Fault Refusal :=
  if !bit s.pwr.released 1 || s.fwd.epoch - s.oldest = 32767 then done s
  else
    let s := s.updFwd fun f => { f with epoch := f.epoch + 1, period := s.rd O.epochPeriod }
    done (s.wr O.epoch (s.fwd.epoch % 65536)).drain

/-! ### Commands (R260 to R264) -/

/-- Bytes of TBL_KEY, TBL_DATA and TBL_CURSOR (R260, R261). -/
def tblKeyLen (tid : Nat) : Nat := [6, 18, 20, 8, 4, 4, 4, 4].getD (tid - 1) 0
def tblDataLen (tid : Nat) : Nat := [4, 4, 8, 8, 16, 8, 4, 64].getD (tid - 1) 0
def tblCursorLen (tid : Nat) : Nat := [7, 19, 20, 8, 4, 4, 4, 4].getD (tid - 1) 0

/-- What a table command names beside its key and data: LPM length, EXACT sub-table and AGE, BRIDGE halves, station and
INCLUDE_STATIC, FROM_START, LONGEST (R263, R266). -/
structure TblArg where
  len       : Nat := 0
  sub       : Nat := 0
  age       : Bool := false
  halves    : Nat := 0
  station   : Nat := 0
  static    : Bool := false
  fromStart : Bool := false
  longest   : Bool := false
  deriving DecidableEq, Repr

/-- The fields of an argument, and whether its reserved bits are zero (R263). -/
def tblArg (tid : Nat) (arg : BitVec 24) (len : Nat) : Option TblArg :=
  let a := arg.toNat
  let ok := if tid ≤ 2 then 0xC00000 else if tid = 3 then 0x80001F else if tid = 4 then 0x8FFF00 else 0x800000
  if a &&& ok = a then
    some { len := len, sub := if tid = 3 then a % 16 else 0, age := tid == 3 && bit a 4,
           halves := if tid = 4 then bits a 9 8 else 0, station := if tid = 4 then bits a 19 11 else 0,
           static := tid == 4 && bit a 10, fromStart := bit a 23, longest := tid ≤ 2 && bit a 22 }
  else none

/-- What a table command answers: a status, FOUND, and the entry that it returns (key, data, length). -/
structure TblAnswer where
  status : Status
  found  : Bool := false
  key    : Option Nat := none
  data   : Option Nat := none
  len    : Option Nat := none
  deriving DecidableEq, Repr

/-- The halves that a command names. -/
def halvesOf (m : Nat) : List Nat := [0, 1].filter fun h => bit m h

/-- Is route data acceptable (R255)? -/
def routeOk (d : Nat) : Bool :=
  (bits d 23 22 == 0 && decide (d % 2 ^ 22 < 1048576)) || (bits d 23 22 == 1 && decide (d % 2 ^ 22 < 65536))

/-- Is a bridging word acceptable for storing (R258)? -/
def bridgeOk (d : Nat) : Bool := d / 2 ^ 43 == 0 && (localOf d || stationOf d == 0)

/-- Is the data of an index acceptable (R256, R257)? -/
def indexOk (tid d : Nat) : Bool :=
  match tid with
  | 5 => bits d 107 99 == 0 && !bit d 64 && bits d 67 66 != 3 && decide (bits d 63 42 < 262144)
  | 6 => bits d 63 54 == 0 && bits d 31 11 == 0 && decide (1 ≤ bits d 10 0) && decide (bits d 10 0 ≤ 1024)
      && decide (bits d 53 32 + bits d 10 0 ≤ 1048576)
  | 7 => bits d 31 22 == 0 && decide (d % 2 ^ 22 < 1048576)
  | _ => true

/-- An LPM key and its length are acceptable: no address bits beyond the length (R262). -/
def lpmOk (w key len : Nat) : Bool := decide (len ≤ w) && key % 2 ^ (w - len) == 0

/-- An EXACT key is acceptable in its sub-table (R262). -/
def State.exactOk (s : State) (sub key : Nat) : Bool :=
  s.rd (O.keyWidth sub) != 0 && key % 2 ^ (160 - s.rd (O.keyWidth sub)) == 0

/-- Does a prefix lie within a node's range (R285)? -/
def within (w vrf addr len : Nat) (b : Nat × Nat × Nat) : Bool :=
  b.1 == vrf && decide (b.2.2 ≤ len) && prefixOf w addr b.2.2 == b.2.1

/-- Prefixes of a table that do not lie within a range. -/
def outside (w enc : Nat) (m : NMap Nat) (b : Nat × Nat × Nat) : NMap Nat :=
  m.filter fun e => !within w (e.1 / enc / 2 ^ w) (e.1 / enc % 2 ^ w) (e.1 % enc) b

/-- INSERT in an LPM table: a bad node whose range holds the prefix is emptied first (R262, R285). `w` is 32 or 128. -/
def State.insertLpm (s : State) (v6 : Bool) (key data len : Nat) : State × TblAnswer :=
  let w := if v6 then 128 else 32
  let enc := if v6 then 256 else 64
  if !lpmOk w key len || !routeOk data then (s, { status := .range })
  else
    let bad := (if v6 then s.fwd.bad6 else s.fwd.bad4).filter fun b => within w (key / 2 ^ w) (key % 2 ^ w) len b
    let m := bad.foldl (outside w enc) (if v6 then s.fwd.v6 else s.fwd.v4)
    let k := key * enc + len
    let found := (mfind m k).isSome
    if !found && m.length ≥ (if v6 then 3145728 else 8388608) then (s, { status := .noResource })
    else
      let s := s.updFwd fun f =>
        if v6 then { f with bad6 := f.bad6.filter fun b => !bad.contains b }
        else { f with bad4 := f.bad4.filter fun b => !bad.contains b }
      let m := mput m k data
      (if v6 then s.set6 m else s.set4 m, { status := .ok, found := found })

/-- INSERT in EXACT (R259, R262, R280). -/
def State.insertExact (s : State) (a : TblArg) (key data : Nat) : State × TblAnswer :=
  if !s.exactOk a.sub key || (a.age && s.rd (O.keyWidth a.sub) > 64) then (s, { status := .range })
  else
    let k := exactKey a.sub key
    let found := (mfind s.fwd.exact k).isSome
    if !found && s.slotsUsed + s.slotsOf a.sub > 4194304 then (s, { status := .noResource })
    else (s.setExact a.sub (mput s.fwd.exact k { data := data, age := a.age, hit := true, mark := false }),
      { status := .ok, found := found })

/-- INSERT in the bridging halves named, one after the other (R262, R279, R280). -/
def State.insertBridge (s : State) (key data : Nat) : List Nat → Bool → State × TblAnswer
  | [], found => (s, { status := .ok, found := found })
  | h :: t, found =>
    let had := (mfind (s.fwd.half h) key).isSome
    if !had && (s.fwd.half h).length ≥ 2097152 then (s, { status := .noResource, found := found })
    else State.insertBridge (s.setHalf h (mput (s.fwd.half h) key { data := data, hit := true, mark := false })) key data t
      (found || had)

/-- INSERT of an index (R270). -/
def State.insertIndex (s : State) (tid i data : Nat) : State × TblAnswer :=
  if i ≥ tblIndexes tid || !indexOk tid data then (s, { status := .range })
  else
    let st := s.fwd.idxState tid i
    if st = 2 then (s, { status := .busy, found := true })
    else (s.setIndex tid (mput s.fwd.index (idxKey tid i) { state := 1, data := data }), { status := .ok, found := st == 1 })

/-- TBL_CMD INSERT (R262). -/
def State.tblInsert (s : State) (tid : Nat) (a : TblArg) (key data : Nat) : State × TblAnswer :=
  match tid with
  | 1 => s.insertLpm false key data a.len
  | 2 => s.insertLpm true key data a.len
  | 3 => s.insertExact a key data
  | 4 => if a.halves = 0 || !bridgeOk data then (s, { status := .range }) else s.insertBridge key data (halvesOf a.halves) false
  | _ => s.insertIndex tid key data

/-- DELETE in the bridging halves named. -/
def State.deleteBridge (s : State) (key : Nat) : List Nat → Bool → State × TblAnswer
  | [], found => (s, { status := .ok, found := found })
  | h :: t, found =>
    State.deleteBridge (s.setHalf h (mdel (s.fwd.half h) key)) key t (found || (mfind (s.fwd.half h) key).isSome)

/-- TBL_CMD DELETE (R262). Log entry 51 (DEDUCED). -/
def State.tblDelete (s : State) (tid : Nat) (a : TblArg) (key : Nat) : State × TblAnswer :=
  match tid with
  | 1 =>
    if !lpmOk 32 key a.len then (s, { status := .range })
    else (s.set4 (mdel s.fwd.v4 (key * 64 + a.len)), { status := .ok, found := (mfind s.fwd.v4 (key * 64 + a.len)).isSome })
  | 2 =>
    if !lpmOk 128 key a.len then (s, { status := .range })
    else (s.set6 (mdel s.fwd.v6 (key * 256 + a.len)), { status := .ok, found := (mfind s.fwd.v6 (key * 256 + a.len)).isSome })
  | 3 =>
    if !s.exactOk a.sub key then (s, { status := .range })
    else (s.setExact a.sub (mdel s.fwd.exact (exactKey a.sub key)),
      { status := .ok, found := (mfind s.fwd.exact (exactKey a.sub key)).isSome })
  | 4 => if a.halves = 0 then (s, { status := .range }) else s.deleteBridge key (halvesOf a.halves) false
  | _ => (s, { status := .range })

/-- Bad nodes of an LPM table. -/
def FwdSt.badNodes (f : FwdSt) (v6 : Bool) : List (Nat × Nat × Nat) := if v6 then f.bad6 else f.bad4

/-- SEARCH in an LPM table (R262): the path of a LONGEST search is its address's, that of an exact one ends at its prefix (R285). -/
def State.searchLpm (s : State) (bad : List BadRead) (v6 : Bool) (a : TblArg) (key : Nat) : State × TblAnswer :=
  let w := if v6 then 128 else 32
  let tid := if v6 then 2 else 1
  if !a.longest && !lpmOk w key a.len then (s, { status := .range })
  else
    let s := s.badPath v6 (key / 2 ^ w) (key % 2 ^ w) bad
    let path := if a.longest then w else a.len
    if (s.fwd.badNodes v6).any fun b => within w (key / 2 ^ w) (key % 2 ^ w) path b then (s.parityMiss tid, { status := .ok })
    else if a.longest then
    match (if v6 then s.fwd.longest6 (key / 2 ^ w) (key % 2 ^ w) else s.fwd.longest4 (key / 2 ^ w) (key % 2 ^ w)) with
    | some (d, len) => (s, { status := .ok, found := true, data := some d, len := some len })
    | none => (s, { status := .ok })
    else match (if v6 then mfind s.fwd.v6 (key * 256 + a.len) else mfind s.fwd.v4 (key * 64 + a.len)) with
    | some d => (s, { status := .ok, found := true, data := some d })
    | none => (s, { status := .ok })

/-- A command's answer for data that may be absent. -/
def answerOf (d : Option Nat) : TblAnswer := { status := .ok, found := d.isSome, data := d }

/-- TBL_CMD SEARCH (R262); `bad` is what it reads with bad parity (R284). -/
def State.tblSearch (s : State) (bad : List BadRead) (tid : Nat) (a : TblArg) (key : Nat) : State × TblAnswer :=
  match tid with
  | 1 => s.searchLpm bad false a key
  | 2 => s.searchLpm bad true a key
  | 3 => if !s.exactOk a.sub key then (s, { status := .range })
         else if !(badOf bad 3).isEmpty then ((s.foundAll 3 0 bad).parityMiss 3, { status := .ok })
         else (s, answerOf ((mfind s.fwd.exact (exactKey a.sub key)).map ExactEntry.data))
  | 4 => if a.halves = 1 || a.halves = 2 then let r := s.lookDest bad (a.halves - 1) key; (r.1, answerOf r.2)
         else (s, { status := .range })
  | _ => if key ≥ tblIndexes tid then (s, { status := .range }) else let r := s.lookIndex bad tid key; (r.1, answerOf r.2)

/-- `n` words of 64 bits whose values are open. -/
def State.openWords (s : State) : Nat → Nat × State
  | 0 => (0, s)
  | n + 1 =>
    let r := State.openWords s n
    let v := r.2.open_
    (r.1 * 2 ^ 64 + v.1.toNat, v.2)

/-- The first listed pair whose key is at least `lo` and below `hi`. -/
def firstFrom {α : Type} (m : NMap α) (lo hi : Nat) : Option (Nat × α) :=
  m.find? fun e => decide (lo ≤ e.1) && decide (e.1 < hi)

/-- The number of a cursor in its table's order: LPM cursors end in the length byte (R261, R264). -/
def cursorOf (tid cursor : Nat) : Nat := if tid = 1 then cursor / 256 * 64 + min (cursor % 256) 63 else cursor

/-- TBL_CMD NEXT (R264): the entry after the cursor. Entries within a bad LPM node's range cannot be read and are passed over; the data of
a BAD index is open. Log entry 51 (DEDUCED). -/
def State.tblNext (s : State) (tid : Nat) (a : TblArg) (cursor : Nat) : State × TblAnswer :=
  let lo := if a.fromStart then 0 else cursorOf tid cursor + 1
  match tid with
  | 1 =>
    let m := s.fwd.bad4.foldl (outside 32 64) s.fwd.v4
    match firstFrom m lo (2 ^ 54) with
    | some (k, d) => (s, { status := .ok, found := true, key := some (k / 64), data := some d, len := some (k % 64) })
    | none => (s, { status := .ok })
  | 2 =>
    let m := s.fwd.bad6.foldl (outside 128 256) s.fwd.v6
    match firstFrom m lo (2 ^ 152) with
    | some (k, d) => (s, { status := .ok, found := true, key := some (k / 256), data := some d, len := some (k % 256) })
    | none => (s, { status := .ok })
  | 3 =>
    if s.rd (O.keyWidth a.sub) = 0 then (s, { status := .range })
    else match firstFrom s.fwd.exact (exactKey a.sub lo) (exactKey (a.sub + 1) 0) with
      | some (k, e) => (s, { status := .ok, found := true, key := some (k % 2 ^ 160), data := some e.data, len := some 0 })
      | none => (s, { status := .ok })
  | 4 =>
    if a.halves = 1 || a.halves = 2 then
      match firstFrom (s.fwd.half (a.halves - 1)) lo (2 ^ 64) with
      | some (k, e) => (s, { status := .ok, found := true, key := some k, data := some e.data, len := some 0 })
      | none => (s, { status := .ok })
    else (s, { status := .range })
  | _ =>
    match firstFrom s.fwd.index (idxKey tid lo) (idxKey (tid + 1) 0) with
    | some (k, e) =>
      if e.state = 3 then
        let v := s.openWords ((tblDataLen tid + 7) / 8)
        (v.2, { status := .ok, found := true, key := some (k % 2 ^ 24), data := some v.1, len := some 0 })
      else (s, { status := .ok, found := true, key := some (k % 2 ^ 24), data := some e.data, len := some 0 })
    | none => (s, { status := .ok })

/-- Halves that are being flushed. -/
def State.flushing (s : State) : Nat := s.fwd.flushes.foldl (fun m f => m ||| f.halves) 0

/-- FLUSH_PORT (R283). -/
def State.flushPort (s : State) (tid halves station : Nat) (static : Bool) (ring : Option (Nat × Nat × Nat)) :
    State × TblAnswer :=
  if tid ≠ 4 || halves = 0 || station ≥ 512 then (s, { status := .range })
  else if s.flushing &&& halves ≠ 0 then (s, { status := .busy })
  else
    let s := s.updFwd fun f => { f with
      flushes := f.flushes ++ [{ halves := halves, station := station, static := static, ring := ring, start := s.pipe }] }
    (s.wr O.flushBusy s.flushing, { status := .ok })

/-- RETIRE (R270). -/
def State.tblRetire (s : State) (tid i : Nat) : State × TblAnswer :=
  if tid < 5 || i ≥ tblIndexes tid then (s, { status := .range })
  else match mfind s.fwd.index (idxKey tid i) with
    | none => (s, { status := .ok })
    | some e =>
      if e.state ≠ 2 && s.fwd.retiring ≥ 65536 then (s, { status := .noResource, found := true })
      else (s.setIndex tid (mput s.fwd.index (idxKey tid i) { e with state := 2, tag := s.fwd.epoch }),
        { status := .ok, found := true })

/-- Write an OCTETS object from a big-endian number of `n` bytes. -/
def State.wrBe (s : State) (k n v : Nat) : State := s.wrB k (beBytes n v)

/-- An OCTETS object of `n` bytes as a big-endian number. -/
def State.rdBe (s : State) (k n : Nat) : Nat := beNat (s.rdB k n)

/-- Record a command's answer in the objects of its table (R261). -/
def State.tblRecord (s : State) (tid : Nat) (a : TblAnswer) : State :=
  let s := (s.wrSt (O.tblStatus tid) a.status).wr (O.tblFound tid) (b2n a.found)
  let s := match a.data with
    | some d => s.wrBe (O.tblData tid) (tblDataLen tid) d
    | none => s
  let s := match a.len with
    | some l => s.wr (O.tblLen tid) l
    | none => s
  match a.key with
  | some k =>
    let s := s.wrBe (O.tblKey tid) (tblKeyLen tid) k
    if tid ≤ 2 then s.wrBe (O.tblCursor tid) (tblCursorLen tid) (k * 256 + a.len.getD 0)
    else s.wrBe (O.tblCursor tid) (tblCursorLen tid) k
  | none => s

/-- After a command on an index table, TBL_INDEX_STATE gives the state of its index, where the table has it (R261). -/
def State.tblIndexNote (s : State) (tid : Nat) : State :=
  let i := s.rdBe (O.tblKey tid) (tblKeyLen tid)
  if tid ≥ 5 && decide (i < tblIndexes tid) then s.wr (O.tblIndexState tid) (s.fwd.idxState tid i) else s

/-- A TBL_CMD: refused while FWD is neither STOPPED nor RUNNING (R286) or with a reserved argument bit set, otherwise performed and recorded. -/
def cmdTbl (tid : Nat) (arg : BitVec 24) (f : State → TblArg → Nat → Nat → State × TblAnswer) (s : State) : State × Status :=
  let r : State × TblAnswer :=
    match s.workRefused .fwd with
    | some st => (s, { status := st })
    | none =>
      match tblArg tid arg (s.rd (O.tblLen tid)) with
      | none => (s, { status := .range })
      | some a => f s a (s.rdBe (O.tblKey tid) (tblKeyLen tid)) (s.rdBe (O.tblData tid) (tblDataLen tid))
  ((r.1.tblRecord tid r.2).tblIndexNote tid, r.2.status)

/-- A command reads a table, and writes it or not, for a master (events 0x0020 and 0x0021): the number of accesses is open. -/
def State.tableSram (s : State) (write : Bool) (master : Nat) : State :=
  let s := s.perfOpen false 0x0020 (.by master)
  if write then s.perfOpen false 0x0021 (.by master) else s

/-- A command that reads words of a table: those with bad parity are treated first, unless the command is refused with RANGE and reads
nothing (R284, R285). -/
def State.reading (s : State) (tid : Nat) (a : TblArg) (bad : List BadRead) (f : State → State × TblAnswer) : State × TblAnswer :=
  let r := f (bad.foldl (fun s b => s.foundBad tid (if a.halves = 3 then b.len % 2 else a.halves - 1) b) s)
  if r.2.status = .range then (s, r.2) else r

/-- TBL_CMD INSERT for a master, with the words that it reads bad. -/
def State.cmdInsert (s : State) (master : Nat) (bad : List BadRead) (tid : Nat) (a : TblArg) (key data : Nat) : State × TblAnswer :=
  s.reading tid a bad fun s => (s.tableSram true master).tblInsert tid a key data

/-- TBL_CMD DELETE for a master, with the words that it reads bad. -/
def State.cmdDelete (s : State) (master : Nat) (bad : List BadRead) (tid : Nat) (a : TblArg) (key : Nat) : State × TblAnswer :=
  s.reading tid a bad fun s => (s.tableSram true master).tblDelete tid a key

/-- TBL_CMD SEARCH for a master. -/
def State.cmdSearch (s : State) (master : Nat) (bad : List BadRead) (tid : Nat) (a : TblArg) (key : Nat) : State × TblAnswer :=
  s.reading tid a [] fun s => (s.tableSram false master).tblSearch bad tid a key

/-- TBL_CMD NEXT for a master, with the words that it reads bad. -/
def State.cmdNext (s : State) (master : Nat) (bad : List BadRead) (tid : Nat) (a : TblArg) : State × TblAnswer :=
  s.reading tid a bad fun s => (s.tableSram false master).tblNext tid a (s.rdBe (O.tblCursor tid) (tblCursorLen tid))

/-- TBL_CMD RETIRE for a master. -/
def State.cmdRetire (s : State) (master tid : Nat) (key : Nat) : State × TblAnswer :=
  s.reading tid {} [] fun s => (s.tableSram true master).tblRetire tid key

/-- The meaning of TBL_INSERT. -/
def execTblInsert (p : Path) (tid : Fin 8) (read : TblRead) (s : State) : Host.Outcome State Fault Refusal :=
  let t := tid.val + 1
  done (access p (O.tblCmd t) (cmdData 1 read.arg) (cmdTbl t read.arg fun s a k d => s.cmdInsert (Path.master p) read.bad t a k d) s)

/-- The meaning of TBL_DELETE. -/
def execTblDelete (p : Path) (tid : Fin 8) (read : TblRead) (s : State) : Host.Outcome State Fault Refusal :=
  let t := tid.val + 1
  done (access p (O.tblCmd t) (cmdData 2 read.arg) (cmdTbl t read.arg fun s a k _ => s.cmdDelete (Path.master p) read.bad t a k) s)

/-- The meaning of TBL_SEARCH. -/
def execTblSearch (p : Path) (tid : Fin 8) (read : TblRead) (s : State) : Host.Outcome State Fault Refusal :=
  let t := tid.val + 1
  done (access p (O.tblCmd t) (cmdData 3 read.arg) (cmdTbl t read.arg fun s a k _ => s.cmdSearch (Path.master p) read.bad t a k) s)

/-- The meaning of TBL_NEXT. -/
def execTblNext (p : Path) (tid : Fin 8) (read : TblRead) (s : State) : Host.Outcome State Fault Refusal :=
  let t := tid.val + 1
  done (access p (O.tblCmd t) (cmdData 4 read.arg) (cmdTbl t read.arg fun s a _ _ => s.cmdNext (Path.master p) read.bad t a) s)

/-- The meaning of FLUSH_PORT. -/
def execFlushPort (p : Path) (tid : Fin 8) (arg : BitVec 24) (s : State) : Host.Outcome State Fault Refusal :=
  let t := tid.val + 1
  done (access p (O.tblCmd t) (cmdData 5 arg) (cmdTbl t arg fun s a _ _ => s.flushPort t a.halves a.station a.static none) s)

/-- The meaning of RETIRE. -/
def execRetire (p : Path) (tid : Fin 8) (arg : BitVec 24) (s : State) : Host.Outcome State Fault Refusal :=
  let t := tid.val + 1
  done (access p (O.tblCmd t) (cmdData 6 arg) (cmdTbl t arg fun s _ k _ => s.cmdRetire (Path.master p) t k) s)

/-! ### Flush (R283) -/

/-- Remove the entries of a half that a flush matches where its walk reaches them; their number. -/
def State.flushHalf (s : State) (f : Flush) (h : Nat) (reached : Nat → Bool) : State × Nat :=
  if !bit f.halves h then (s, 0)
  else
    let stay := fun (e : Nat × BridgeEntry) =>
      !agrees e.2.data f.station || (staticOf e.2.data && !f.static) || !reached e.1
    let m := (s.fwd.half h).filter stay
    (s.setHalf h m, (s.fwd.half h).length - m.length)

/-- A sweeper or a flush writes a table. -/
def State.walkWrites (s : State) : State := s.perfOpen false 0x0021 (.by 0x50)

/-- A flush's walk reaches places of both halves, and counts what it removes. -/
def State.flushWalk (s : State) (f : Flush) (reached : Nat → Nat → Bool) : State × Flush :=
  let s := s.perfOpen false 0x0020 (.by 0x50)
  let r0 := s.flushHalf f 0 (reached 0)
  let r1 := r0.1.flushHalf f 1 (reached 1)
  (if r0.2 + r1.2 = 0 then r1.1 else r1.1.walkWrites, { f with gone0 := f.gone0 + r0.2, gone1 := f.gone1 + r1.2 })

/-- The place of an entry in its half. -/
def placeOf (h key : Nat) : Nat := Config.bridgePlace h key % 2097152

/-- Places that the walk of a flush has passed: one per 4 PIPE cycles. Log entry 51 (DEDUCED). -/
def State.flushAt (s : State) (f : Flush) : Nat := (s.pipe - f.start) / 4

/-- A PIPE cycle of the walks: every fourth reaches one more place of each half. Log entry 2 (DESIGN CHOICE). -/
def State.flushTick (s : State) : State :=
  let r := s.fwd.flushes.foldl (fun (a : State × List Flush) f =>
    if (s.pipe - f.start) % 4 ≠ 0 || s.flushAt f = 0 then (a.1, a.2 ++ [f])
    else
      let w := a.1.flushWalk f fun h k => placeOf h k + 1 == s.flushAt f
      (w.1, a.2 ++ [w.2])) (s, [])
  r.1.updFwd fun x => { x with flushes := r.2 }

/-- A descriptor goes on after the flush of one of its records. -/
def State.flushResume (s : State) (f : Flush) : State :=
  match f.ring with
  | some (n, slot, i) =>
    match s.nextEffect n with
    | some x => if x.slot = slot && x.record = i && x.busy then s.resumeAt n slot (i + 1) false else s
    | none => s
  | none => s

/-- The meaning of FLUSH_DONE: the oldest flush has walked the rest of its halves, and reports. `bad0` and `bad1` are the entries of each half
that its walk read with bad parity (R284). -/
def execFlushDone (bad0 bad1 : List BadRead) (s : State) : Host.Outcome State Fault Refusal :=
  match s.fwd.flushes with
  | [] => done s
  | f :: t =>
    let s := (s.foundAll 4 0 bad0).foundAll 4 1 bad1
    let r := s.flushWalk f fun h k => s.flushAt f == 0 || decide (s.flushAt f ≤ placeOf h k)
    let s := r.1.updFwd fun x => { x with flushes := t }
    let s := (s.wr O.flushBusy s.flushing).flushResume f
    done (s.raise 2 0x0282 0x08 NOTICE (f.halves * 65536 + f.station) r.2.gone0 r.2.gone1)

/-! ### Records of DMA rings (R266, R267) -/

/-- Run the records of a buffer from record `i` on until one fails: state, status and the failing record. -/
def runRecords (size : Nat) (f : State → Nat → List Byte → State × Status) : Nat → Nat → List Byte → State →
    State × Status × Nat
  | 0, _, _, s => (s, .ok, 0)
  | fuel + 1, i, d, s =>
    if d.length < size then (s, .ok, 0)
    else
      let r := f s i (d.take size)
      if r.2 = .ok then runRecords size f fuel (i + 1) (d.drop size) r.1 else (r.1, r.2, i)

/-- A host-to-device descriptor whose owner performs records: refused as a whole with `refuse`, or with RANGE when its length is
no multiple of the record size, or run record by record (R267). -/
def State.recordRing (s : State) (n size : Nat) (refuse : Option Status) (f : State → Nat → List Byte → State × Status) : State :=
  match s.nextEffect n with
  | none => s
  | some x =>
    match refuse with
    | some st => s.tookEffect n x.slot st x.desc.bufLength 0
    | none =>
      if x.desc.bufLength % size ≠ 0 then s.tookEffect n x.slot .range x.desc.bufLength 0
      else
        let r := runRecords size f (x.desc.bufLength / size) 0 x.data s
        r.1.tookEffect n x.slot r.2.1 x.desc.bufLength r.2.2

/-- Is a ring a TABLE_CMD ring of a target (R108)? -/
def State.isTableRing (s : State) (n target : Nat) : Bool := s.rd (O.dringKind n) == 1 && s.rd (O.dringTarget n) == target

/-- Bytes of a record (R266). -/
def recordLen (tid : Nat) : Nat := [16, 28, 32, 20, 24, 16, 12, 72].getD (tid - 1) 0

/-- A length rounded up to a multiple of 4. -/
def pad4 (n : Nat) : Nat := (n + 3) / 4 * 4

/-- The fields of a record: its argument, key and data; none when a byte that must be zero is not. -/
def recordOf (tid op : Nat) (r : List Byte) : Option (TblArg × Nat × Nat) :=
  let kl := tblKeyLen tid
  let dl := tblDataLen tid
  let len := le r 0 1
  let flags := le r 1 1
  let key := be r 4 kl
  let data := be r (4 + pad4 kl) dl
  let padOk := le r (4 + kl) (pad4 kl - kl) == 0 && (op != 1 || le r (4 + pad4 kl + dl) (pad4 dl - dl) == 0)
  let headOk := le r 2 2 == 0 && (tid ≤ 2 || len == 0)
    && (if tid = 3 then flags < 32 else if tid = 4 then flags < 8 else flags == 0)
  if padOk && headOk then
    some ({ len := len, sub := if tid = 3 then flags % 16 else 0, age := tid == 3 && bit flags 4,
            halves := if tid = 4 then flags % 4 else 0, station := be r 4 2, static := tid == 4 && bit flags 2 }, key, data)
  else none

/-- Perform one record of INSERT, DELETE or RETIRE; `bad` are the words with bad parity that the records read. -/
def tableRecord (bad : List RecordRead) (tid op : Nat) (s : State) (i : Nat) (r : List Byte) : State × Status :=
  match recordOf tid op r with
  | none => (s, .range)
  | some (a, key, data) =>
    let read := (bad.filter fun b => b.record == i).map RecordRead.read
    let x := match op with
      | 1 => s.cmdInsert 1 read tid a key data
      | 2 => s.cmdDelete 1 read tid a key
      | 6 => s.cmdRetire 1 tid key
      | _ => (s, { status := .range })
    (x.1, x.2.status)

/-- FLUSH_PORT records of a ring: one flush at a time, the next record when it has finished; the descriptor takes effect after the
last (R267). -/
def State.flushRecords (s : State) (n tid : Nat) : State :=
  match s.nextEffect n with
  | none => s
  | some x =>
    let size := recordLen tid
    let i := x.record
    if x.desc.bufLength % size ≠ 0 then s.tookEffect n x.slot .range x.desc.bufLength 0
    else if x.busy && s.fwd.flushes.any (fun f => f.ring == some (n, x.slot, i)) then s
    else if i * size ≥ x.desc.bufLength then s.tookEffect n x.slot .ok x.desc.bufLength 0
    else if s.between .fwd then s
    else
      let r := match recordOf tid 5 (slice x.data (i * size) size) with
        | none => (s, ({ status := .range } : TblAnswer))
        | some (a, _, _) => s.flushPort tid a.halves a.station a.static (some (n, x.slot, i))
      if r.2.status = .ok then r.1.resumeAt n x.slot i true
      else r.1.tookEffect n x.slot r.2.status x.desc.bufLength i

/-- The meaning of TABLE_RING_RECORDS (R266, R267, R286): a descriptor waits while FWD is between its states. -/
def execTableRingRecords (turn : TableTurn) (s : State) : Host.Outcome State Fault Refusal :=
  let n := turn.ring.val
  match (List.range 8).find? fun t => s.isTableRing n (0x00080001 + t) with
  | none => done s
  | some t =>
    let tid := t + 1
    let op := ((s.nextEffect n).map fun f => f.desc.opcode).getD 0
    let refuse := if s.fnState .fwd = DISABLED then some Status.functionDisabled
      else if op = 3 || op = 4 then some .range else none
    if op = 5 && refuse.isNone then done (s.flushRecords n tid)
    else if s.between .fwd then done s
    else done (s.recordRing n (recordLen tid) refuse (tableRecord turn.bad tid op))

/-! ### Learning (R275, R276) -/

/-- Raise BRIDGE_LEARN when LEARN_EVENTS is set (R275, R287). -/
def State.learnEvent (s : State) (h key kind former station : Nat) : State :=
  if s.rd (O.learnEvents h) = 1 then
    s.raise 1 0x0180 0x08 INFO (bits key 47 16) (bits key 15 0 * 65536 + bits key 63 48)
      (kind * 2 ^ 28 + h * 2 ^ 27 + former * 2 ^ 16 + station)
  else s

/-- The word that a learner stores for a station (R275). -/
def State.learnedWord (s : State) (q : Nat) : Nat := 2 ^ 41 + q * 2 ^ 32 + s.rd (O.learnData q)

/-- Report a request in NOTIFY mode, unless its key is in the half's filter (R275, R276). -/
def State.notify (s : State) (h : Nat) (r : LearnReq) (kind former : Nat) : State :=
  let l := mget s.fwd.filter [] h
  if l.contains r.key then s
  else
    let s := s.updFwd fun f => { f with filter := mset f.filter [] h ((r.key :: l).take 4096) }
    s.learnEvent h r.key kind former r.station

/-- Perform a learn request (R275): an entry that the learner reads with bad parity is removed first, so that its key is absent (R285). -/
def State.learnOne (s : State) (bad : List BadRead) (h : Nat) (r : LearnReq) : State :=
  let s := (s.foundAll 4 h bad).perfOpen false 0x0020 (.by 0x50)
  let mode := s.rd (O.learnMode r.station)
  let e : BridgeEntry := { data := s.learnedWord r.station, hit := true, mark := false }
  match mfind (s.fwd.half h) r.key with
  | none =>
    if mode = 1 then
      if (s.fwd.half h).length ≥ 2097152 then (s.inc (O.learnTableFull h)).learnEvent h r.key 5 0 r.station
      else
        let s := s.setHalf h (mput (s.fwd.half h) r.key e)
        let s := s.walkWrites
        ((s.inc (O.halfLearns h)).inc (O.spLearned r.station)).learnEvent h r.key 1 0 r.station
    else if mode = 2 then s.notify h r 3 0
    else s
  | some old =>
    let former := if localOf old.data then stationOf old.data else 0
    if agrees old.data r.station || staticOf old.data then s.inc (O.learnSuperseded h)
    else if mode = 1 then
      let s := s.setHalf h (mput (s.fwd.half h) r.key { e with mark := old.mark })
      let s := s.walkWrites
      ((s.inc (O.halfMoves h)).inc (O.movedIn r.station)).learnEvent h r.key 2 former r.station
    else if mode = 2 then s.notify h r 4 former
    else s

/-- The meaning of LEARN_PERFORM. Log entry 51 (DEDUCED). -/
def execLearnPerform (turn : LearnTurn) (s : State) : Host.Outcome State Fault Refusal :=
  let h := turn.half.val
  if !s.running .fwd then done s
  else match s.fwd.requests h with
    | [] => done s
    | r :: t => done ((s.setRequests h t).learnOne turn.bad h r)

/-! ### Aging (R280 to R282) -/

/-- Visit of a bridging entry (R281): the parity of every entry is checked, also of one that does not age (R285).
Log entry 51 (DEDUCED). -/
def State.visitBridge (s : State) (h key : Nat) (bad keyBad : Bool) : State :=
  match mfind (s.fwd.half h) key with
  | none => s
  | some e =>
    if bad then
      let v := s.walkWrites.open_
      v.2.badBridge h key v.1.toNat keyBad
    else if staticOf e.data then s
    else if e.hit then s.walkWrites.setHalf h (mput (s.fwd.half h) key { e with hit := false, mark := false })
    else if !e.mark then s.walkWrites.setHalf h (mput (s.fwd.half h) key { e with mark := true })
    else
      let s := (s.walkWrites.setHalf h (mdel (s.fwd.half h) key)).inc (if h = 0 then O.agedHalf0 else O.agedHalf1)
      if s.rd O.ageEvents = 1 then
        s.raise 2 0x0280 0x08 INFO (bits key 47 16) (bits key 15 0 * 65536 + bits key 63 48)
          (h * 2 ^ 27 + b2n (localOf e.data) * 512 + stationOf e.data)
      else s

/-- Visit of an exact-match entry (R281, R285). -/
def State.visitExact (s : State) (k : Nat) (bad keyBad : Bool) : State :=
  match mfind s.fwd.exact k with
  | none => s
  | some e =>
    if bad then
      let v := s.walkWrites.open_
      v.2.badExact k v.1.toNat keyBad
    else if !e.age then s
    else if e.hit then s.walkWrites.updFwd fun f => { f with exact := mput f.exact k { e with hit := false, mark := false } }
    else if !e.mark then s.walkWrites.updFwd fun f => { f with exact := mput f.exact k { e with mark := true } }
    else
      let s := (s.walkWrites.setExact (k / 2 ^ 160) (mdel s.fwd.exact k)).inc O.agedExact
      let top := k % 2 ^ 160 / 2 ^ 96
      if s.rd O.ageEvents = 1 then s.raise 2 0x0281 0x08 INFO (k / 2 ^ 160) (top / 2 ^ 32) (top % 2 ^ 32) else s

/-- A sweeper's visit of an entry of its table. -/
def State.sweepVisit (s : State) (w key : Nat) (bad keyBad : Bool) : State :=
  let s := s.perfOpen false 0x0020 (.by 0x50)
  if w < 2 then s.visitBridge w key bad keyBad else s.visitExact key bad keyBad

/-- Numbers of the entries of a sweeper's table. -/
def FwdSt.swept (f : FwdSt) (w : Nat) : List Nat := if w < 2 then (f.half w).map (fun e => e.1) else f.exact.map fun e => e.1

/-- Places of a sweeper's table. -/
def sweepPlaces (w : Nat) : Nat := if w < 2 then 2097152 else 4194304

/-- The place of an entry in the address order of a sweeper's table. -/
def sweepPlace (w key : Nat) : Nat := if w < 2 then placeOf w key else Config.exactPlace key % 4194304

/-- The place that the walk of a sweep is about to visit: one per 4 PIPE cycles (R281). Log entry 51 (DEDUCED). -/
def State.sweepAt (s : State) (x : AgeSweep) : Nat := (s.pipe - x.start) / 4

/-- A sweep visits the entries whose places satisfy a condition, but those that it has visited. -/
def State.sweepWalk (s : State) (w : Nat) (x : AgeSweep) (reached : Nat → Bool) : State :=
  ((s.fwd.swept w).filter fun k => reached (sweepPlace w k) && !x.seen.contains k).foldl (fun s k => s.sweepVisit w k false false) s

/-- A sweep of a sweeper ends, once it has visited what its walk had still to reach; bridging sweeps are counted (R281, R282). -/
def State.sweepEnds (s : State) (w : Nat) (x : AgeSweep) : State :=
  let s := (s.sweepWalk w x fun p => decide (s.sweepAt x ≤ p)).updFwd fun f => { f with sweeps := mdel f.sweeps w }
  if w < 2 then s.inc O.ageSweeps else s

/-- A PIPE cycle of the sweeps: every fourth visits the next place, and the last place ends a sweep. Log entry 2 (DESIGN CHOICE). -/
def State.sweepTick (s : State) : State :=
  s.fwd.sweeps.foldl (fun s e =>
    if (s.pipe - e.2.start) % 4 ≠ 0 || s.sweepAt e.2 = 0 then s
    else
      let s := s.sweepWalk e.1 e.2 fun p => p + 1 == s.sweepAt e.2
      let x : AgeSweep := { e.2 with seen := [] }
      if sweepPlaces e.1 ≤ s.sweepAt x then s.sweepEnds e.1 x else s.updFwd fun f => { f with sweeps := mput f.sweeps e.1 x }) s

/-- The meaning of SWEEP_START (R276, R281, R286): the walk has every place before it. -/
def execSweepStart (w : Fin 3) (s : State) : Host.Outcome State Fault Refusal :=
  let period := if w.val < 2 then s.rd O.bridgeAgePeriod else s.rd O.exactAgePeriod
  if !s.running .fwd || period = 0 then done s
  else
    let s := match mfind s.fwd.sweeps w.val with
      | some x => s.sweepEnds w.val x
      | none => s
    done (s.updFwd fun f => { f with
      sweeps := mput f.sweeps w.val { start := s.pipe }
      filter := if w.val < 2 then mdel f.filter w.val else f.filter })

/-- The meaning of SWEEP_VISIT: `key` is FID and MAC, or sub-table and left-aligned key. The entry is visited when the walk stands at its place,
and once in a sweep (R281). Log entry 51 (DEDUCED). -/
def execSweepVisit (w : Fin 3) (key : Nat) (parityBad keyBad : Bool) (s : State) : Host.Outcome State Fault Refusal :=
  match mfind s.fwd.sweeps w.val with
  | none => done s
  | some x =>
    if !s.running .fwd || sweepPlace w.val key ≠ s.sweepAt x || x.seen.contains key then done s
    else
      let s := s.updFwd fun f => { f with sweeps := mput f.sweeps w.val { x with seen := key :: x.seen } }
      done (s.sweepVisit w.val key parityBad keyBad)

/-! ### Lifecycle (R286) -/

/-- STOPPING of FWD: pending learn requests are discarded and counted, sweeps abandoned. -/
def State.fwdStopping (s : State) : State :=
  let s := [0, 1].foldl (fun s h => (s.add (O.learnDrops h) (s.fwd.requests h).length).setRequests h []) s
  s.updFwd fun f => { f with sweeps := [] }

/-- A forced stop ends every flush where its walk stands (R286). Log entry 27 (DEDUCED and DESIGN CHOICE). -/
def State.fwdForced (s : State) : State :=
  let s := s.fwd.flushes.foldl State.flushResume s
  (s.updFwd fun x => { x with flushes := [] }).wr O.flushBusy 0

/-- DISABLE of FWD: every table empty, every index FREE, no half flushing; the epoch counter runs on. -/
def State.fwdDisable (s : State) : State :=
  (s.updFwd fun f => { epoch := f.epoch, period := f.period }).wr O.flushBusy 0

end Sys2Proof.Machine
end

