-- ==== Sys2Proof/Machine/Assoc.lean ====
section
/-!
DEFINITION. The associative search engine (chapter 10): tables, searches, inserts into holes with their row writes and respacing,
commands, rings and the scrubber.
-/

namespace Sys2Proof.Machine

/-! ### Geometry (R288, R289, R297) -/

/-- A table beside its objects. -/
def State.ascTable (s : State) (t : Nat) : AscTable := mget s.asc.tables {} t

/-- Change a table. -/
def State.updAsc (s : State) (t : Nat) (f : AscTable → AscTable) : State :=
  { s with asc := { s.asc with tables := mupd s.asc.tables {} t f } }

/-- Rows in adjacent slices that an entry takes: w of R288; 0 for WIDTH NONE. -/
def State.ascW (s : State) (t : Nat) : Nat :=
  match s.rd (O.ascWidth t) with
  | 1 => 1 | 2 => 2 | 3 => 4 | _ => 0

/-- ROWS of a table. -/
def State.rowsOf (s : State) (t : Nat) : Nat := s.rd (O.ascGroups t) * 16384

/-- CAPACITY of a table (R297). -/
def State.capacityOf (s : State) (t : Nat) : Nat :=
  let n := s.rd (O.holeInterval t)
  if n = 0 then s.rowsOf t else s.rowsOf t * (n - 1) / n

/-- Slices that a table takes (R290). -/
def State.sliceCount (s : State) (t : Nat) : Nat := s.ascW t * s.rd (O.ascGroups t) * s.rd (O.ascReplicas t)

/-- Slices of one replica. -/
def State.replicaSlices (s : State) (t r : Nat) : List Nat :=
  let k := s.ascW t * s.rd (O.ascGroups t)
  (List.range k).map fun i => s.rd (O.firstSlice t) + r * k + i

/-- Slices of a row's group in every replica. -/
def State.groupSlices (s : State) (t row : Nat) : List Nat :=
  ((List.range (s.rd (O.ascReplicas t))).map fun r =>
    (List.range (s.ascW t)).map fun i =>
      s.rd (O.firstSlice t) + (r * s.rd (O.ascGroups t) + row / 16384) * s.ascW t + i).flatten

/-- Count a slot of each slice listed that exists (R310), and the event of R475. -/
def State.countSlots (s : State) (obj : Nat → Nat) (code : Nat) (o : Occurrence) (l : List Nat) : State :=
  let l := l.filter fun x => x < 24
  (l.foldl (fun s x => s.inc (obj x)) s).perfEvent false code l.length o

/-- Does a use take one of the slices listed in a PIPE cycle? -/
def SlotUse.meets (u : SlotUse) (l : List Nat) (c : Nat) : Bool := u.cycle == c && u.slices.any l.contains

/-- The first PIPE cycle from `c` on in which no use takes a slice listed; the list has as many uses as the first operand says. -/
def slotFrom (m : List SlotUse) (l : List Nat) : Nat → Nat → Nat
  | 0, c => c
  | fuel + 1, c => if m.any fun u => u.meets l c then slotFrom m l fuel (c + 1) else c

/-- Record a use of slices, and forget those of past PIPE cycles; the chain of a search that waits holds until its cycle (R210, R296). -/
def State.takeSlot (s : State) (u : SlotUse) : State :=
  { s with asc := { s.asc with
    slots := (s.asc.slots.filter fun v => decide (s.pipe ≤ v.cycle)) ++ [u]
    chains := match u.chain with
      | some n => mput s.asc.chains n (Nat.max (mget s.asc.chains 0 n) u.cycle)
      | none => s.asc.chains } }

/-- A search that asks in PIPE cycle `c` takes the first cycle from then on in which its slices are free, and waits until then (R296). -/
def State.bookSearch (s : State) (u : SlotUse) : State :=
  let c := slotFrom s.asc.slots u.slices s.asc.slots.length u.cycle
  (s.add (O.searchWaits u.table) (c - u.cycle)).takeSlot { u with cycle := c }

/-- Does the chain of a slice hold for a search that waits (R210, R296)? -/
def State.chainHeld (s : State) (n : Nat) : Bool := decide (s.pipe < mget s.asc.chains 0 n)

/-- The PIPE cycle of the next update slot of the slices listed: UPDATE_SPACING apart while ASSOC is RUNNING; a cycle that has served a search
already is over (R302). -/
def State.updateCycle (s : State) (l : List Nat) : Nat :=
  let gap := if s.running .assoc then s.rd O.updateSpacing else 1
  let c := l.foldl (fun c x => match mfind s.asc.updated x with
    | some t => Nat.max c (t + gap)
    | none => c) s.pipe
  if c = s.pipe && s.asc.slots.any (fun u => u.search && u.meets l c) then c + 1 else c

/-- An update slot of every slice listed: its PIPE cycle serves no search there, and one that was to take it waits on (R296, R302). -/
def State.updateSlot (s : State) (t : Nat) (l : List Nat) (o : Occurrence) : State :=
  let c := s.updateCycle l
  let late := s.asc.slots.filter fun u => u.search && u.meets l c
  let s := s.countSlots O.sliceUpdateSlots 0x0023 o l
  let s := { s with asc := { s.asc with
    slots := s.asc.slots.filter fun u => !(u.search && u.meets l c)
    updated := l.foldl (fun m x => mput m x c) s.asc.updated } }
  late.foldl State.bookSearch (s.takeSlot { table := t, slices := l, cycle := c, search := false })

/-- A search waits for the first PIPE cycle in which its replica is free and takes it (R296). Searches are given in the order in which
the round robin serves them. Log entry 53 (DESIGN CHOICE). -/
def State.searchSlot (s : State) (t : Nat) (l : List Nat) (o : Occurrence) : State :=
  let chain := if 0x40 ≤ o.master && o.master < 0x50 then some (o.master - 0x40) else none
  (s.bookSearch { table := t, slices := l, cycle := s.pipe, search := true, chain := chain }).countSlots O.sliceSearchSlots 0x0022 o l

/-- An identity lookup for a master: one update slot in every slice of replica 0 (R302). -/
def State.lookupSlot (s : State) (master t : Nat) : State :=
  s.updateSlot t (s.replicaSlices t 0) (.by master)

/-- A row write for a master: one update slot in every slice of its group in every replica (R302). -/
def State.writeSlot (s : State) (master t row : Nat) : State := s.updateSlot t (s.groupSlices t row) (.by master)

/-! ### Searches (R291 to R296, R307) -/

/-- Does an entry match a key (R291)? -/
def AscEntry.matches (e : AscEntry) (key : Nat) : Bool := (key &&& e.mask) == e.value

/-- The winner of a search: the valid matching row with the lowest ROW (R292). -/
def AscTable.winner (x : AscTable) (key : Nat) : Option (Nat × AscEntry) := x.rows.find? fun e => e.2.matches key

/-- The 64-bit result of a hit (R293). -/
def ascResult (row tag : Nat) : Nat := row * 2 ^ 45 + tag

/-- The row that a write copies. -/
def RowWrite.source : RowWrite → Option Nat
  | .copy a _ _ => some a
  | .write _ _ _ | .clear _ _ => none

/-- The row that a write changes. -/
def RowWrite.row : RowWrite → Nat
  | .copy _ b _ => b
  | .write r _ _ => r
  | .clear r _ => r

/-- Does a row hold an entry, and not one that a write due is about to remove or that another row holds too (R300, R301)? -/
def AscTable.holds (x : AscTable) (row : Nat) : Bool :=
  match x.due.find? fun w => w.row == row || w.source == some row with
  | some w => w.source == some row
  | none => true

/-- A row is found bad (R308, R309): counted and reported; the next update slot clears it. `how` is 1 for the scrubber. A row whose entry a
write due removes, or has copied elsewhere, takes no entry with it. Log entry 53 (DESIGN CHOICE). -/
def State.rowBad (s : State) (t replica row : Nat) (e : AscEntry) (tagBad prioBad : Bool) (how : Nat) : State :=
  if (s.ascTable t).bad.contains row then s
  else
    let live := (s.ascTable t).holds row
    let s := s.updAsc t fun x => { x with bad := x.bad ++ [row] }
    let s := if live then (s.wr (O.ascEntries t) (s.rd (O.ascEntries t) - 1)).inc (O.parityRemoved t) else s
    s.raise 3 0x0390 0x09 ERROR (t * 2 ^ 24 + replica * 2 ^ 20 + row) (if tagBad then 0 else e.tag)
      ((if prioBad then 0 else e.prio * 65536) + how * 4 + b2n (!tagBad) * 2 + b2n (!prioBad))

/-- A search of a table on a replica (R292 to R296, R307): its result, or a miss. -/
def State.ascSearch (s : State) (t replica key : Nat) (bad tagBad prioBad : Bool) (o : Occurrence) :
    State × Option (Nat × AscEntry) :=
  if !s.running .assoc || s.ascW t = 0 then (s, none)
  else
    let s := (s.searchSlot t (s.replicaSlices t replica) o).inc (O.ascSearches t)
    match (s.ascTable t).winner key with
    | none => (s, none)
    | some (row, e) =>
      if (s.ascTable t).bad.contains row then (s, none)
      else if bad || tagBad || prioBad then (s.rowBad t replica row e tagBad prioBad 0, none)
      else (s.inc (O.ascHits t), some (row, e))

/-- The meaning of ASSOC_SEARCH: a search that an engine pass issues in a cluster (R295). -/
def execAssocSearch (t : Fin 16) (call : EngineCall) (key : Nat) (bad tagBad prioBad : Bool) (s : State) :
    Host.Outcome State Fault Refusal :=
  let c := call.cluster.val
  let r := s.ascSearch t.val (c % s.rd (O.ascReplicas t.val)) key bad tagBad prioBad
    { priv := 3, master := 0x10 + c, tc := some call.tc.val }
  done (r.1.emit (.searchResult t.val (r.2.map fun x => ascResult x.1 x.2.tag)))

/-! ### Row writes (R300, R302, R305, R308) -/

/-- How an iteration's position follows a copied row (R305). -/
def moveCursor (c source target : Nat) : Nat :=
  if source + 1 = c then target + 1 else if target + 1 = c && decide (c ≤ source) then target else c

/-- Make one row write in the rows. -/
def AscTable.apply (x : AscTable) : RowWrite → AscTable
  | .copy a b _ =>
    match mfind x.rows a with
    | some e => { x with rows := mput x.rows b e, cursor := x.cursor.map fun c => (c.1, moveCursor c.2 a b) }
    | none => { x with rows := mdel x.rows b }
  | .write r e _ => { x with rows := mput x.rows r e }
  | .clear r _ => { x with rows := mdel x.rows r }

/-- Count a row write that is made: a copy of an insert's shift in MOVE_WRITES, a write of a respacing in RESPACE_WRITES (R289, R303). -/
def State.countWrite (s : State) (t : Nat) : RowWrite → State
  | .copy _ _ r => s.inc (if r then O.respaceWrites t else O.moveWrites t)
  | .write _ _ r | .clear _ r => if r then s.inc (O.respaceWrites t) else s

/-- Make the next row write that is due: rows found bad are cleared first (R308). -/
def State.rowStep (s : State) (t : Nat) : State :=
  let x := s.ascTable t
  match x.bad, x.due with
  | r :: b, _ => (s.updAsc t fun x => { x with bad := b, rows := mdel x.rows r }).writeSlot 0x50 t r
  | [], w :: d => ((s.updAsc t fun x => { x.apply w with due := d }).writeSlot x.asker t w.row).countWrite t w
  | [], [] => s

/-- Make every row write that is due before the next command of the table (R299, R302). -/
def State.rowDrain : Nat → Nat → State → State
  | 0, _, s => s
  | fuel + 1, t, s =>
    if (s.ascTable t).due.isEmpty && (s.ascTable t).bad.isEmpty then s else State.rowDrain fuel t (s.rowStep t)

/-- Row writes due. -/
def State.ascOwed (s : State) (t : Nat) : Nat := (s.ascTable t).due.length + (s.ascTable t).bad.length

/-- Drain a table. -/
def State.ascSettle (s : State) (t : Nat) : State := State.rowDrain (s.ascOwed t) t s

/-- A shift reaches a bad row (R308): the row is cleared in place of being copied, and the row that was copied before stays once. The clear
counts as the copy would. Log entry 53 (DESIGN CHOICE). -/
def State.shiftBad (s : State) (t a b : Nat) (respace : Bool) (e : AscEntry) (tagBad prioBad : Bool) (d : List RowWrite) (again : Bool) :
    State :=
  let v := s.open_
  let s := v.2.rowBad t 0 a e tagBad prioBad (v.1.toNat % 2)
  let s := s.updAsc t fun x =>
    { x with bad := x.bad.filter (fun r => r ≠ a), rows := mdel x.rows a, due := (if again then [.clear b respace] else []) ++ d }
  (s.writeSlot (s.ascTable t).asker t a).countWrite t (.copy a b respace)

/-- The meaning of ROW_WRITE: an update slot comes and one row write is made; the operands tell that a row to be copied fails its
parity check. Log entry 53 (DEDUCED). -/
def execRowWrite (t : Fin 16) (bad tagBad prioBad : Bool) (s : State) : Host.Outcome State Fault Refusal :=
  let x := s.ascTable t.val
  match x.bad, x.due with
  | [], .copy a b m :: d =>
    match mfind x.rows a with
    | some e =>
      if bad || tagBad || prioBad then done (s.shiftBad t.val a b m e tagBad prioBad d (mfind x.rows b).isSome)
      else done (s.rowStep t.val)
    | none => done (s.rowStep t.val)
  | _, _ => done (s.rowStep t.val)

/-! ### Inserting into holes (R297 to R299) -/

/-- Is a row a hole? -/
def hole (m : NMap AscEntry) (r : Nat) : Bool := (mfind m r).isNone

/-- Apply row writes to rows. -/
def applyAll (m : NMap AscEntry) (l : List RowWrite) : NMap AscEntry :=
  (l.foldl AscTable.apply { rows := m }).rows

/-- Copies that move rows a .. b−1 up by one, starting next to the hole at b; holes among them move too. Log entry 53 (DEDUCED). -/
def shiftUp (m : NMap AscEntry) (respace : Bool) (a b : Nat) : List RowWrite :=
  (List.range (b - a)).map fun i =>
    if hole m (b - 1 - i) then .clear (b - i) respace else .copy (b - 1 - i) (b - i) respace

/-- Copies that move rows b+1 .. a down by one, starting next to the hole at b. Log entry 53 (DEDUCED). -/
def shiftDown (m : NMap AscEntry) (respace : Bool) (b a : Nat) : List RowWrite :=
  (List.range (a - b)).map fun i =>
    if hole m (b + 1 + i) then .clear (b + i) respace else .copy (b + 1 + i) (b + i) respace

/-- The first of the `n` rows from `lo` that is a hole. -/
def holeFrom (m : NMap AscEntry) : Nat → Nat → Option Nat
  | 0, _ => none
  | n + 1, lo => if hole m lo then some lo else holeFrom m n (lo + 1)

/-- The last row below a row that is a hole. -/
def holeBelow (m : NMap AscEntry) : Nat → Option Nat
  | 0 => none
  | r + 1 => if hole m r then some r else holeBelow m r

/-- Step 3 and 4 of R298: the writes that place an entry, and its row. -/
def placeEntry (m : NMap AscEntry) (rows : Nat) (e : AscEntry) : Option (List RowWrite × Nat) :=
  let below := m.filter fun x => x.2.prio ≤ e.prio
  let a1 := match below.getLast? with
    | some x => x.1 + 1
    | none => 0
  let z := match (m.find? fun x => decide (a1 ≤ x.1)) with
    | some x => x.1
    | none => rows
  if a1 < z then some ([.write a1 e false], a1)
  else
    let up := holeFrom m (rows - (z + 1)) (z + 1)
    let down := if a1 = 0 then none else holeBelow m (a1 - 1)
    match up, down with
    | some h, some l =>
      if h - z ≤ a1 - 1 - l then some (shiftUp m false z h ++ [.write z e false], z)
      else some (shiftDown m false l (a1 - 1) ++ [.write (a1 - 1) e false], a1 - 1)
    | some h, none => some (shiftUp m false z h ++ [.write z e false], z)
    | none, some l => some (shiftDown m false l (a1 - 1) ++ [.write (a1 - 1) e false], a1 - 1)
    | none, none => none

/-- Entries in block b of n rows. -/
def blockCount (m : NMap AscEntry) (n b : Nat) : Nat := (m.filter fun x => x.1 / n == b).length

/-- The nearest block to b, at a distance of at least d, that holds two or more holes; a tie goes to the higher block (R299). -/
def roomyBlock (m : NMap AscEntry) (n blocks b : Nat) : Nat → Nat → Option Nat
  | 0, _ => none
  | fuel + 1, d =>
    if b + d < blocks && blockCount m n (b + d) + 2 ≤ n then some (b + d)
    else if d ≤ b && blockCount m n (b - d) + 2 ≤ n then some (b - d)
    else roomyBlock m n blocks b fuel (d + 1)

/-- A block without a hole. -/
def shortBlock (m : NMap AscEntry) (n : Nat) : Option Nat :=
  (m.map fun x => x.1 / n).eraseDups.find? fun b => blockCount m n b == n

/-- The row writes that give every block a hole again (R299): from each short block's nearest roomy block. Log entry 53 (DEDUCED). -/
def respace : Nat → NMap AscEntry → Nat → Nat → List RowWrite
  | 0, _, _, _ => []
  | fuel + 1, m, n, rows =>
    match shortBlock m n with
    | none => []
    | some b =>
      match roomyBlock m n (rows / n) b (rows / n) 1 with
      | none => []
      | some c =>
        let w := if b < c then
            let h := (holeFrom m n (c * n)).getD (c * n)
            shiftUp m true (b * n + n - 1) h ++ [.clear (b * n + n - 1) true]
          else
            let h := (holeBelow m (c * n + n)).getD (c * n)
            shiftDown m true h (b * n) ++ [.clear (b * n) true]
        w ++ respace fuel (applyAll m w) n rows

/-- The respacing that a table needs. -/
def State.respaceOf (s : State) (t : Nat) (m : NMap AscEntry) : List RowWrite :=
  let n := s.rd (O.holeInterval t)
  if n = 0 then [] else respace (s.rowsOf t / n) m n (s.rowsOf t)

/-- The row that holds an identity: VALUE, MASK and PRIORITY together (R291). -/
def identity (m : NMap AscEntry) (e : AscEntry) : Option Nat :=
  (m.find? fun x => x.2.value == e.value && x.2.mask == e.mask && x.2.prio == e.prio).map Prod.fst

/-- What an associative command answers: status, FOUND, row and entry returned, row writes. -/
structure AscAnswer where
  status : Status
  found  : Bool := false
  row    : Option Nat := none
  entry  : Option AscEntry := none
  writes : Nat := 0
  deriving DecidableEq, Repr

/-- Is an entry acceptable (R291)? -/
def entryOk (e : AscEntry) : Bool := (e.value &&& e.mask) == e.value

/-- Put row writes for a master into a table's queue. -/
def State.queueWrites (s : State) (master t : Nat) (l : List RowWrite) : State :=
  s.updAsc t fun x => { x with due := x.due ++ l, asker := master }

/-- INSERT (R298, R299): the row writes are due one per update slot. Log entry 53 (DEDUCED). -/
def State.ascInsert (s : State) (master t : Nat) (e : AscEntry) : State × AscAnswer :=
  if !entryOk e then (s, { status := .range })
  else
    let s := s.ascSettle t
    let s := s.queueWrites master t (s.respaceOf t (s.ascTable t).rows)
    let s := (s.ascSettle t).lookupSlot master t
    let m := (s.ascTable t).rows
    match identity m e with
    | some r => (s.queueWrites master t [.write r e false], { status := .ok, found := true, row := some r, writes := 1 })
    | none =>
      if s.rd (O.ascEntries t) ≥ s.capacityOf t then (s, { status := .noResource })
      else match placeEntry m (s.rowsOf t) e with
        | none => (s, { status := .noResource })
        | some (w, r) =>
          let sp := s.respaceOf t (applyAll m w)
          let s := s.queueWrites master t (w ++ sp)
          ((s.inc (O.ascInserts t)).wr (O.ascEntries t) (s.rd (O.ascEntries t) + 1),
            { status := .ok, row := some r, writes := w.length + sp.length })

/-- DELETE (R301). -/
def State.ascDelete (s : State) (master t : Nat) (e : AscEntry) : State × AscAnswer :=
  if !entryOk e then (s, { status := .range })
  else
    let s := (s.ascSettle t).lookupSlot master t
    match identity (s.ascTable t).rows e with
    | none => (s, { status := .ok })
    | some r =>
      let s := s.queueWrites master t [.clear r false]
      ((s.inc (O.ascDeletes t)).wr (O.ascEntries t) (s.rd (O.ascEntries t) - 1),
        { status := .ok, found := true, writes := 1 })

/-! ### Commands (R304, R305) -/

/-- Bits of an entry of a table. -/
def State.ascBits (s : State) (t : Nat) : Nat := 160 * s.ascW t

/-- An 80-byte object as a number of the table's width; none when bytes beyond the width are not zero (R304). -/
def State.ascNum (s : State) (k t : Nat) : Option Nat :=
  let v := s.rdBe k 80
  if v % 2 ^ (640 - s.ascBits t) = 0 then some (v / 2 ^ (640 - s.ascBits t)) else none

/-- The entry that the objects hold. -/
def State.ascEntry (s : State) (t : Nat) : Option AscEntry :=
  match s.ascNum O.ascValue t, s.ascNum O.ascMask t with
  | some v, some m => some { value := v, mask := m, prio := s.rd O.ascPriority, tag := s.rd O.ascTag }
  | _, _ => none

/-- An ASC_CMD: the table of its argument, the refusals of R304, R305 and R312, and the record of its answer. -/
def cmdAsc (arg : BitVec 24) (f : State → Nat → State × AscAnswer) (s : State) : State × Status :=
  let t := arg.toNat % 16
  let r : State × AscAnswer :=
    match s.workRefused .assoc with
    | some st => (s, { status := st })
    | none => if arg.toNat % 2 ^ 23 ≥ 16 || s.ascW t = 0 then (s, { status := .range }) else f s t
  let s := ((r.1.wrSt O.ascStatus r.2.status).wr O.ascFound (b2n r.2.found)).wr O.ascWrites r.2.writes
  let s := match r.2.row with
    | some x => s.wr O.ascRow x
    | none => s
  let s := match r.2.entry with
    | some e =>
      let shift := 640 - s.ascBits t
      (((s.wrBe O.ascValue 80 (e.value * 2 ^ shift)).wrBe O.ascMask 80 (e.mask * 2 ^ shift)).wr O.ascPriority e.prio).wr
        O.ascTag e.tag
    | none => s
  (s, r.2.status)

/-- INSERT for a master. -/
def cmdAscInsert (master : Nat) (arg : BitVec 24) : State → State × Status :=
  cmdAsc arg fun s t => match s.ascEntry t with
    | some e => s.ascInsert master t e
    | none => (s, { status := .range })

/-- The meaning of ASC_INSERT. -/
def execAscInsert (p : Path) (arg : BitVec 24) (s : State) : Host.Outcome State Fault Refusal :=
  done (access p O.ascCmd (cmdData 1 arg) (cmdAscInsert (Path.master p) arg) s)

/-- DELETE for a master. -/
def cmdAscDelete (master : Nat) (arg : BitVec 24) : State → State × Status :=
  cmdAsc arg fun s t => match s.ascEntry t with
    | some e => s.ascDelete master t e
    | none => (s, { status := .range })

/-- The meaning of ASC_DELETE. -/
def execAscDelete (p : Path) (arg : BitVec 24) (s : State) : Host.Outcome State Fault Refusal :=
  done (access p O.ascCmd (cmdData 2 arg) (cmdAscDelete (Path.master p) arg) s)

/-- SEARCH for a master: ASC_VALUE is the key, and it stays; the operands tell the winner check of R307. -/
def cmdAscSearch (master : Nat) (x : AscLookup) : State → State × Status :=
  cmdAsc x.arg fun s t => match s.ascNum O.ascValue t with
    | none => (s, { status := .range })
    | some key =>
      let r := (s.ascSettle t).ascSearch t 0 key x.bad x.tagBad x.prioBad (.by master)
      match r.2 with
      | none => (r.1, { status := .ok })
      | some (row, e) => (r.1, { status := .ok, found := true, row := some row, entry := some { e with value := key } })

/-- The meaning of ASC_SEARCH. -/
def execAscSearch (p : Path) (lookup : AscLookup) (s : State) : Host.Outcome State Fault Refusal :=
  done (access p O.ascCmd (cmdData 3 lookup.arg) (cmdAscSearch (Path.master p) lookup) s)

/-- READ of a row (R305). -/
def State.ascRead (s : State) (t row : Nat) : State × AscAnswer :=
  if row ≥ s.rowsOf t then (s, { status := .range })
  else
    let s := s.ascSettle t
    match mfind (s.ascTable t).rows row with
    | some e => (s, { status := .ok, found := true, row := some row, entry := some e })
    | none => (s, { status := .ok })

/-- The meaning of ASC_READ. -/
def execAscRead (p : Path) (arg : BitVec 24) (s : State) : Host.Outcome State Fault Refusal :=
  done (access p O.ascCmd (cmdData 4 arg) (cmdAsc arg fun s t => s.ascRead t (s.rd O.ascRow)) s)

/-- NEXT (R305): the first valid row above the cursor, which follows the entries that shift. -/
def State.ascNext (s : State) (t row : Nat) (fromStart : Bool) : State × AscAnswer :=
  let s := s.ascSettle t
  let lo := if fromStart then 0 else match (s.ascTable t).cursor with
    | some (shown, c) => if shown = row then c else row + 1
    | none => row + 1
  match ((s.ascTable t).rows.find? fun x => decide (lo ≤ x.1)) with
  | some (r, e) =>
    (s.updAsc t fun x => { x with cursor := some (r, r + 1) }, { status := .ok, found := true, row := some r, entry := some e })
  | none => (s, { status := .ok })

/-- The meaning of ASC_NEXT. -/
def execAscNext (p : Path) (arg : BitVec 24) (s : State) : Host.Outcome State Fault Refusal :=
  done (access p O.ascCmd (cmdData 5 arg) (cmdAsc arg fun s t => s.ascNext t (s.rd O.ascRow) (bit arg.toNat 23)) s)

/-- One record of an associative ring (R306): an insert completes with its respacing. -/
def ascRecord (t op : Nat) (s : State) (_ : Nat) (r : List Byte) : State × Status :=
  let n := 20 * s.ascW t
  let e : AscEntry := { prio := be r 0 2, tag := be r 4 4, value := be r 8 n, mask := be r (8 + n) n }
  if be r 2 2 ≠ 0 then (s, .range)
  else
    let x := if op = 1 then s.ascInsert 1 t e else s.ascDelete 1 t e
    (x.1.ascSettle t, x.2.status)

/-- The meaning of ASSOC_RING_RECORDS (R306, R312): a descriptor waits while ASSOC is between its states. -/
def execAssocRingRecords (r : Fin 48) (s : State) : Host.Outcome State Fault Refusal :=
  let n := r.val
  match (List.range 16).find? fun t => s.isTableRing n (0x00090000 + t) with
  | none => done s
  | some t =>
    let op := ((s.nextEffect n).map fun f => f.desc.opcode).getD 0
    let refuse := if s.fnState .assoc = DISABLED then some Status.functionDisabled
      else if s.ascW t = 0 || op > 2 then some .range else none
    if s.between .assoc then done s else done (s.recordRing n (8 + 40 * s.ascW t) refuse (ascRecord t op))

/-! ### Scrubber (R307, R308) -/

/-- Slices in use (R303). -/
def State.slicesUsed (s : State) : List Nat := (List.range 24).filter fun x => s.rd (O.sliceTable x) != 0xFF

/-- Does a slice hold a valid row of the table that owns it? -/
def State.sliceHolds (s : State) (slice : Nat) : Bool :=
  let t := s.rd (O.sliceTable slice)
  let g := (slice - s.rd (O.firstSlice t)) / s.ascW t % s.rd (O.ascGroups t)
  (s.ascTable t).rows.any fun e => e.1 / 16384 == g

/-- The scrubber has come past a row of a slice: SCRUB_PASSES counts when its pass over every slice in use is complete; in a slice without a valid
row there is nothing to check. Log entry 53 (DEDUCED). -/
def State.scrubbed (s : State) (slice row : Nat) : State :=
  let x := mget s.asc.scrub 0 slice
  let x := if row < x / 2 then 1 else x % 2
  let s := { s with asc := { s.asc with scrub := mput s.asc.scrub slice ((row + 1) * 2 + x) } }
  if s.slicesUsed.all fun i => mget s.asc.scrub 0 i % 2 == 1 || !s.sliceHolds i then
    let s := { s with asc := { s.asc with scrub := s.asc.scrub.map fun (e : Nat × Nat) => (e.1, e.2 / 2 * 2) } }
    s.inc O.scrubPasses
  else s

/-- ROW of a row of a slice that a table owns (R288). -/
def State.rowOfSlice (s : State) (t slice row : Nat) : Nat :=
  (slice - s.rd (O.firstSlice t)) / s.ascW t % s.rd (O.ascGroups t) * 16384 + row

/-- The meaning of SCRUB_ROW: the parity of one valid row of a slice is checked; a hole is passed over. Log entry 53 (DEDUCED). -/
def execScrubRow (slice : Fin 24) (row : Nat) (bad tagBad prioBad : Bool) (s : State) : Host.Outcome State Fault Refusal :=
  let t := s.rd (O.sliceTable slice.val)
  if t = 0xFF || !s.running .assoc then done s
  else match mfind (s.ascTable t).rows (s.rowOfSlice t slice.val row) with
    | none => done (s.scrubbed slice.val row)
    | some e =>
      let s := if bad || tagBad || prioBad then
          s.rowBad t (s.rd (O.sliceReplica slice.val)) (s.rowOfSlice t slice.val row) e tagBad prioBad 1
        else s
      done (s.scrubbed slice.val row)

/-! ### The chain's use of the engine, START (R201, R311) -/

/-- A stage object of the active chain bank (R205), by the key of the standby object. -/
def State.stageObj (s : State) (k : Nat) : Nat := mget s.pk.chain (dfltOf k) k

/-- Total length of the key fragments of a stage, as an accessor of one bank gives them (R201). -/
def keyLength (get : Nat → Nat) (st : Nat) : Nat :=
  ((List.range 8).map fun j => let f := get (O.keyFrag st j); if f / 2 ^ 29 = 0 then 0 else bits f 13 6).sum

/-- The stages of both chains: 0 to 11 ingress, 16 to 27 egress. -/
def chainStages : List Nat := List.range 12 ++ (List.range 12).map (· + 16)

/-- Slices of a table. -/
def State.tableSlices (s : State) (t : Nat) : List Nat := (List.range (s.sliceCount t)).map (· + s.rd (O.firstSlice t))

/-- The first table that fails the checks of R311. Log entry 52 (DEDUCED). -/
def State.assocBad (s : State) : Option Nat :=
  let ts := (List.range 16).filter fun t => s.ascW t != 0
  match ts.find? fun t => decide (s.rd (O.firstSlice t) + s.sliceCount t > 24)
      || (ts.any fun u => decide (u < t) && (s.tableSlices u).any fun x => (s.tableSlices t).contains x) with
  | some t => some t
  | none =>
    (chainStages.find? fun st => s.stageObj (O.stageKind st) == 5
      && (s.stageObj (O.stageTable st) ≥ 16 || s.ascW (s.stageObj (O.stageTable st)) == 0
        || keyLength s.stageObj st != s.ascBits (s.stageObj (O.stageTable st)))).map fun st => s.stageObj (O.stageTable st) % 256

/-- ASSOC reaches RUNNING: the tables in force own their slices (R303, R310). Log entry 53 (DEDUCED). -/
def State.assocUp (s : State) : State :=
  let s := (List.range 24).foldl (fun s x =>
    match (List.range 16).find? fun t => (s.tableSlices t).contains x with
    | some t => (s.wr (O.sliceTable x) t).wr (O.sliceReplica x)
        ((x - s.rd (O.firstSlice t)) / (s.ascW t * s.rd (O.ascGroups t)))
    | none => (s.wr (O.sliceTable x) 0xFF).wr (O.sliceReplica x) 0) s
  s.wr O.slicesInUse ((s.slicesUsed.map fun x => 2 ^ x).sum)

/-- Is a row write one of a respacing? -/
def RowWrite.respaces : RowWrite → Bool
  | .copy _ _ r => r
  | .write _ _ r => r
  | .clear _ r => r

/-- A forced stop abandons a respacing between two row writes (R312); the writes of a command before it are made, and a row that
the respacing had just copied stays once. With it, the commands that it abandons so. -/
def State.assocForced (s : State) : State × Nat :=
  (List.range 16).foldl (fun a t =>
    let s := a.1
    let own := ((s.ascTable t).due.takeWhile fun w => !w.respaces).length + (s.ascTable t).bad.length
    let s := State.rowDrain own t s
    match (s.ascTable t).due with
    | w :: _ => (s.updAsc t fun x => { x.apply (.clear w.row true) with due := [] }, a.2 + 1)
    | [] => (s, a.2)) (s, 0)

/-- DISABLE empties every table (R312). -/
def State.assocDisable (s : State) : State := { s with asc := {} }

end Sys2Proof.Machine
end

