-- ==== Sys2Proof/Machine/Line.lean ====
section
/-!
DEFINITION. Line lanes, Ethernet ports, sub-ports and time (chapter 05). Commands whose effects reach OTN, protection or the
scheduler have their meanings in Links.lean, over the operations here.
-/

namespace Sys2Proof.Machine

/-! ### Ports and lanes (R134, R14 to R16) -/

/-- Lanes per port of a pair mode; 0 for NONE. -/
def modeWidth : Nat → Nat
  | 1 => 8 | 2 => 4 | 3 => 2 | 4 => 1 | 5 => 1 | _ => 0

/-- Ports per pair of a pair mode. -/
def modePorts (m : Nat) : Nat := if modeWidth m = 0 then 0 else 24 / modeWidth m

/-- The mode in force of the pair of a port or line lane. -/
def State.modeOf (s : State) (p : Nat) : Nat := s.rd (O.pairMode (p / 24))

/-- Does the pair's mode place the port (R134)? -/
def State.portExists (s : State) (p : Nat) : Bool := decide (p < 96) && decide (p % 24 < modePorts (s.modeOf p))

/-- The lanes of a port under a mode of its pair. -/
def lanesIn (m p : Nat) : List Nat :=
  (List.range (modeWidth m)).map fun i => p / 24 * 24 + p % 24 * modeWidth m + i

/-- The lanes of a port number under a mode of its pair: none where the mode places no such port (R133). -/
def portLanes (m p : Nat) : List Nat := if p % 24 < modePorts m then lanesIn m p else []

/-- The lanes of a port. -/
def State.lanesOf (s : State) (p : Nat) : List Nat := if s.portExists p then lanesIn (s.modeOf p) p else []

/-- The port of a line lane, if its pair's mode places one. -/
def State.portOfLane (s : State) (l : Nat) : Option Nat :=
  if l < 96 && modeWidth (s.modeOf l) ≠ 0 then some (l / 24 * 24 + l % 24 / modeWidth (s.modeOf l)) else none

/-- Slices that serve a port: one home slice, or both of the pair for the straddling port (R15, R16). -/
def State.slicesOf (s : State) (p : Nat) : List Nat :=
  if s.modeOf p = 1 && p % 24 = 1 then [p / 24 * 2, p / 24 * 2 + 1]
  else match s.lanesOf p with
    | [] => []
    | l :: _ => [l / 12]

/-- Is the port a straddling port (R16)? -/
def State.straddles (s : State) (p : Nat) : Bool := s.portExists p && s.modeOf p == 1 && p % 24 == 1

/-- Is a slice of the port out of service for a failed Evrad channel (R12)? -/
def State.outOfService (s : State) (p : Nat) : Bool :=
  (s.slicesOf p).any fun n => s.rd (O.evradState n) == 3 || s.rd (O.evradState (8 + n)) == 3

/-- Does the port carry OTN (R135)? -/
def State.isOtn (s : State) (p : Nat) : Bool := s.rd (O.portRole p) == 1

/-! ### Link state (R144, R145) -/

/-- A change of PORT_SF or PORT_SD of a protected port is reported (R419, R422). -/
def State.portReport (s : State) (p : Nat) (sf sd : Bool) : State :=
  if s.running .prot && s.rd (O.protMode p) != 0 then
    s.raise 6 0x06F3 0x0F WARNING p (b2n sf + 2 * b2n sd) (s.rd (O.protRole p))
  else s

/-- Set LINK_STATE of a port. -/
def State.setLink (s : State) (p v : Nat) : State :=
  let was := s.rd (O.portLinkState p)
  let s := s.wr (O.portLinkState p) v
  if (was == 3) == (v == 3) then s else s.portReport p (v != 3) (s.rd (O.fecDegraded p) == 1)

/-- Set FEC_DEGRADED of a port. -/
def State.setDegraded (s : State) (p v : Nat) : State :=
  (s.wr (O.fecDegraded p) v).portReport p (s.rd (O.portLinkState p) != 3) (v == 1)

/-- Report a link-down once its hold has passed (R145, R162). The manual does not say when LAST_DOWN_CAUSE changes: with the report, so that
it keeps its value through a link-down that nothing reports. Log entry 41 (DESIGN CHOICE). -/
def State.reportDown (s : State) (p cause : Nat) : State :=
  let s := (s.inc (O.portLinkDowns p)).wr (O.lastDownCause p) cause
  s.raise 4 0x0402 0x04 WARNING p cause (s.rd (O.portLinkDowns p))

/-- A port leaves UP with a cause: at once, or after LINK_DOWN_HOLD. -/
def State.holdDown (s : State) (p cause : Nat) : State :=
  if s.rd (O.linkDownHold p) = 0 then s.reportDown p cause
  else { s with line := { s.line with held := mput s.line.held p cause } }

/-- A port goes to a state other than UP (R144, R145); a link-down is reported when it was UP, and on ADMIN always (R141). -/
def State.portDown (s : State) (p cause state : Nat) : State :=
  let was := s.rd (O.portLinkState p)
  let s := s.setLink p state
  if was = 3 || cause = 1 then s.holdDown p cause else s

/-- Does any lane of the port run a pattern (R151)? -/
def State.diagnostic (s : State) (p : Nat) : Bool := (s.lanesOf p).any fun l => s.rd (O.prbsMode l) != 0

/-- Are all lanes of the port LOCKED (R144, R146)? -/
def State.lanesLocked (s : State) (p : Nat) : Bool := (s.lanesOf p).all fun l => s.rd (O.laneState l) == 2

/-- The state of a port that is not yet aligned, from its lanes (R144). -/
def State.coldState (s : State) (p : Nat) : Nat :=
  if s.rd (O.adminUp p) = 0 || !s.portExists p then 0 else if s.lanesLocked p then 2 else 1

/-- Follow a change of lanes in a port that is not yet aligned. -/
def State.portRefresh (s : State) (p : Nat) : State :=
  if s.rd (O.portLinkState p) ≤ 2 then s.setLink p (s.coldState p) else s

/-- A lane starts or restarts training (R146). A lane that runs a pattern does not train (R151): without lock it reads OFF.
Log entry 43 (DEDUCED). -/
def State.trainLane (s : State) (l : Nat) : State := s.wr (O.laneState l) (if s.rd (O.prbsMode l) = 0 then 1 else 0)

/-- An admin-up port with a pattern on one of its lanes is down with cause DIAGNOSTIC, also when it was not UP before (R151).
Log entry 43 (DEDUCED). -/
def State.diagnose (s : State) (p : Nat) : State :=
  if s.rd (O.adminUp p) = 0 || !s.diagnostic p then s
  else if s.rd (O.portLinkState p) = 3 then s.portDown p 8 (s.coldState p)
  else
    let s := s.setLink p (s.coldState p)
    if (mfind s.line.held p).isSome then { s with line := { s.line with held := mput s.line.held p 8 } }
    else s.wr (O.lastDownCause p) 8

/-- The lanes of a port that are off start training. -/
def State.trainPort (s : State) (p : Nat) : State :=
  (((s.lanesOf p).foldl (fun s l => if s.rd (O.laneState l) = 2 then s else s.trainLane l) s).portRefresh p).diagnose p

/-- The lanes of a port are switched off. -/
def State.lanesOff (s : State) (p : Nat) : State := (s.lanesOf p).foldl (fun s l => s.wr (O.laneState l) 0) s

/-- A port becomes UP (R144, R162): a link-down still held is forgotten, and then nothing is reported (R145). -/
def State.portUp (s : State) (p : Nat) : State :=
  let s := s.setLink p 3
  if (mfind s.line.held p).isSome then { s with line := { s.line with held := mdel s.line.held p } }
  else s.raise 4 0x0401 0x04 NOTICE p (s.modeOf p) (s.rd (O.portLinkDowns p))

/-! ### SyncE outputs (R160) -/

/-- The least divider that keeps an output at or below 156.25 MHz on a lane's present rate (R160). The symbol clock is 106.25 GHz, or 53.125 GHz in
mode 0x05, so 156.25 MHz is exceeded below a divider of 680, or 340; on an OTN lane it is 111.81 GHz (R165), and the bound is 716. -/
def State.synceLeast (s : State) (l : Nat) : Nat :=
  match s.portOfLane l with
  | some p => if s.isOtn p then 716 else if s.modeOf l = 5 then 340 else 680
  | none => 0

/-- Why an output is squelched now, as bits: 1 CLK, 2 MODE, 4 RATE, 8 LOCK; 0 for no cause (R160). -/
def State.synceCauses (s : State) (n : Nat) : Nat :=
  let l := s.rd (O.synceSrc n)
  b2n (!s.running .clk) + 2 * b2n (s.modeOf l == 0) + 4 * b2n (decide (s.rd (O.synceDiv n) < s.synceLeast l))
    + 8 * b2n (s.rd (O.laneState l) != 2)

/-- The cause that SYNCE_SQUELCHED carries when the causes in a mask begin together (R162). The manual gives no order: CLK, MODE, RATE, LOCK.
Log entry 43 (DESIGN CHOICE). -/
def synceCode (c : Nat) : Nat := if bit c 0 then 1 else if bit c 1 then 3 else if bit c 2 then 4 else 2

/-- Follow a change in what feeds an output (R160): it squelches at once, and resumes only at SYNCE_HOLDOFF_EXPIRY. A squelch is counted and
reported when a cause begins, also while another cause holds the output already: so R161 has RATE reported of an output whose source lane is off.
Log entry 43 (DEDUCED). -/
def State.synceFollow (s : State) (n : Nat) : State :=
  let put := fun (c : Nat) (s : State) => { s with line := { s.line with synceWhy := mset s.line.synceWhy 0 n c } }
  if s.rd (O.synceSrc n) = 0xFF then put 0 (s.wr (O.synceState n) 0)
  else
    let c := s.synceCauses n
    let old := mget s.line.synceWhy 0 n
    let s := put c s
    if c = 0 then (if s.rd (O.synceState n) = 0 then s.wr (O.synceState n) 1 else s)
    else if c - (c &&& old) = 0 then s
    else ((s.wr (O.synceState n) 2).inc (O.synceSquelches n)).raise 4 0x0408 0x04 WARNING n (s.rd (O.synceSrc n)) (synceCode (c - (c &&& old)))

/-- Both outputs. -/
def State.synceAll (s : State) : State := (s.synceFollow 0).synceFollow 1

/-- The meaning of SYNCE_HOLDOFF_EXPIRY: the squelch's cause has been clear for SYNCE_HOLDOFF. -/
def execSynceHoldoffExpiry (n : Fin 2) (s : State) : Host.Outcome State Fault Refusal :=
  if s.rd (O.synceState n.val) = 2 && s.rd (O.synceSrc n.val) ≠ 0xFF && s.synceCauses n.val = 0
  then done (s.wr (O.synceState n.val) 1) else done s

/-! ### Pairs (R139, R140) -/

/-- Ports that a pair mode places with a staged OTN role. -/
def State.otnStaged (s : State) (k m : Nat) : Nat :=
  ((List.range (modePorts m)).filter fun j => s.rd (O.roleNext (24 * k + j)) == 1).length

/-- OTN ports of a pair as it stands. -/
def State.otnPorts (s : State) (k : Nat) : Nat :=
  ((List.range (modePorts (s.rd (O.pairMode k)))).filter fun j => s.rd (O.portRole (24 * k + j)) == 1).length

/-- The checks of PAIR_APPLY; `admin` tells whether ADMIN_UP is checked, `others` the OTN ports of the other pairs (R139).
Log entry 42 (DEDUCED). -/
def State.pairCheck (s : State) (k : Nat) (admin : Bool) (others : Nat) : Status :=
  let m := s.rd (O.pairModeNext k)
  if admin && (List.range 24).any (fun j => s.rd (O.adminUp (24 * k + j)) == 1) then .notStopped
  else if (m = 4 || m = 5) && decide (0 < s.otnStaged k m) then .range
  else if others + s.otnStaged k m > 12 then .noResource
  else .ok

/-- OTN ports of the pairs other than `k`. -/
def State.otnElsewhere (s : State) (k : Nat) : Nat :=
  (((List.range 4).filter (· ≠ k)).map fun j => s.otnPorts j).sum

/-- Zero the status and FEC counters of a port (R139). Log entry 42 (DEDUCED). -/
def State.zeroPort (s : State) (p : Nat) : State :=
  let s := (List.range 10).foldl (fun s i => s.wr (key (0x4100 + p) (3 + i)) 0) s
  (List.range 4).foldl (fun s i => s.wr (key (0x4200 + p) (2 + i)) 0) s

/-- Apply the staged mode and roles of a pair (R139): every port whose lanes or role change starts afresh, and sub-ports bound to
ports that no longer exist are unbound. A change between modes 0x04 and 0x05 changes the lane rate, so the lanes train again, but no port's
lanes. Log entry 42 (DEDUCED). -/
def State.applyPair (s : State) (k : Nat) : State :=
  let old := s.rd (O.pairMode k)
  let new := s.rd (O.pairModeNext k)
  let s := (List.range 24).foldl (fun s j =>
    let p := 24 * k + j
    let role := s.rd (O.portRole p) != s.rd (O.roleNext p)
    let s := if s.portExists p && (old ≠ new || role) then s.portDown p 9 0 else s
    let s := if old ≠ new then s.lanesOff p else s
    let placed := decide (j < modePorts old) || decide (j < modePorts new)
    let s := if placed && (role || portLanes old p != portLanes new p) then (s.zeroPort p).wr (O.loopback p) 0 else s
    s.wr (O.portRole p) (s.rd (O.roleNext p))) s
  let s := s.wr (O.pairMode k) new
  let s := { s with line := { s.line with
    subports := s.line.subports.filter fun e => !(e.2 / 24 == k && !s.portExists e.2) } }
  let s := (List.range 24).foldl (fun s j =>
    let p := 24 * k + j
    if s.portExists p && s.rd (O.adminUp p) == 1 then s.trainPort p else s.portRefresh p) s
  s.synceAll

/-- PAIR_APPLY without its effects on other chapters. -/
def State.pairApply (s : State) (k : Nat) : State × Status :=
  match s.pairCheck k true (s.otnElsewhere k) with
  | .ok => (s.applyPair k, .ok)
  | st => (s, st)

/-- OTN ports of pairs below `k` as staged and of pairs above it as they stand: what LINE START meets at pair `k` (R140). -/
def State.otnAtStart (s : State) (k : Nat) : Nat :=
  (((List.range 4).filter (· ≠ k)).map fun j =>
    if j < k then s.otnStaged j (s.rd (O.pairModeNext j)) else s.otnPorts j).sum

/-- Do the PLLs of the slice groups that serve staged ports hold lock (R140)? -/
def State.linePllsOk (s : State) : Bool :=
  (List.range 4).all fun k =>
    let m := s.rd (O.pairModeNext k)
    (List.range (modePorts m)).all fun j => (lanesIn m (24 * k + j)).all fun l => bit (s.rd O.phyPllLock) (l / 12)

/-- What LINE START finds (R140): the first refusal of a pair, a slice group without its PLL, or nothing. -/
def State.lineStartCheck (s : State) : Status :=
  match (List.range 4).find? fun k => s.pairCheck k false (s.otnAtStart k) ≠ .ok with
  | some k => s.pairCheck k false (s.otnAtStart k)
  | none => if s.linePllsOk then .ok else .internal

/-- LINE START applies every pair. Log entry 41 (DEDUCED). -/
def State.lineApplyAll (s : State) : State := (List.range 4).foldl State.applyPair s

/-- A LOCKED line lane loses its signal (`los`) or its lock, and trains again (R145, R146). Log entry 41 (DEDUCED). -/
def State.loseLane (s : State) (l : Nat) (los : Bool) : State :=
  let s := (s.inc (O.lockLosses l)).trainLane l
  match s.portOfLane l with
  | some p => s.portDown p (if los then 2 else 3) (s.coldState p)
  | none => s

/-- The RWS objects of a lane as one number: TX_POLARITY, RX_POLARITY, TRAIN_ENABLE, TX_TAPS. Log entry 41 (DEDUCED). -/
def laneWord (get : Nat → Nat) (l : Nat) : Nat :=
  get (O.txPolarity l) + 2 * get (O.rxPolarity l) + 4 * get (O.trainEnable l) + 8 * get (O.txTaps l)

/-- The RWS objects of a lane in force (R56). -/
def State.laneCfg (s : State) (l : Nat) : Nat := mget s.line.cfg (laneWord dfltOf l) l

/-- TRAIN_ENABLE of a lane in force (R56, R146). -/
def State.trains (s : State) (l : Nat) : Bool := bit (s.laneCfg l) 2

/-- The RWS objects of a lane come into force (R56). -/
def State.takeLaneCfg (s : State) (l : Nat) : State :=
  { s with line := { s.line with cfg := mset s.line.cfg (laneWord dfltOf l) l (laneWord s.rd l) } }

/-- The RWS objects of a line lane come into force when LINE reaches RUNNING: a lane whose polarity or taps changed retrains (R56, R140).
Log entry 41 (DEDUCED). -/
def State.laneInForce (s : State) (l : Nat) : State :=
  let old := s.laneCfg l
  let new := laneWord s.rd l
  let s := s.takeLaneCfg l
  if s.rd (O.laneState l) = 2 && (old % 4 != new % 4 || old / 8 != new / 8) then s.loseLane l false else s

/-- When LINE reaches RUNNING, lanes whose values changed retrain, and the lanes of admin-up ports that are off start training.
Log entry 41 (DEDUCED). -/
def State.lineUp (s : State) : State :=
  let s := (List.range 96).foldl State.laneInForce s
  (List.range 96).foldl (fun s p => if s.portExists p && s.rd (O.adminUp p) == 1 then s.trainPort p else s) s

/-- DISABLE of LINE switches every line lane off. The manual gives neither a cause nor a state of its ports: admin-up ports are down with cause
LOCK and read TRAINING, as for lanes that lost lock. Log entry 41 (DESIGN CHOICE). -/
def State.lineDisable (s : State) : State :=
  let s := (List.range 96).foldl (fun s l => s.wr (O.laneState l) 0) { s with line := { s.line with cfg := s.line.cfg.filter fun e => 96 ≤ e.1 } }
  (List.range 96).foldl (fun s p => if s.rd (O.portLinkState p) = 0 then s else s.portDown p 3 1) s

/-! ### ADMIN_UP, LOOPBACK, PRBS (R141, R150, R151) -/

/-- A write of ADMIN_UP (R141). -/
def cmdAdminUp (p : Nat) (up : Bool) (s : State) : State × Status :=
  if up && !s.portExists p then (s, .range)
  else if s.rd (O.adminUp p) = b2n up then (s, .ok)
  else if up then
    let s := { s with line := { s.line with attempts := (s.lanesOf p).foldl (fun m l => mdel m l) s.line.attempts } }
    ((s.wr (O.adminUp p) 1).trainPort p, .ok)
  else (((s.wr (O.adminUp p) 0).lanesOff p).portDown p 1 0 |>.synceAll, .ok)

/-- A write of LOOPBACK (R150). -/
def cmdLoopback (p mode : Nat) (s : State) : State × Status :=
  if mode > 2 then (s, .range)
  else if s.rd (O.loopback p) = mode then (s, .ok)
  else
    let s := s.wr (O.loopback p) mode
    (s.portDown p 7 (s.coldState p), .ok)

/-- The meaning of LOOPBACK. Log entry 43 (DEDUCED and DESIGN CHOICE). -/
def execLoopback (p : Path) (port : Fin 96) (mode : BitVec 8) (s : State) : Host.Outcome State Fault Refusal :=
  done (access p (O.loopback port.val) (leBytes 1 mode.toNat) (cmdLoopback port.val mode.toNat) s)

/-- Bit errors that a synchronised checker has counted so far (R151): their number is open. Log entry 43 (DEDUCED and DESIGN CHOICE). -/
def State.prbsCount (s : State) (l : Nat) : State :=
  if s.rd (O.prbsMode l) ≠ 0 && s.rd (O.prbsLock l) = 1 then
    let v := s.open_
    v.2.add (O.prbsErrors l) v.1.toNat
  else s

/-- The receiver of a fabric lane that checks a pattern holds no slot alignment (R151, R382, R384). Log entry 64 (DEDUCED). -/
def State.unaligned (s : State) (f : Nat) : State :=
  { s with fab := { s.fab with lanes := mupd s.fab.lanes {} f fun x => { x with good := 0, bad := 0, aligned := false } } }

/-- A write of PRBS_MODE of a line or fabric lane (R151): a lane without lock stops training, and trains once the pattern ends.
Log entry 43 (DEDUCED). -/
def cmdPrbsMode (l mode : Nat) (s : State) : State × Status :=
  if mode > 3 then (s, .range)
  else if s.rd (O.prbsMode l) = mode then (s, .ok)
  else
    let s := ((s.prbsCount l).wr (O.prbsMode l) mode).wr (O.prbsLock l) 0
    let p := (s.portOfLane l).getD 96
    let again := if l < 96 then s.portExists p && s.rd (O.adminUp p) == 1 else s.running .fab
    let s := if s.rd (O.laneState l) = 2 then s
      else if mode ≠ 0 then s.wr (O.laneState l) 0
      else if again && s.rd (O.laneState l) == 0 then s.trainLane l else s
    let s := if 96 ≤ l && mode ≠ 0 then s.unaligned (l - 96) else s
    (if s.portExists p then (s.portRefresh p).diagnose p else s, .ok)

/-- The meaning of PRBS_MODE. -/
def execPrbsMode (p : Path) (lane : Fin 240) (mode : BitVec 8) (s : State) : Host.Outcome State Fault Refusal :=
  done (access p (O.prbsMode lane.val) (leBytes 1 mode.toNat) (cmdPrbsMode lane.val mode.toNat) s)

/-- The meaning of PRBS_CHECKER_SYNC. -/
def execPrbsCheckerSync (lane : Fin 240) (inSync : Bool) (s : State) : Host.Outcome State Fault Refusal :=
  if s.rd (O.prbsMode lane.val) = 0 then done s else done ((s.prbsCount lane.val).wr (O.prbsLock lane.val) (b2n inSync))

/-! ### Training and faults (R144 to R146, R149) -/

/-- A lane locks: taps reached by training, signal-to-noise ratio (R146, R151). -/
def State.lockLane (s : State) (l : Nat) (taps : List Byte) (snr : Nat) : State :=
  let s := (s.wr (O.laneState l) 2).wr (O.rxSnr l) (min snr 0xFFFF)
  if s.trains l then s.wrB (O.trainedTaps l) (fit taps 6) else s

/-- A lane fails an attempt (R146, R162); the record counts the attempts since admin up. -/
def State.failTraining (s : State) (l snr func : Nat) : State :=
  let n := mget s.line.attempts 0 l + 1
  let s := { s with line := { s.line with attempts := mput s.line.attempts l n } }
  let s := (s.wr (O.laneState l) 3).wr (O.rxSnr l) (min snr 0xFFFF)
  s.raise 4 0x0403 func WARNING l n (min snr 0xFFFF)

/-- The meaning of PCS_ALIGNED: a port whose lanes are all LOCKED reaches alignment and goes UP;
an OTN port aligns under R172 instead. -/
def execPcsAligned (port : Fin 96) (s : State) : Host.Outcome State Fault Refusal :=
  if s.rd (O.portLinkState port.val) = 2 && !s.diagnostic port.val && !s.isOtn port.val && !s.outOfService port.val then
    done (s.portUp port.val)
  else done s

/-- The meaning of ALIGNMENT_LOSS: PCS alignment is lost, or the FEC indicates a high symbol-error ratio (R145). -/
def execAlignmentLoss (port : Fin 96) (hiSer : Bool) (s : State) : Host.Outcome State Fault Refusal :=
  if s.rd (O.portLinkState port.val) ≥ 3 && !s.isOtn port.val then done (s.portDown port.val (if hiSer then 5 else 4) 2) else done s

/-- The meaning of FAULT_RECEIVED: fault ordered sets arrive at an aligned port, or cease (R144, R145). Log entry 43 (DEDUCED and DESIGN CHOICE). -/
def execFaultReceived (port : Fin 96) (fault : FaultSet) (s : State) : Host.Outcome State Fault Refusal :=
  let p := port.val
  if s.rd (O.portLinkState p) < 3 || s.isOtn p then done s
  else match fault with
    | .none => if s.rd (O.portLinkState p) = 3 || s.outOfService p then done s else done (s.portUp p)
    | .localFault => done (s.portDown p 6 4)
    | .remoteFault => done (s.portDown p 6 5)

/-- Does a port receive codewords: it is aligned, or its lanes are LOCKED while the group that it carries hunts (R149, R165)? -/
def State.receivesCodewords (s : State) (p : Nat) : Bool :=
  decide (3 ≤ s.rd (O.portLinkState p)) || (s.isOtn p && s.rd (O.portLinkState p) == 2)

/-- The meaning of FEC_WINDOW_END: one window of 8,192 codewords of a port has ended (R149). In DETECT_ONLY nothing is corrected: the symbols in
error still count, and the codewords with corrected symbols do not. Log entry 43 (DEDUCED). -/
def execFecWindowEnd (port : Fin 96) (corrected uncorrectable symbols : Nat) (s : State) :
    Host.Outcome State Fault Refusal :=
  let p := port.val
  if !s.receivesCodewords p then done s
  else
    let s := (s.add (O.cwTotal p) 8192).add (O.cwCorrected p) (if s.rd (O.fecMode p) = 1 then 0 else corrected)
    let s := (s.add (O.cwUncorrectable p) uncorrectable).add
      (O.symbolsCorrected p) symbols
    if s.rd (O.fecDegraded p) = 0 && decide (symbols ≥ s.rd (O.degradeSet p)) then
      done ((s.setDegraded p 1).raise 4 0x0404 0x04 WARNING p 1 symbols)
    else if s.rd (O.fecDegraded p) = 1 && decide (symbols < s.rd (O.degradeClear p)) then
      done ((s.setDegraded p 0).raise 4 0x0404 0x04 WARNING p 0 symbols)
    else done s

/-! ### Sub-ports (R152, R153) -/

/-- The port of a sub-port, if it is bound to one that exists (R152). Log entry 45 (DEDUCED and DESIGN CHOICE). -/
def State.subportPort (s : State) (q : Nat) : Option Nat :=
  if q < 96 then (if s.portExists q then some q else none)
  else match mfind s.line.subports q with
    | some p => if s.portExists p then some p else none
    | none => none

/-- A sub-port command whose argument [17:8] names a sub-port; SUBPORT_RESULT takes its status. -/
def subportArg (arg : BitVec 24) (f : Nat → State → State × Status) (s : State) : State × Status :=
  let r := if arg.toNat ≥ 512 then (s, Status.range) else f arg.toNat s
  (r.1.wrSt O.subportResult r.2, r.2)

/-- BIND. -/
def cmdBind (q : Nat) (s : State) : State × Status :=
  let p := bits (s.rd O.subportData) 6 0
  if q < 96 then (s, .accessDenied)
  else if !s.portExists p then (s, .range)
  else ({ s with line := { s.line with subports := mput s.line.subports q p } }, .ok)

/-- UNBIND. -/
def cmdUnbind (q : Nat) (s : State) : State × Status :=
  if q < 96 then (s, .accessDenied)
  else ({ s with line := { s.line with subports := mdel s.line.subports q } }, .ok)

/-- READ of a sub-port's binding. An unbound sub-port has no port, so what [6:0] then read is open; sub-ports 0 to 95 keep
their number. -/
def cmdSubportRead (q : Nat) (s : State) : State × Status :=
  match s.subportPort q with
  | some p => (s.wr O.subportData (128 + p), .ok)
  | none =>
    if q < 96 then (s.wr O.subportData q, .ok)
    else
      let v := s.open_
      (v.2.wr O.subportData (v.1.toNat % 128), .ok)

/-- The meaning of SUBPORT_READ. Log entry 45 (DEDUCED and DESIGN CHOICE). -/
def execSubportRead (p : Path) (arg : BitVec 24) (s : State) : Host.Outcome State Fault Refusal :=
  done (access p O.subportCmd (cmdData 3 arg) (subportArg arg cmdSubportRead) s)

/-- The meaning of BIND. Log entry 45 (DEDUCED and DESIGN CHOICE). -/
def execBind (p : Path) (arg : BitVec 24) (s : State) : Host.Outcome State Fault Refusal :=
  done (access p O.subportCmd (cmdData 1 arg) (subportArg arg cmdBind) s)

/-- The meaning of UNBIND. Log entry 45 (DEDUCED and DESIGN CHOICE). -/
def execUnbind (p : Path) (arg : BitVec 24) (s : State) : Host.Outcome State Fault Refusal :=
  done (access p O.subportCmd (cmdData 2 arg) (subportArg arg cmdUnbind) s)

/-! ### Time of day (R154, R157 to R159) -/

/-- Units of the counter in a nanosecond and in a second. -/
abbrev todNs : Nat := 1000000000000
abbrev todSec : Nat := todNs * 1000000000

/-- The counter's period: 48-bit seconds. -/
abbrev todWrap : Nat := 2 ^ 48 * todSec

/-- Seconds and nanoseconds of the counter. -/
def State.todSeconds (s : State) : Nat := s.line.tod / todSec
def State.todNanos (s : State) : Nat := s.line.tod / todNs % 1000000000

/-- Load the counter with a fraction of zero. -/
def State.todLoad (s : State) (sec ns : Nat) : State :=
  { s with line := { s.line with tod := (sec * todSec + ns * todNs) % todWrap } }

/-- Move the counter by signed nanoseconds. -/
def State.todMove (s : State) (ns : Int) : State :=
  { s with line := { s.line with tod := (((s.line.tod : Int) + ns * todNs) % todWrap).toNat } }

/-- One XCLK cycle of the counter: 1 ns × (1 + TOD_RATE_ADJ × 10^−12) (R154). Log entry 44 (DEDUCED and PRESUMED). -/
def State.todTick (s : State) : State :=
  { s with line := { s.line with tod := (((s.line.tod : Int) + todNs + s.rdS O.todRateAdj) % todWrap).toNat } }

/-- TOD_CAPTURE. -/
def cmdTodCapture (s : State) : State × Status := ((s.wr O.todSec s.todSeconds).wr O.todNs s.todNanos, .ok)

/-- TOD_SET 0x01: load at once and cancel a pending load. -/
def cmdTodSetNow (s : State) : State × Status :=
  let s := s.todLoad (s.rd O.todSetSec) (s.rd O.todSetNs)
  (({ s with line := { s.line with armed := none } }).wr O.todSetPending 0, .ok)

/-- TOD_SET 0x02: arm a load at the next captured edge. -/
def cmdTodSetArm (s : State) : State × Status :=
  (({ s with line := { s.line with armed := some (s.rd O.todSetSec, s.rd O.todSetNs) } }).wr O.todSetPending 1, .ok)

/-- TOD_SET 0x03: cancel a pending load. -/
def cmdTodSetCancel (s : State) : State × Status :=
  (({ s with line := { s.line with armed := none } }).wr O.todSetPending 0, .ok)

/-- TOD_STEP. -/
def cmdTodStep (arg : BitVec 24) (s : State) : State × Status := (s.todMove arg.toInt, .ok)

/-- The meaning of TOD_CAPTURE. -/
def execTodCapture (p : Path) (arg : BitVec 24) (s : State) : Host.Outcome State Fault Refusal :=
  done (access p O.todCapture (cmdData 1 arg) (noArg arg cmdTodCapture) s)

/-- The meaning of TOD_SET_NOW. -/
def execTodSetNow (p : Path) (arg : BitVec 24) (s : State) : Host.Outcome State Fault Refusal :=
  done (access p O.todSet (cmdData 1 arg) (noArg arg cmdTodSetNow) s)

/-- The meaning of TOD_SET_ARM. -/
def execTodSetArm (p : Path) (arg : BitVec 24) (s : State) : Host.Outcome State Fault Refusal :=
  done (access p O.todSet (cmdData 2 arg) (noArg arg cmdTodSetArm) s)

/-- The meaning of TOD_SET_CANCEL. -/
def execTodSetCancel (p : Path) (arg : BitVec 24) (s : State) : Host.Outcome State Fault Refusal :=
  done (access p O.todSet (cmdData 3 arg) (noArg arg cmdTodSetCancel) s)

/-- The meaning of TOD_STEP. -/
def execTodStep (p : Path) (arg : BitVec 24) (s : State) : Host.Outcome State Fault Refusal :=
  done (access p O.todStep (cmdData 1 arg) (cmdTodStep arg) s)

/-- Drive PPS_OUT. -/
def State.setPps (s : State) (level : Bool) : State :=
  if s.line.ppsHigh = level then s else ({ s with line := { s.line with ppsHigh := level } }).emit (.pps level)

/-- What the transmitter of a line or fabric lane sends (R55, R141, R144 to R146, R150, R151, R382). -/
inductive LaneSignal
  /-- Electrically idle. -/
  | off
  /-- The training protocol. -/
  | training
  /-- The pattern of a PRBS_MODE. -/
  | pattern (mode : Nat)
  /-- The symbols that the lane's receiver recovered. -/
  | resend
  /-- OTUC slices of the port's group. -/
  | otuc
  /-- PCS idle. -/
  | idle
  /-- Remote Fault ordered sets. -/
  | remoteFault
  /-- Frames, with idle between them. -/
  | frames
  /-- Slots, of a fabric lane. -/
  | slots
  deriving DecidableEq, Repr

/-- What a line lane sends now. Lanes of a DIAGNOSTIC port that run no pattern send idle, as do those of a port in NEAR_PCS or of a LINE that is not
RUNNING or STOPPING; a port that receives Local Fault answers with Remote Fault. A STANDBY port is electrically idle or sends idle, and a
SWITCHING port sends idle (R409). Log entry 43 (DEDUCED). -/
def State.lineLaneSends (s : State) (l : Nat) : LaneSignal :=
  match s.portOfLane l with
  | none => .off
  | some p =>
    if s.rd (O.adminUp p) = 0 || (s.rd (O.protRole p) == 1 && s.rd (O.standbyTx p) == 0) then .off
    else if s.rd (O.prbsMode l) ≠ 0 then .pattern (s.rd (O.prbsMode l))
    else if s.rd (O.laneState l) = 0 then .off
    else if s.rd (O.loopback p) = 2 && s.rd (O.laneState l) = 2 then .resend
    else if s.rd (O.laneState l) = 1 && s.trains l then .training
    else if s.rd (O.loopback p) = 1 then .idle
    else if s.isOtn p then .otuc
    else if s.diagnostic p || !(s.running .line || s.fnState .line == STOPPING) then .idle
    else if s.rd (O.portLinkState p) = 4 then .remoteFault
    else if s.rd (O.portLinkState p) = 3 && (s.rd (O.protRole p) == 0 || s.rd (O.protRole p) == 3) then .frames
    else .idle

/-- The meaning of PPS_OUT_PULSE: the counter passes a second boundary plus PPS_OUT_OFFSET (R157). Log entry 44 (DEDUCED and PRESUMED). -/
def execPpsOutPulse (s : State) : Host.Outcome State Fault Refusal :=
  if s.running .clk && s.rd O.ppsOutEnable == 1 then done (s.setPps true) else done s

/-- The meaning of PPS_OUT_END: PPS_OUT_WIDTH has passed. -/
def execPpsOutEnd (s : State) : Host.Outcome State Fault Refusal := done (s.setPps false)

/-- The meaning of PPS_IN_EDGE: a rising edge is captured, reported, and fires a pending load (R157, R159). -/
def execPpsInEdge (s : State) : Host.Outcome State Fault Refusal :=
  if s.running .clk && s.rd O.ppsInEnable == 1 then
    let t := (((s.line.tod : Int) + s.rdS O.ppsInCorr * todNs) % todWrap).toNat
    let s := ((s.wr O.ppsInSec (t / todSec)).wr O.ppsInNs (t / todNs % 1000000000)).inc O.ppsInEdges
    let s := { s with line := { s.line with ppsSeen := true } }
    let s := s.raise 4 0x0406 0x04 INFO (t / todSec % 4294967296) (t / todNs % 1000000000) (s.rd O.ppsInEdges)
    match s.line.armed with
    | some (sec, ns) => done ((({ s with line := { s.line with armed := none } }).todLoad sec ns).wr O.todSetPending 0)
    | none => done s
  else done s

/-- The meaning of PPS_IN_LOST: no edge within 1.10 s of the last one; raised once until edges return (R157). -/
def execPpsInLost (s : State) : Host.Outcome State Fault Refusal :=
  if s.running .clk && s.rd O.ppsInEnable == 1 && s.line.ppsSeen then
    let s := { s with line := { s.line with ppsSeen := false } }
    done (s.raise 4 0x0407 0x04 WARNING (s.rd O.ppsInSec % 4294967296) (s.rd O.ppsInEdges) 0)
  else done s

end Sys2Proof.Machine
end

