-- ==== Sys2Proof/Machine/Prot.lean ====
section
/-!
DEFINITION. 1+1 port protection (chapter 14): readiness, wait-to-restore, the keeper's grant and the roles of ports. Chapters whose
state enters READY call `protFollow` when it changes.
-/

namespace Sys2Proof.Machine

/-! ### Frames at the MAC -/

/-- Frames released to the MAC of a port. -/
def State.macOf (s : State) (p : Nat) : List TxFrame := mget s.pk.mac [] p

/-- Give a port's MAC its frames. -/
def State.setMac (s : State) (p : Nat) (l : List TxFrame) : State :=
  { s with pk := { s.pk with mac := mset s.pk.mac [] p l } }

/-- Bytes dequeued for a port have been sent, discarded or lost (R366). -/
def State.leavePort (s : State) (p n : Nat) : State :=
  { s with pk := { s.pk with inflight := mset s.pk.inflight 0 p (mget s.pk.inflight 0 p - n) } }

/-- A frame being sent is ended with an error control block (R416): the MAC of a port that carries frames is sending the first of
those released to it, also when a STOP of LINE is the cause. Log entry 42 (DEDUCED). -/
def State.abortHead (s : State) (p : Nat) : State :=
  match s.macOf p with
  | f :: t =>
    if s.rd (O.portLinkState p) = 3 && (s.running .line || s.fnState .line == STOPPING) then
      (((s.setMac p t).leavePort f.owner f.bytes).inc (O.abortedFrames p)).emit (.frame p f.frame true)
    else s
  | [] => s

/-! ### Readiness (R410) -/

/-- Functions of the PATH cause. -/
def pathFns : List Fn := [.line, .parse, .eng, .fwd, .buf, .swc, .sched, .fab]

/-- Clusters in service (R239, R250). -/
def State.clustersUp (s : State) : Nat := ((List.range 48).filter fun c => s.rd (O.clusterState c) == 1).length

/-- Does a slice's Evrad pair stand UP? -/
def State.sliceUp (s : State) (n : Nat) : Bool := s.rd (O.evradState n) == 1 && s.rd (O.evradState (8 + n)) == 1

/-- READY_CAUSES as its conditions stand (R410). -/
def State.causes (s : State) : Nat :=
  b2n (s.rd O.faultSources != 0)
    + 2 * b2n (!pathFns.all fun f => s.running f)
    + 4 * b2n ((List.range 96).any fun p => s.rd (O.protMode p) != 0 && (s.slicesOf p).any fun n => !s.sliceUp n)
    + 8 * b2n (!(List.range 6).any fun k => s.rd (O.planeState k) == 2)
    + 16 * b2n (s.rd O.minClusters != 0 && decide (s.clustersUp < s.rd O.minClusters))
    + 32 * b2n (bits s.pwr.crossed 3 2 != 0)
    + 64 * b2n s.prot.forced

/-- Change PROT's own state. -/
def State.updProt (s : State) (f : ProtSt → ProtSt) : State := { s with prot := f s.prot }

/-- The wait ends (R412). -/
def State.endWait (s : State) : State :=
  (s.updProt fun x => { x with waitEnd := none, frozen := none }).wr O.protWaiting 0

/-- A wait starts (R412, R418). -/
def State.startWait (s : State) : State :=
  (s.updProt fun x => { x with waitEnd := some (s.pclk + s.rd O.protWtr), frozen := none }).wr O.protWaiting 1

/-- KEEP_STATE follows READY and WAITING (R411). -/
def State.driveKeep (s : State) : State := s.wr O.keepStateLevel (b2n (s.prot.ready && s.rd O.protWaiting == 0))

/-! ### Roles (R409, R413, R415, R416) -/

/-- A port takes another role (R422). -/
def State.setRole (s : State) (p r : Nat) : State :=
  let old := s.rd (O.protRole p)
  if old = r then s
  else (s.wr (O.protRole p) r).raise 6 0x06F1 0x0F NOTICE p (old * 256 + r) (s.rd (O.lastGap p))

/-- Should a protected port carry frames (R413)? -/
def State.wantsActive (s : State) (p : Nat) : Bool :=
  s.prot.ready && (if s.rd (O.protMode p) = 1 then s.rd O.keepGrantLevel == 1 else s.prot.want.contains p)

/-- One protected port follows readiness, the grant and ROLE_CMD: a promotion starts with SWITCHING and ends at SWITCHOVER_ACTIVE; a
demotion ends the frame being sent (R415, R416). -/
def State.followRole (s : State) (p : Nat) : State :=
  if s.rd (O.protMode p) = 0 then s
  else if s.wantsActive p then
    (if s.rd (O.protRole p) = 1 then s.setRole p 2 else s)
  else if s.rd (O.protRole p) = 3 then (s.abortHead p).setRole p 1
  else if s.rd (O.protRole p) = 2 then s.setRole p 1
  else s

/-- Every protected port. -/
def State.followRoles (s : State) : State := (List.range 96).foldl State.followRole s

/-- READY falls, and the fall is counted and reported with the causes (R418, R422). -/
def State.readyFalls (s : State) (causes : Nat) : State :=
  let s := (s.updProt fun x => { x with ready := false }).inc O.relinquishes
  s.raise 6 0x06F0 0x0F WARNING 0 causes (s.rd O.relinquishes)

/-- READY follows its causes, and WAITING, KEEP_STATE and the roles follow READY, while PROT is RUNNING (R410 to R412, R416, R421). -/
def State.protFollow (s : State) : State :=
  if !s.running .prot then s
  else
    let c := s.causes
    let s :=
      if s.prot.ready == (c == 0) then s
      else if c = 0 then
        let s := s.updProt fun x => { x with ready := true }
        let s := if s.rd O.protPreferred = 1 && s.rd O.keepGrantLevel = 0 && s.prot.waitEnd.isNone && !(s.prot.first && s.rd O.startWtr == 0)
          then s.startWait else s
        (s.updProt fun x => { x with first := false }).raise 6 0x06F0 0x0F NOTICE 1 c (s.rd O.relinquishes)
      else s.endWait.readyFalls c
    s.driveKeep.followRoles

/-! ### Commands -/

/-- The meaning of KEEP_GRANT_CHANGE (R413): the level is taken; a grant ends a wait; roles follow. Log entry 65 (DEDUCED). -/
def execKeepGrantChange (level : Bool) (s : State) : Host.Outcome State Fault Refusal :=
  if s.rd O.keepGrantLevel = b2n level then done s
  else
    let s := s.wr O.keepGrantLevel (b2n level)
    if !s.running .prot then done s
    else
      let s := if level && s.rd O.protWaiting = 1 then s.endWait else s
      let s := s.raise 6 0x06F2 0x0F NOTICE (b2n level) (s.rd O.grantGlitches)
        (b2n s.prot.ready + 2 * s.rd O.protWaiting)
      done s.driveKeep.followRoles

/-- The meaning of KEEP_GRANT_GLITCH (R413). -/
def execKeepGrantGlitch (s : State) : Host.Outcome State Fault Refusal := done (s.inc O.grantGlitches)

/-- The meaning of PROT_WTR_EXPIRY (R412). -/
def execProtWtrExpiry (s : State) : Host.Outcome State Fault Refusal :=
  if s.running .prot && s.rd O.protWaiting == 1 then done s.endWait.driveKeep.followRoles else done s

/-- The gap of a switchover in PIPE cycles (R415): every lane sends idle from 2,048 on, for GAP_IDLE cycles. -/
def State.gapLength (s : State) : Nat := 2048 + s.rd O.gapIdle

/-- The meaning of SWITCHOVER_ACTIVE (R415, R421): `gap` PIPE cycles have passed since the command, and the gap ends when they reach its length; a
switchover in progress completes while PROT is STOPPING. Log entry 65 (DEDUCED). -/
def execSwitchoverActive (port : Fin 96) (gap : Nat) (s : State) : Host.Outcome State Fault Refusal :=
  let p := port.val
  if s.rd (O.protRole p) = 2 && (s.running .prot || s.fnState .prot == STOPPING) && decide (s.gapLength ≤ gap) then
    done (((s.wr (O.lastGap p) s.gapLength).inc (O.portSwitchovers p)).setRole p 3)
  else done s

/-- RELINQUISH sets or clears FORCED (R410, R418). -/
def cmdRelinquish (on : Bool) (s : State) : State × Status := ((s.updProt fun x => { x with forced := on }).protFollow, .ok)

/-- The meaning of RELINQUISH_SET. -/
def execRelinquishSet (p : Path) (arg : BitVec 24) (s : State) : Host.Outcome State Fault Refusal :=
  done (access p O.protRelinquish (cmdData 1 arg) (noArg arg (cmdRelinquish true)) s)

/-- The meaning of RELINQUISH_CLEAR. -/
def execRelinquishClear (p : Path) (arg : BitVec 24) (s : State) : Host.Outcome State Fault Refusal :=
  done (access p O.protRelinquish (cmdData 2 arg) (noArg arg (cmdRelinquish false)) s)

/-- ROLE_CMD (R413, R419, R421): refused unless the port is an OBJECT port; acted on while PROT is RUNNING. Log entry 65 (DEDUCED). -/
def cmdRole (p : Nat) (on : Bool) (s : State) : State × Status :=
  if s.rd (O.protMode p) ≠ 2 then (s, .range)
  else
    let s := s.updProt fun x => { x with want := (x.want.filter (· ≠ p)) ++ (if on then [p] else []) }
    (if s.running .prot then s.followRole p else s, .ok)

/-- The meaning of ROLE_ACTIVATE. -/
def execRoleActivate (p : Path) (port : Fin 96) (arg : BitVec 24) (s : State) : Host.Outcome State Fault Refusal :=
  done (access p (O.roleCmd port.val) (cmdData 1 arg) (noArg arg (cmdRole port.val true)) s)

/-- The meaning of ROLE_STANDBY. -/
def execRoleStandby (p : Path) (port : Fin 96) (arg : BitVec 24) (s : State) : Host.Outcome State Fault Refusal :=
  done (access p (O.roleCmd port.val) (cmdData 2 arg) (noArg arg (cmdRole port.val false)) s)

/-- A port takes a mode (R420): a protected one starts in STANDBY. Log entry 65 (DEDUCED). -/
def State.setProtMode (s : State) (p mode : Nat) : State :=
  let s := (s.wr (O.protMode p) mode).updProt fun x => { x with want := x.want.filter (· ≠ p) }
  (s.setRole p (if mode = 0 then 0 else 1)).protFollow

/-- P2 has lost the roles (R421): a port whose PROT_MODE it kept is in STANDBY, as only NONE is UNPROTECTED (R409, R420).
Log entry 65 (DEDUCED). -/
def State.rolesLost (s : State) : State :=
  (List.range 96).foldl (fun s p => if s.rd (O.protMode p) = 0 then s else s.wr (O.protRole p) 1) s

/-- A write of PROT_MODE (R420). -/
def cmdProtMode (p mode : Nat) (s : State) : State × Status :=
  if mode > 2 then (s, .range)
  else if s.rd (O.adminUp p) = 1 then (s, .notStopped)
  else if !s.portExists p || s.isOtn p then (s, .range)
  else if s.rd (O.protMode p) = mode then (s, .ok)
  else (s.setProtMode p mode, .ok)

/-- The meaning of PROT_MODE. -/
def execProtMode (p : Path) (port : Fin 96) (value : BitVec 8) (s : State) : Host.Outcome State Fault Refusal :=
  done (access p (O.protMode port.val) (leBytes 1 value.toNat) (cmdProtMode port.val value.toNat) s)

/-! ### Lifecycle (R421) -/

/-- PROT reaches RUNNING: READY is evaluated, and its return is the first since START (R412). A frozen wait goes on with what is left of it, unless
a cause stands, the grant has risen meanwhile, or the device is no longer the preferred one. Log entry 65 (DEDUCED). -/
def State.protUp (s : State) : State :=
  let s := if s.rd O.protPreferred = 0 || s.causes ≠ 0 || s.rd O.keepGrantLevel = 1 then s.endWait
    else match s.prot.frozen with
      | some left => s.updProt fun x => { x with waitEnd := some (s.pclk + left), frozen := none }
      | none => s
  (s.updProt fun x => { x with first := true }).protFollow

/-- PROT leaves RUNNING: READY falls with it (R410, R418), while roles, KEEP_STATE and the wait stand still (R421). Log entry 65 (DEDUCED). -/
def State.protFreeze (s : State) : State :=
  let s := if s.prot.ready then s.readyFalls s.causes else s
  match s.prot.waitEnd with
  | some e => s.updProt fun x => { x with waitEnd := none, frozen := some (e - s.pclk) }
  | none => s

/-- WTR_LEFT. -/
def State.wtrLeft (s : State) : Nat :=
  match s.prot.waitEnd, s.prot.frozen with
  | some e, _ => e - s.pclk
  | none, some n => n
  | none, none => 0

end Sys2Proof.Machine
end

