-- ==== Sys2Proof/Machine/Otn.lean ====
section
/-!
DEFINITION. OTUCn framing, overhead, defects, packet clients and the time-slot interchange (chapter 06).
-/

namespace Sys2Proof.Machine

/-! ### Groups -/

/-- A group. -/
def State.grp (s : State) (g : Nat) : OtnGroup := mget s.otn.groups {} g

/-- Change a group. -/
def State.updGrp (s : State) (g : Nat) (f : OtnGroup → OtnGroup) : State :=
  { s with otn := { s.otn with groups := mupd s.otn.groups {} g f } }

/-- A slice of a group. -/
def OtnGroup.slice (x : OtnGroup) (i : Nat) : OtnSlice := mget x.slices {} i

/-- Change a slice of a group. -/
def State.updSlice (s : State) (g i : Nat) (f : OtnSlice → OtnSlice) : State :=
  s.updGrp g fun x => { x with slices := mupd x.slices {} i f }

/-- Number of slices of a group, n of OTUCn. -/
def State.groupN (s : State) (g : Nat) : Nat := s.rd (O.groupN g)

/-- The port of a group. -/
def State.groupPort (s : State) (g : Nat) : Nat := s.rd (O.groupPort g)

/-- Does the group run (R185)? -/
def State.grpRuns (s : State) (g : Nat) : Bool := s.running .otn && (s.grp g).inForce && !(s.grp g).noPort

/-- Some slice of the group satisfies a test (R171). -/
def State.anySlice (s : State) (g : Nat) (f : OtnSlice → Bool) : Bool :=
  (List.range (s.groupN g)).any fun i => f ((s.grp g).slice i)

/-- Largest OTUCn of a pair mode (R164). -/
def otnMax : Nat → Nat
  | 1 => 16 | 2 => 8 | 3 => 4 | _ => 0

/-- TIM (R174): the accepted SAPI and DAPI differ from the expected ones. -/
def State.tim (s : State) (g : Nat) : Bool :=
  s.rd (O.timEnable g) == 1 && decide (s.rd (O.rxTti g) % 2 ^ 256 ≠ s.rd (O.expectedTti g))

/-- DEFECTS of a group (R171, R188); OOM is set from START until a slice is first in multiframe. Log entry 46 (DESIGN CHOICE). -/
def State.defectsOf (s : State) (g : Nat) : Nat :=
  let x := s.grp g
  if !x.inForce then 0
  else b2n x.los + 2 * b2n (s.anySlice g fun y => y.hunting) + 4 * b2n (s.anySlice g fun y => y.lof)
    + 8 * b2n (s.anySlice g fun y => !y.inMulti) + 16 * b2n (s.anySlice g fun y => y.lom) + 32 * b2n (s.tim g)
    + 64 * b2n (s.anySlice g fun y => y.smBdi) + 128 * b2n (s.anySlice g fun y => y.pmBdi)
    + 256 * b2n (s.anySlice g fun y => y.biae) + 512 * b2n x.smDeg

/-- Is every slice in frame, in multiframe and at one MFAS (R171)? -/
def State.isAligned (s : State) (g : Nat) : Bool :=
  !(s.grp g).los && !s.anySlice g (fun y => y.hunting || !y.inMulti) && (s.grp g).agree

/-- A slice's frame period begins: the first of a new frame if the slice's period of the frame in hand has come already. -/
def OtnGroup.beginRow (x : OtnGroup) (i : Nat) : OtnGroup :=
  if x.rows.isEmpty || x.rows.contains i then { x with rows := [i], counted := false } else { x with rows := x.rows ++ [i] }

/-- A slice's frame period ends: with the last slice's the frame is complete, and the slices' MFAS are compared (R171).
Log entry 46 (DEDUCED). -/
def State.endRow (s : State) (g : Nat) : State :=
  if (s.grp g).rows.length < s.groupN g then s
  else s.updGrp g fun x => { x with rows := [], agree := !s.anySlice g fun y => y.mfas != (x.slice 0).mfas || y.mfas.isNone }

/-- RX_STATE (R188). -/
def State.rxStateOf (s : State) (g : Nat) : Nat :=
  let x := s.grp g
  if x.noPort then 5 else if !x.inForce then 0 else if x.los then 1
  else if s.anySlice g (fun y => y.hunting) then 2
  else if x.aligned then 4 else 3

/-- Does the group's signal make its downstream carry AIS: LOS, LOF, LOM or TIM, no port, or LINE not running (R175, R187)? -/
def State.grpAis (s : State) (g : Nat) : Bool :=
  (s.defectsOf g &&& 0x35) != 0 || (s.grp g).noPort || !(s.grp g).inForce || !s.running .line

/-! ### Clients (R176, R177, R189) -/

/-- Receive slots of a group that name a sub-port in a page. -/
def clientSlots (page : NMap Nat) (dir g q : Nat) : Nat :=
  (page.filter fun e => e.1 / 65536 == dir && bits e.1 12 9 == g && e.2 / 2 ^ 28 == 2 && e.2 % 512 == q).length

/-- Sub-ports that the receive slots of a group name in the active page. -/
def State.clientsOf (s : State) (g : Nat) : List Nat :=
  ((s.otn.active.filter fun e => e.1 / 65536 == 1 && bits e.1 12 9 == g && e.2 / 2 ^ 28 == 2).map fun e => e.2 % 512).eraseDups

/-- The group whose receive slots name a sub-port in the active page. -/
def State.groupOfClient (s : State) (q : Nat) : Option Nat :=
  (s.otn.active.find? fun e => e.1 / 65536 == 1 && e.2 / 2 ^ 28 == 2 && e.2 % 512 == q).map fun e => bits e.1 12 9

/-- A client. -/
def State.client (s : State) (q : Nat) : OtnClient := mget s.otn.clients {} q

/-- Change a client. -/
def State.updClient (s : State) (q : Nat) (f : OtnClient → OtnClient) : State :=
  { s with otn := { s.otn with clients := mupd s.otn.clients {} q f } }

/-- CLIENT_DEFECTS of a client (R175, R176, R189): none while no group in force has a receive slot that names it. -/
def State.clientDefects (s : State) (q : Nat) : Nat :=
  let c := s.client q
  match s.groupOfClient q with
  | some g => if (s.grp g).inForce then b2n (c.allOnes || s.grpAis g) + 2 * b2n c.noLock + 4 * b2n c.pmBdi else 0
  | none => 0

/-- CLIENT_STATE of a client (R175, R176, R189). -/
def State.clientStateOf (s : State) (q : Nat) : Nat :=
  if !((s.groupOfClient q).any fun g => (s.grp g).inForce) then 0
  else if bit (s.clientDefects q) 0 then 2 else if bit (s.clientDefects q) 1 then 3 else 1

/-- Recompute CLIENT_STATE and report its change (R175, R176, R190). -/
def State.clientFollow (s : State) (q : Nat) : State :=
  let st := s.clientStateOf q
  if st = (s.client q).state then s
  else (s.updClient q fun c => { c with state := st }).raise 5 0x0504 0x05 WARNING q st (s.clientDefects q)

/-- Does an OTN port that waits for its group become UP now (R172, R150, R151): its lanes are LOCKED and run no pattern, and no Evrad channel
holds it down? -/
def State.otnLifts (s : State) (p : Nat) : Bool :=
  s.rd (O.portLinkState p) == 2 && s.isOtn p && !s.outOfService p && !s.diagnostic p

/-- Bring DEFECTS, RX_STATE, LINK_STATE and the clients of a group up to date, and report what changed; an OOF is reported in any case. OTN_ALIGNED
gives the frames since the earliest HUNT that the alignment ends. HUNT_CANDIDATES is a U8: beyond 255 candidates it reads 255, where the manual
is silent (R169, R171, R172, R188, R190). Log entry 46 (DEDUCED and DESIGN CHOICE). -/
def State.otnFollow (s : State) (g : Nat) (oof : Bool := false) : State :=
  let old := s.rd (O.defects g)
  let new := s.defectsOf g
  let s := s.wr (O.defects g) new
  let s := if old = new && !oof then s else s.raise 5 0x0501 0x05 WARNING g (old ^^^ new) new
  let was := (s.grp g).aligned
  let now := (s.grp g).inForce && !(s.grp g).noPort && s.isAligned g
  let s := s.updGrp g fun x => { x with aligned := now }
  let p := s.groupPort g
  let s := if now && !was then
      let age := ((List.range (s.groupN g)).map fun i => ((s.grp g).slice i).age).foldl max 0
      let s := s.updGrp g fun x => { x with slices := x.slices.map fun e => (e.1, { e.2 with age := 0 }) }
      s.raise 5 0x0502 0x05 NOTICE g age (s.rd (O.oofEvents g))
    else if was && !now && s.isOtn p && s.rd (O.portLinkState p) = 3 then s.portDown p 4 2
    else s
  let s := if now && s.otnLifts p then s.portUp p else s
  let s := s.wr (O.rxState g) (s.rxStateOf g)
  let s := s.wr (O.huntCandidates g) (min 255
    ((List.range (s.groupN g)).map fun i => ((s.grp g).slice i).cands.length).sum)
  (s.clientsOf g).foldl State.clientFollow s

/-- A slice out of frame reads no overhead: no BIAE, and no violations to return as BEI (R173). -/
def OtnSlice.noOverhead (y : OtnSlice) : OtnSlice := { y with biae := false, smBei := 0, pmBei := 0 }

/-- A slice goes out of frame (R169): the tracker is emptied and HUNT restarts. The manual declares OOM by five frames whose MFAS does not
increment; it does not say that a slice out of frame, or one that has not been in multiframe since START, counts as OOM: it does here.
Log entry 46 (DESIGN CHOICE). -/
def OtnSlice.oof (y : OtnSlice) : OtnSlice :=
  ({ y with hunting := true, cands := [], misses := 0, inMulti := false, mfas := none, mfMiss := 0, age := 0, tti := [], ttiRuns := 0 } :
    OtnSlice).noOverhead

/-- A slice of a group goes out of frame and is counted. -/
def State.sliceOof (s : State) (g i : Nat) : State :=
  (s.updSlice g i OtnSlice.oof).inc (O.oofEvents g)

/-- Follow the lanes of a group's port: LOS while any lane is not LOCKED (R170); with the signal go the alignment markers, so
slices that were in frame go out of frame. -/
def State.losFollow (s : State) (g : Nat) : State :=
  if !(s.grp g).inForce || (s.grp g).noPort then s
  else
    let lost := s.rd (O.adminUp (s.groupPort g)) == 0 || (s.lanesOf (s.groupPort g)).any fun l => s.rd (O.laneState l) != 2
    if lost = (s.grp g).los then s
    else
      let s := s.updGrp g fun x => { x with los := lost, rows := [], agree := false }
      let s := if lost then
          (List.range (s.groupN g)).foldl (fun s i =>
            if ((s.grp g).slice i).hunting then s.updSlice g i (fun y => { y with cands := [] }) else s.sliceOof g i) s
        else s
      s.otnFollow g

/-- Every group follows its lanes. -/
def State.losAll (s : State) : State := (List.range 12).foldl State.losFollow s

/-! ### One frame period of one slice (R168 to R174) -/

/-- Put a number into an ascending list. -/
def insertAscending (n : Nat) : List Nat → List Nat
  | [] => [n]
  | m :: t => if n ≤ m then n :: m :: t else m :: insertAscending n t

/-- A list in ascending order. -/
def ascending (l : List Nat) : List Nat := l.foldr insertAscending []

/-- The tracker after one frame period (R168): surviving candidates, new candidates by rising position, and matches that found it full. -/
def trackFrame (cands : List (Nat × Nat)) (fas : List Nat) : List (Nat × Nat) × Nat :=
  let kept := (cands.filter fun c => fas.contains c.1).map fun c => (c.1, c.2 + 1)
  let fresh := ascending (fas.eraseDups.filter fun p => p < 122368 && !(cands.any fun c => c.1 == p))
  let room := 32 - kept.length
  (kept ++ (fresh.take room).map fun p => (p, 1), fresh.length - room)

/-- The hunt of R168: one frame period. -/
def OtnSlice.hunt (y : OtnSlice) (fas : List Nat) : OtnSlice × Nat :=
  let (t, excess) := trackFrame y.cands fas
  match t with
  | [(p, c)] => if c ≥ 3 then ({ y with hunting := false, cands := [], pos := p, misses := 0 }, excess)
                else ({ y with cands := t }, excess)
  | _ => ({ y with cands := t }, excess)

/-- The multiframe aligner of R170: one frame in frame. -/
def OtnSlice.multi (y : OtnSlice) (mfas : Nat) : OtnSlice :=
  let m := mfas % 256
  match y.mfas with
  | none => { y with mfas := some m }
  | some q =>
    if (q + 1) % 256 = m then { y with mfas := some m, inMulti := true, mfMiss := 0 }
    else if y.mfMiss + 1 ≥ 5 then { y with mfas := some m, inMulti := false, mfMiss := 0, tti := [], ttiRuns := 0 }
    else { y with mfas := some m, mfMiss := y.mfMiss + 1 }

/-- A received BEI as it counts (R173). -/
def beiCount (v : Nat) : Nat := if v ≤ 8 then v else 0

/-- Overhead of one frame of a slice that is in frame; a TTI is accepted when one slice reads it in three repetitions without a break of frame
or multiframe (R173, R174). Log entry 46 (DEDUCED). -/
def State.otnOverhead (s : State) (g i : Nat) (o : OtucObs) : State :=
  let s := (s.add (O.smBipErrors g) o.smBip).add (O.smBeiCount g) (beiCount o.smBei)
  let s := (s.add (O.pmBipErrors g) o.pmBip).add (O.pmBeiCount g) (beiCount o.pmBei)
  let s := s.updSlice g i fun y => { y with smBdi := o.smBdi, pmBdi := o.pmBdi, biae := o.smBei == 11,
                                            smBei := min o.smBip 8, pmBei := min o.pmBip 8 }
  let s := s.updGrp g fun x =>
    { x with counted := x.counted || decide (0 < o.smBip), errored := if !x.counted && decide (0 < o.smBip) then x.errored + 1 else x.errored }
  match o.tti with
  | none => s
  | some t =>
    let t := fit t 64
    let n := if ((s.grp g).slice i).tti = t then ((s.grp g).slice i).ttiRuns + 1 else 1
    let s := s.updSlice g i fun y => { y with tti := t, ttiRuns := n }
    if n ≥ 3 then s.wrB (O.rxTti g) t else s

/-- A slice whose frame period passed: the periods since HUNT began count until the group is aligned (R190). -/
def OtnSlice.older (y : OtnSlice) : OtnSlice := { y with age := if y.hunting || 0 < y.age then y.age + 1 else 0 }

/-- One slice's frame period: hunt or hold, multiframe, overhead (R168 to R170, R173). -/
def State.otnFrame (s : State) (g i : Nat) (o : OtucObs) : State :=
  let y := (s.grp g).slice i
  let s := (s.updGrp g fun x => x.beginRow i).updSlice g i OtnSlice.older
  if y.hunting then
    let (y', excess) := y.older.noOverhead.hunt o.fas
    let y' := if y'.hunting then y' else { y' with mfas := some (o.mfas % 256) }
    (s.updSlice g i fun _ => y').add (O.candOverflows g) excess
  else if !o.markers then s.sliceOof g i
  else if !o.fas32 && y.misses + 1 ≥ 5 then s.sliceOof g i
  else
    let s := s.updSlice g i fun y => ({ y with misses := if o.fas32 then 0 else y.misses + 1 }).multi o.mfas
    s.otnOverhead g i o

/-- What one client's demapper saw (R176). -/
def State.clientObs (s : State) (c : ClientObs) : State :=
  let q := c.subport.val
  let s := s.updClient q fun x => { x with
    allOnes := c.allOnes, noLock := !c.lock, pmBdi := c.pmBdi, txBei := min c.pmBip 8, bip := (x.bip + c.pmBip) % 2 ^ 64,
    bei := (x.bei + beiCount c.pmBei) % 2 ^ 64, drops := (x.drops + c.lost) % 2 ^ 64 }
  s.clientFollow q

/-- The clients of a group return the violations of the new frame only (R176). -/
def State.freshBei (s : State) (g : Nat) : State :=
  (s.clientsOf g).foldl (fun s q => s.updClient q fun c => { c with txBei := 0 }) s

/-- The meaning of OTUC_FRAME_PERIOD. While LINE does not run, the receiver ignores the frame: the slice then reads no overhead.
Log entry 46 (DEDUCED). -/
def execOtucFramePeriod (g : Fin 12) (slice : Fin 16) (obs : OtucObs) (clients : List ClientObs) (s : State) :
    Host.Outcome State Fault Refusal :=
  if !s.grpRuns g.val || (s.grp g.val).los || decide (s.groupN g.val ≤ slice.val) then done s
  else if s.running .line then
    let s := if (s.grp g.val).rows.isEmpty || (s.grp g.val).rows.contains slice.val then s.freshBei g.val else s
    let before := ((s.grp g.val).slice slice.val).hunting
    let s := (s.otnFrame g.val slice.val obs).endRow g.val
    let oof := !before && ((s.grp g.val).slice slice.val).hunting
    let s := (clients.filter fun c => s.groupOfClient c.subport.val == some g.val).foldl State.clientObs s
    done (s.otnFollow g.val oof)
  else done ((s.updSlice g.val slice.val OtnSlice.noOverhead).otnFollow g.val)

/-- The meaning of INTEGRATED_DEFECT_TIMER: the state of a slice has lasted 3.00 ms (R170). Log entry 46 (DEDUCED). -/
def execIntegratedDefectTimer (g : Fin 12) (slice : Fin 16) (multiframe : Bool) (s : State) :
    Host.Outcome State Fault Refusal :=
  if s.grpRuns g.val && decide (slice.val < s.groupN g.val) then
    let s := s.updSlice g.val slice.val fun y =>
      if multiframe then { y with lom := !y.inMulti } else { y with lof := y.hunting }
    done (s.otnFollow g.val)
  else done s

/-- The meaning of SM_DEG_SECOND (R174). -/
def execSmDegSecond (g : Fin 12) (s : State) : Host.Outcome State Fault Refusal :=
  if s.grpRuns g.val then
    let t := s.rd (O.degThreshold g.val)
    let d := s.rd (O.degSeconds g.val)
    let s := s.updGrp g.val fun x =>
      if t = 0 then { x with errored := 0, badSecs := 0, goodSecs := 0, smDeg := false }
      else
        let bad := if x.errored > t then x.badSecs + 1 else 0
        let good := if x.errored > t then 0 else x.goodSecs + 1
        { x with errored := 0, badSecs := bad, goodSecs := good,
                 smDeg := if bad ≥ d then true else if good ≥ d then false else x.smDeg }
    done (s.otnFollow g.val)
  else done s

/-! ### What is transmitted (R55, R173, R175, R187) -/

/-- Contents of a transmitted tributary slot; nothing, where the group sends nothing. -/
inductive TxSlot
  | nothing
  | unequipped
  | ais
  | connect (group slot : Nat)
  | client (subport : Nat)
  deriving DecidableEq, Repr

/-- Does a group send: not in NO_PORT, nor when it is off while OTN runs (R187)? -/
def State.grpSends (s : State) (g : Nat) : Bool := !(s.grp g).noPort && (!s.running .otn || (s.grp g).inForce)

/-- What slot `k` of group `g` carries now. While OTN is STOPPING a client whose mapper is sending its last frame still has its slots (R186). -/
def State.txSlot (s : State) (g k : Nat) : TxSlot :=
  let d := mget s.otn.active 0 (g * 512 + k)
  if !s.grpSends g then .nothing
  else if s.fnState .otn = STOPPING && s.running .line && d / 2 ^ 28 = 2 && s.otn.sending.contains (d % 512) then .client (d % 512)
  else if !s.running .otn || !s.running .line then .ais
  else
    match d / 2 ^ 28 with
    | 1 => if s.grpAis (bits d 12 9) then .ais else .connect (bits d 12 9) (d % 512)
    | 2 => .client (d % 512)
    | 3 => .ais
    | _ => .unequipped

/-- Are SM BDI and ODUCn PM BDI set in what the group transmits (R175, R186)? -/
def State.txBdi (s : State) (g : Nat) : Bool := s.grpRuns g && (s.defectsOf g &&& 0x35) != 0

/-- The OTUC payload of a FlexO instance that a group transmits (R164). -/
inductive TxPayload
  | nothing
  | zeros
  | otuc (slice : Nat)
  deriving DecidableEq, Repr

/-- What instance `k` of a group carries: OTUC slice k, or zeros where it is numbered n or higher (R164). -/
def State.txPayload (s : State) (g k : Nat) : TxPayload :=
  if !s.grpSends g || decide (otnMax (s.modeOf (s.groupPort g)) ≤ k) then .nothing
  else if k < s.groupN g then .otuc k else .zeros

/-- The overhead that the transmitter writes into the next frame of a slice: the SM and PM BIP-8 that G.709 computes, the SM and PM BEI, which
return the violations of the received slice, BDI and TTI; BIAE is never sent (R173 to R175). -/
structure TxOverhead where
  smBip : BitVec 8
  pmBip : BitVec 8
  smBei : Nat
  pmBei : Nat
  bdi   : Bool
  tti   : List Byte
  deriving DecidableEq, Repr

/-- Does the receiver of a group read frames now: the group runs, and so does LINE, without LOS? -/
def State.grpReads (s : State) (g : Nat) : Bool := s.grpRuns g && !(s.grp g).los && s.running .line

/-- That overhead of slice `i` of a group, or nothing where the group sends no such slice. Log entry 46 (DESIGN CHOICE). -/
def State.txOverhead (s : State) (g i : Nat) : Option TxOverhead :=
  let y := if s.grpReads g then (s.grp g).slice i else {}
  if s.txPayload g i = .otuc i then
    some { smBip := Config.otucBip8 g i false s.ticks, pmBip := Config.otucBip8 g i true s.ticks, smBei := y.smBei, pmBei := y.pmBei,
           bdi := s.txBdi g, tti := s.rdB (O.txTti g) 64 }
  else none

/-- The PM BEI and PM BDI of a client's transmitted ODUflex; no violations where its group is not received (R176). -/
def State.clientTx (s : State) (q : Nat) : Nat × Bool :=
  (if (s.groupOfClient q).any s.grpReads then (s.client q).txBei else 0, s.clientDefects q % 4 != 0)

/-- Does a transmit slot of the active page name a client (R177, R178)? -/
def State.clientSlotted (s : State) (q : Nat) : Bool :=
  match s.groupOfClient q with
  | some g => decide (0 < clientSlots s.otn.active 0 g q)
  | none => false

/-- Does a client's mapper take frames: OTN runs, and a transmit slot names the client (R178)? -/
def State.clientMapped (s : State) (q : Nat) : Bool := s.running .otn && s.clientSlotted q

/-- Frames of a client that wait at its mapper. -/
def State.mapperFrames (s : State) (p q : Nat) : List TxFrame := (s.macOf p).filter fun f => f.subport == q

/-- Is the mapper of a client full (R178)? Log entry 46 (DESIGN CHOICE). -/
def State.mapperFull (s : State) (p q : Nat) : Bool :=
  s.isOtn p && s.clientMapped q && decide (Config.mapperBytes < ((s.mapperFrames p q).map fun f => f.bytes).sum)

/-! ### Time-slot interchange (R179 to R184) -/

/-- Is a key good (R179)? -/
def tsiKeyGood (k : Nat) : Bool := decide (k < 2 ^ 17) && bits k 15 13 == 0 && decide (bits k 12 9 ≤ 11) && decide (k % 512 < 320)

/-- Is an entry's data good for its key (R180)? -/
def tsiDataGood (k d : Nat) : Bool :=
  let kind := d / 2 ^ 28
  bits d 27 13 == 0 && decide (d < 2 ^ 32) &&
  if k / 65536 = 1 then (kind == 0 && d == 0) || (kind == 2 && bits d 12 9 == 0)
  else match kind with
    | 0 => d == 0
    | 1 => decide (bits d 12 9 ≤ 11) && decide (d % 512 < 320)
    | 2 => bits d 12 9 == 0
    | 3 => d % 2 ^ 28 == 0
    | _ => false

/-- Does an entry of a page meet R181 against the configuration in force, given which groups have a port in force? -/
def State.tsiEntryGood (s : State) (page : NMap Nat) (force : Nat → Bool) (k d : Nat) : Bool :=
  let g := bits k 12 9
  let slot := k % 512
  if d = 0 then true
  else if !force g || decide (slot ≥ 20 * s.groupN g) then false
  else match d / 2 ^ 28 with
    | 1 => force (bits d 12 9) && decide (d % 512 < 20 * s.groupN (bits d 12 9))
    | 2 =>
      let q := d % 512
      let n := clientSlots page 1 g q
      s.subportPort q == some (s.groupPort g) && decide (1 ≤ n) && decide (n ≤ 80) && clientSlots page 0 g q == n
    | _ => true

/-- The first entry of a page, in key order, that breaks R181. -/
def State.tsiFirstBad (s : State) (page : NMap Nat) (force : Nat → Bool) : Option Nat :=
  (page.find? fun e => !s.tsiEntryGood page force e.1 e.2).map fun e => e.1

/-- Is a group in force while OTN runs? -/
def State.inForceNow (s : State) (g : Nat) : Bool := (s.grp g).inForce && !(s.grp g).noPort && s.groupN g != 0

/-- Is a swap PENDING (R182)? -/
def State.tsiPending (s : State) : Bool := s.rd O.tsiSwapState == 1

/-- A TSI command: refused while OTN is DISABLED; TSI_RESULT takes the status. -/
def tsiCmd (f : State → State × Status) (s : State) : State × Status :=
  let r := if s.fnState .otn = DISABLED then (s, Status.functionDisabled) else f s
  (r.1.wrSt O.tsiResult r.2, r.2)

/-- WRITE of a standby entry. -/
def cmdTsiWrite (s : State) : State × Status :=
  let k := s.rd O.tsiKey
  let d := s.rd O.tsiData
  if s.tsiPending then (s, .busy)
  else if !tsiKeyGood k || !tsiDataGood k d then (s, .range)
  else ({ s with otn := { s.otn with standby := mset s.otn.standby 0 k d } }, .ok)

/-- READ of an entry of a page. -/
def cmdTsiRead (active : Bool) (s : State) : State × Status :=
  let k := s.rd O.tsiKey
  if !tsiKeyGood k then (s, .range)
  else (s.wr O.tsiData (mget (if active then s.otn.active else s.otn.standby) 0 k), .ok)

/-- COPY of the active page to the standby page. -/
def cmdTsiCopy (s : State) : State × Status :=
  if s.tsiPending then (s, .busy) else ({ s with otn := { s.otn with standby := s.otn.active } }, .ok)

/-- CLEAR of the standby page. -/
def cmdTsiClear (s : State) : State × Status :=
  if s.tsiPending then (s, .busy) else ({ s with otn := { s.otn with standby := [] } }, .ok)

/-- SWAP (R181, R182). The manual names no status for a SWAP while OTN is not RUNNING, when no group is in force: FUNCTION_DISABLED.
Log entry 46 (DESIGN CHOICE). -/
def cmdTsiSwap (s : State) : State × Status :=
  if s.tsiPending then (s, .busy)
  else if !s.running .otn then (s, .functionDisabled)
  else match s.tsiFirstBad s.otn.standby s.inForceNow with
    | some k => (s.wr O.tsiErrorKey k, .range)
    | none => (s.wr O.tsiSwapState 1, .ok)

/-- The meaning of TSI_WRITE. -/
def execTsiWrite (p : Path) (arg : BitVec 24) (s : State) : Host.Outcome State Fault Refusal :=
  done (access p O.tsiCmd (cmdData 1 arg) (tsiCmd (noArg arg cmdTsiWrite)) s)

/-- The meaning of TSI_READ, of the standby or the active page. -/
def execTsiRead (p : Path) (active : Bool) (arg : BitVec 24) (s : State) : Host.Outcome State Fault Refusal :=
  done (access p O.tsiCmd (cmdData (if active then 3 else 2) arg) (tsiCmd (noArg arg (cmdTsiRead active))) s)

/-- The meaning of TSI_COPY. -/
def execTsiCopy (p : Path) (arg : BitVec 24) (s : State) : Host.Outcome State Fault Refusal :=
  done (access p O.tsiCmd (cmdData 4 arg) (tsiCmd (noArg arg cmdTsiCopy)) s)

/-- The meaning of TSI_CLEAR. -/
def execTsiClear (p : Path) (arg : BitVec 24) (s : State) : Host.Outcome State Fault Refusal :=
  done (access p O.tsiCmd (cmdData 5 arg) (tsiCmd (noArg arg cmdTsiClear)) s)

/-- The meaning of TSI_SWAP. Log entry 46 (DEDUCED). -/
def execTsiSwap (p : Path) (arg : BitVec 24) (s : State) : Host.Outcome State Fault Refusal :=
  done (access p O.tsiCmd (cmdData 6 arg) (tsiCmd (noArg arg cmdTsiSwap)) s)

/-- The meaning of TSI_SWAPPED: the transmitted frame with MFAS 0x00 comes, and the pages change places (R182). Log entry 46 (DEDUCED). -/
def execTsiSwapped (s : State) : Host.Outcome State Fault Refusal :=
  if s.tsiPending && s.running .otn then
    let s := { s with otn := { s.otn with active := s.otn.standby, standby := s.otn.active } }
    let s := ((s.wr O.tsiActivePage (1 - s.rd O.tsiActivePage)).wr O.tsiSwapState 0).inc O.tsiSwaps
    let s := s.raise 5 0x0503 0x05 NOTICE (s.rd O.tsiActivePage) (s.rd O.tsiSwaps) 0
    let s := (s.otn.clients.map fun e => e.1).foldl State.clientFollow s
    done ((List.range 12).foldl State.otnFollow s)
  else done s

/-- Cut a buffer into records of `n` bytes; bytes after the last whole record make a short one. -/
def records (n : Nat) : Nat → List Byte → List (List Byte)
  | 0, _ => []
  | _, [] => []
  | fuel + 1, l => l.take n :: records n fuel (l.drop n)

/-- The records of a table ring's next descriptor when the ring has the given target, with the descriptor's slot. -/
def State.ringRecords (s : State) (n target size : Nat) : Option (Nat × List (List Byte)) :=
  if s.rd (O.dringKind n) = 1 && s.rd (O.dringTarget n) = target && s.live n then
    (s.nextEffect n).map fun f => (f.slot, records size f.data.length f.data)
  else none

/-- The index of the first record that a test refuses. -/
def firstBad {α : Type} (good : α → Bool) : List α → Nat → Option Nat
  | [], _ => none
  | r :: t, i => if good r then firstBad good t (i + 1) else some i

/-- The meaning of TSI_RING_RECORDS (R184): every record is checked before any is written. -/
def execTsiRingRecords (r : Fin 48) (s : State) : Host.Outcome State Fault Refusal :=
  match s.ringRecords r.val 0x00050001 8 with
  | none => done s
  | some (slot, recs) =>
    if s.fnState .otn = DISABLED then done (s.tookEffect r.val slot .functionDisabled 0 0)
    else if s.tsiPending then done (s.tookEffect r.val slot .busy 0 0)
    else match firstBad (fun x => x.length == 8 && tsiKeyGood (le x 0 4) && tsiDataGood (le x 0 4) (le x 4 4)) recs 0 with
      | some i => done (s.tookEffect r.val slot .range 0 i)
      | none =>
        let s := { s with otn := { s.otn with
          standby := recs.foldl (fun m x => mset m 0 (le x 0 4) (le x 4 4)) s.otn.standby } }
        done (s.tookEffect r.val slot .ok (8 * recs.length) 0)

/-! ### Lifecycle (R185 to R187, R190) -/

/-- Does a group's configuration meet R185? -/
def State.groupGood (s : State) (g : Nat) : Bool :=
  let p := s.groupPort g
  s.portExists p && s.isOtn p && decide (s.groupN g ≤ otnMax (s.modeOf p))
    && (List.range 12).all fun h => h == g || s.groupPort h != p

/-- What OTN START finds (R185): a bad group, a bad entry of the active page, or nothing. -/
def State.otnStartCheck (s : State) : State × Status :=
  if (List.range 12).any fun g => s.groupN g != 0 && !s.groupGood g then (s, .range)
  else match s.tsiFirstBad s.otn.active (fun g => s.groupN g != 0) with
    | some k => (s.wr O.tsiErrorKey k, .range)
    | none => (s, .ok)

/-- OTN reaches RUNNING: each group begins to hunt, and nothing has been seen of a client. -/
def State.otnUp (s : State) : State :=
  let s := { s with otn := { s.otn with
    clients := s.otn.clients.map fun e => (e.1, { e.2 with allOnes := false, noLock := false, pmBdi := false, txBei := 0 }) } }
  let s := (List.range 12).foldl (fun s g =>
    if s.groupN g = 0 then s.updGrp g fun _ => {} else s.updGrp g fun _ => { inForce := true }) s
  (List.range 12).foldl (fun s g => (s.losFollow g).otnFollow g) s

/-- The clients that have a frame at their mapper. -/
def State.mapping (s : State) : List Nat :=
  (((List.range 96).filter fun p => s.isOtn p).flatMap fun p => ((s.macOf p).map fun f => f.subport).filter fun q => s.clientSlotted q).eraseDups

/-- STOP of OTN is accepted: a pending swap is cancelled, and each client mapper goes on with the first frame that it holds, which is the one that
it is sending (R186). Log entry 46 (DEDUCED). -/
def State.otnStopping (s : State) : State :=
  let s := s.wr O.tsiSwapState 0
  { s with otn := { s.otn with sending := s.mapping } }

/-- A mapper ends with the frame that it is sending. -/
def State.mapperDone (s : State) (q : Nat) : State := { s with otn := { s.otn with sending := s.otn.sending.filter (· ≠ q) } }

/-- A forced stop discards the frames that the mappers are sending (R57, R186). -/
def State.otnForced (s : State) : State :=
  s.otn.sending.foldl (fun s q =>
    match (List.range 96).find? fun p => s.isOtn p && !(s.mapperFrames p q).isEmpty with
    | some p =>
      match (s.macOf p).find? fun f => f.subport == q with
      | some f => ((s.setMac p ((s.macOf p).erase f)).leavePort f.owner f.bytes).mapperDone q
      | none => s.mapperDone q
    | none => s.mapperDone q) s

/-- OTN has stopped: no group is in force, so none is aligned and a port that was UP with its group goes to ALIGNING (R172); NO_PORT stays until
the next START (R187). -/
def State.otnDown (s : State) : State :=
  let s := { s with otn := { s.otn with sending := [] } }
  (List.range 12).foldl (fun s g =>
    let p := s.groupPort g
    let s := if (s.grp g).aligned && s.isOtn p && s.rd (O.portLinkState p) == 3 then s.portDown p 4 2 else s
    (s.updGrp g fun x => { noPort := x.noPort }).otnFollow g) s

/-- DISABLE of OTN discards both pages. -/
def State.otnDisable (s : State) : State :=
  { s with otn := { s.otn with active := [], standby := [], clients := [], sending := [] } }

/-- PAIR_APPLY gave a port another role or mode: its group loses it (R190). -/
def State.otnUnbind (s : State) (changed : Nat → Bool) : State :=
  (List.range 12).foldl (fun s g =>
    if s.grpRuns g && changed (s.groupPort g) then
      let s := s.updGrp g fun x => { x with noPort := true, aligned := false }
      (s.raise 5 0x0505 0x05 ERROR g (s.groupPort g) 0).otnFollow g
    else s) s

end Sys2Proof.Machine
end

