-- ==== Sys2Proof/Machine/Packet.lean ====
section
/-!
DEFINITION. Packets on the F-die: the metadata word (R198, R199), the parser (R194 to R197), the match chain (R200 to R203), and the
default actions (R207, R208).
-/

namespace Sys2Proof.Machine

/-! ### Metadata (R198) -/

/-- Field [hi:lo] of word Wk. -/
def mdGet (md : BitVec 512) (k hi lo : Nat) : Nat := bits md.toNat (480 - 32 * k + hi) (480 - 32 * k + lo)

/-- Replace metadata bits [lo + w − 1 : lo]. -/
def mdPut (md : BitVec 512) (lo w v : Nat) : BitVec 512 :=
  BitVec.ofNat 512 (md.toNat - md.toNat / 2 ^ lo % 2 ^ w * 2 ^ lo + v % 2 ^ w * 2 ^ lo)

/-- Replace field [hi:lo] of word Wk. -/
def mdSet (md : BitVec 512) (k hi lo v : Nat) : BitVec 512 := mdPut md (480 - 32 * k + lo) (hi + 1 - lo) v

/-- Several fields of word Wk. -/
def mdSets (md : BitVec 512) (l : List (Nat × Nat × Nat × Nat)) : BitVec 512 :=
  l.foldl (fun m x => mdSet m x.1 x.2.1 x.2.2.1 x.2.2.2) md

def inPortOf (md : BitVec 512) : Nat := mdGet md 0 31 25
def inSubportOf (md : BitVec 512) : Nat := mdGet md 0 24 16
def portSeqOf (md : BitVec 512) : Nat := mdGet md 1 31 8
def queueOf (md : BitVec 512) : Nat := mdGet md 8 31 12
def egSubportOf (md : BitVec 512) : Nat := mdGet md 8 11 3
def tcOf (md : BitVec 512) : Nat := mdGet md 8 2 0
def destOf (md : BitVec 512) : Nat := mdGet md 9 31 16
def profileOf (md : BitVec 512) : Nat := mdGet md 9 15 4
def colourOf (md : BitVec 512) : Nat := mdGet md 9 3 2
def dropOf (md : BitVec 512) : Bool := mdGet md 9 1 1 == 1
def policerOf (md : BitVec 512) : Nat := mdGet md 10 31 10
def counterOf (md : BitVec 512) : Nat := mdGet md 11 31 9
def trapOf (md : BitVec 512) : Nat := mdGet md 12 31 24

/-! ### Parser (R194 to R197) -/

/-- What the parser has found: offsets (0xFF absent), types, counts, VLAN fields, flags and status. -/
structure Parsed where
  l3Off   : Nat := 0xFF
  l4Off   : Nat := 0xFF
  tunOff  : Nat := 0xFF
  il2Off  : Nat := 0xFF
  il3Off  : Nat := 0xFF
  il4Off  : Nat := 0xFF
  mplsOff : Nat := 0xFF
  payOff  : Nat := 0
  l3      : Nat := 0
  l4      : Nat := 0
  tun     : Nat := 0
  il3     : Nat := 0
  il4     : Nat := 0
  vlans   : Nat := 0
  labels  : Nat := 0
  sids    : Nat := 0
  tci0    : Nat := 0
  tci1    : Nat := 0
  opt     : Bool := false
  frag    : Bool := false
  ttl     : Bool := false
  status  : Nat := 0
  deriving DecidableEq, Repr

/-- The parser settings in force and the frame (R195, R197). -/
structure ParseEnv where
  frame  : List Byte
  depth  : Nat
  tpids  : List Nat
  vxlan  : Nat
  geneve : Nat
  tunnel : Nat
  csum   : Bool
  byNibble : Bool
  deriving DecidableEq, Repr

/-- Can a header of `n` bytes at offset `o` be parsed (R195, R196)? 0 yes, 1 TRUNCATED, 2 DEPTH, 3 it starts beyond the depth. -/
def ParseEnv.room (c : ParseEnv) (o n : Nat) : Nat :=
  if c.depth ≤ o then 3
  else if o + n ≤ c.depth then (if o + n ≤ c.frame.length then 0 else 1)
  else if c.frame.length < c.depth then 1 else 2

/-- Parse a header of `n` bytes at `o` when it can be parsed; otherwise the parse ends, in failure or not. -/
def ParseEnv.header (c : ParseEnv) (o n : Nat) (p : Parsed) (f : Parsed → Parsed) : Parsed :=
  match c.room o n with
  | 0 => f { p with payOff := o + n }
  | 3 => p
  | st => { p with status := st }

/-- A field of the frame. -/
def ParseEnv.fld (c : ParseEnv) (o n : Nat) : Nat := be c.frame o n

/-- L4 headers of a level (R194): TCP, UDP, ICMP, ICMPv6, SCTP by protocol; `set` writes the level's type and offset. The manual gives no lengths
of the headers of ICMP and ICMPv6 (8 bytes here) and SCTP (12). Log entry 47 (PRESUMED). -/
def ParseEnv.l4 (c : ParseEnv) (proto o : Nat) (p : Parsed) (set : Parsed → Nat → Nat → Parsed) (udp : Parsed → Parsed) : Parsed :=
  match proto with
  | 6 => c.header o 20 p fun _ =>
      c.header o (max 20 (bits (c.fld (o + 12) 1) 7 4 * 4)) p fun p => set p 1 o
  | 17 => c.header o 8 p fun p => udp (set p 2 o)
  | 1 => c.header o 8 p fun p => set p 3 o
  | 58 => c.header o 8 p fun p => set p 4 o
  | 132 => c.header o 12 p fun p => set p 5 o
  | _ => set p 6 0xFF

/-- The ones' complement sum of 16-bit words. -/
def onesSum : List Byte → Nat
  | a :: b :: t => a.toNat * 256 + b.toNat + onesSum t
  | [a] => a.toNat * 256
  | [] => 0

/-- Fold a sum to 16 bits with end-around carry. -/
def fold16 (n : Nat) : Nat := (n % 65536 + n / 65536) % 65536 + (n % 65536 + n / 65536) / 65536

/-- Is the IPv4 header bad (R196)? -/
def ParseEnv.badIpv4 (c : ParseEnv) (o : Nat) : Bool :=
  let ihl := bits (c.fld o 1) 3 0
  bits (c.fld o 1) 7 4 != 4 || decide (ihl < 5)

/-- Is the IPv4 length or checksum bad (R196)? -/
def ParseEnv.badIpv4Body (c : ParseEnv) (o : Nat) : Bool :=
  let ihl := bits (c.fld o 1) 3 0
  decide (o + c.fld (o + 2) 2 > c.frame.length) || (c.csum && fold16 (fold16 (onesSum (slice c.frame o (ihl * 4)))) != 0xFFFF)

/-- IPv4 at `o`: `set` writes the level's L3, `flags` its FLAGS, `next` goes on with the protocol, `part` marks a non-first
fragment. -/
def ParseEnv.ipv4 (c : ParseEnv) (o : Nat) (p : Parsed) (set : Parsed → Parsed) (flags : Parsed → Bool → Bool → Bool → Parsed)
    (part : Parsed → Parsed) (next : Nat → Nat → Parsed → Parsed) : Parsed :=
  c.header o 20 p fun _ =>
    if c.badIpv4 o then { p with status := 6 }
    else
      let n := bits (c.fld o 1) 3 0 * 4
      c.header o n p fun q =>
        if c.badIpv4Body o then { p with status := 6 }
        else
          let fr := c.fld (o + 6) 2
          let q := flags (set q) (decide (20 < n)) (fr % 16384 != 0) (decide (c.fld (o + 8) 1 ≤ 1))
          if fr % 8192 ≠ 0 then part q else next (c.fld (o + 9) 1) (o + n) q

/-- IPv6 extension headers from `o` on (R194): `left` more are allowed; `srh` takes a Segment Routing Header, where one is recognised, and `stop`
ends the walk at one that is not, which is payload. Log entry 47 (DEDUCED and PRESUMED). -/
def ParseEnv.ipv6Ext (c : ParseEnv) (flag : Bool → Bool → Parsed → Parsed) (srh : Option (Nat → Parsed → Parsed))
    (part : Parsed → Parsed) (next : Nat → Nat → Parsed → Parsed) (stop : Parsed → Parsed) : Nat → Nat → Nat → Parsed → Parsed
  | left, proto, o, p =>
    if proto = 43 && srh.isNone && c.room o 8 = 0 && c.fld (o + 2) 1 = 4 then stop p
    else if proto = 0 || proto = 60 || proto = 43 || proto = 44 then
      match left with
      | 0 => if c.depth ≤ o then p else { p with status := 7 }
      | left + 1 =>
        c.header o 8 p fun _ =>
          let n := if proto = 44 then 8 else (c.fld (o + 1) 1 + 1) * 8
          c.header o n p fun q =>
            let nh := c.fld o 1
            if proto = 44 then
              let q := flag true true q
              if c.fld (o + 2) 2 / 8 ≠ 0 then part q
              else ParseEnv.ipv6Ext c flag srh part next stop left nh (o + n) q
            else if proto = 43 && c.fld (o + 2) 1 = 4 then
              if c.fld (o + 4) 1 > 11 then { p with status := 5 }
              else ParseEnv.ipv6Ext c flag srh part next stop left nh (o + n) (flag true false (srh.elim q fun f => f o q))
            else ParseEnv.ipv6Ext c flag srh part next stop left nh (o + n) (flag true false q)
    else next proto o p
  termination_by structural left => left

/-- IPv6 at `o`. -/
def ParseEnv.ipv6 (c : ParseEnv) (o : Nat) (p : Parsed) (set : Parsed → Parsed) (flags : Parsed → Bool → Bool → Bool → Parsed)
    (srh : Option (Nat → Parsed → Parsed)) (part : Parsed → Parsed) (next : Nat → Nat → Parsed → Parsed) (stop : Parsed → Parsed) :
    Parsed :=
  c.header o 40 p fun q =>
    if o + 40 + c.fld (o + 4) 2 > c.frame.length then { p with status := 7 }
    else
      let q := flags (set q) false false (decide (c.fld (o + 7) 1 ≤ 1))
      c.ipv6Ext (fun e f q => flags q e f false) srh part next stop 4 (c.fld (o + 6) 1) (o + 40) q

/-- VLAN tags from offset `o`, where an EtherType stands (R194): at most `left` more; EtherType, offset of the next header, and the
tags' TCIs. `none` when the limit is passed or a tag cannot be parsed, with the status. -/
def ParseEnv.tags (c : ParseEnv) : Nat → Nat → List Nat → Nat × Nat × List Nat × Nat
  | left, o, acc =>
    let et := c.fld o 2
    if et ≠ 0 && c.tpids.contains et then
      match left with
      | 0 => (et, o, acc, if c.depth ≤ o + 2 then 0xFF else 3)
      | left + 1 =>
        match c.room (o + 2) 4 with
        | 0 => ParseEnv.tags c left (o + 4) (acc ++ [c.fld (o + 2) 2])
        | st => (et, o, acc, if st = 3 then 0xFF else st)
    else (et, o + 2, acc, 0)
  termination_by structural left => left

/-- Label stack from `o`: labels up to the bottom of stack, or the status that ends the parse (0xFF: beyond the depth). -/
def ParseEnv.labels (c : ParseEnv) : Nat → Nat → Nat → Nat × Nat
  | 0, n, _ => (n, 4)
  | left + 1, n, o =>
    match c.room o 4 with
    | 0 => if bit (c.fld (o + 2) 1) 0 then (n + 1, 0) else ParseEnv.labels c left (n + 1) (o + 4)
    | st => (n, if st = 3 then 0xFF else st)

/-- Inner L4 at `o` (R194). -/
def ParseEnv.innerL4 (c : ParseEnv) (proto o : Nat) (p : Parsed) : Parsed :=
  c.l4 proto o p (fun p t o => { p with il4 := t, il4Off := o }) id

/-- Inner L3 of an EtherType at `o`: one inner level; a further tunnel inside it, a Segment Routing Header among them, is payload. The manual does
not list the L3 headers recognised at this level: IPv4, IPv6, ARP (28 bytes) and PTP (34) here, and every other, MPLS among them, reads OTHER.
Log entry 47 (DESIGN CHOICE and PRESUMED). -/
def ParseEnv.innerL3 (c : ParseEnv) (et o : Nat) (p : Parsed) : Parsed :=
  let set := fun t (p : Parsed) => { p with il3 := t, il3Off := o }
  let part := fun (p : Parsed) => { p with il4 := 7 }
  match et with
  | 0x0800 => c.ipv4 o p (set 1) (fun p _ _ _ => p) part c.innerL4
  | 0x86DD => c.ipv6 o p (set 2) (fun p _ _ _ => p) none part c.innerL4 fun p => { p with il4 := 6 }
  | 0x0806 => c.header o 28 p (set 4)
  | 0x88F7 => c.header o 34 p (set 5)
  | _ => { p with il3 := 6 }

/-- Inner L2 at `o`: Ethernet and up to two tags. -/
def ParseEnv.innerL2 (c : ParseEnv) (o : Nat) (p : Parsed) : Parsed :=
  c.header o 14 p fun p =>
    let t := c.tags 2 (o + 12) []
    let p := { p with il2Off := o, payOff := o + 14 + 4 * t.2.2.1.length }
    if t.2.2.2 = 0 then c.innerL3 t.1 t.2.1 p
    else if t.2.2.2 = 0xFF then p else { p with status := t.2.2.2 }

/-- What follows a tunnel header by EtherType (R194): Ethernet, or an inner L3. -/
def ParseEnv.inner (c : ParseEnv) (et o : Nat) (p : Parsed) : Parsed :=
  if et = 0x6558 then c.innerL2 o p else c.innerL3 et o p

/-- UDP tunnels of the outer level: VXLAN and GENEVE (R194). Log entry 47 (DEDUCED and PRESUMED). -/
def ParseEnv.udpTunnel (c : ParseEnv) (o : Nat) (p : Parsed) : Parsed :=
  let port := c.fld (o + 2) 2
  let t := o + 8
  if p.tun ≠ 0 then p
  else if bit c.tunnel 1 && port = c.vxlan then
    c.header t 8 p fun q =>
      if bit (c.fld t 1) 3 then c.innerL2 (t + 8) { q with tun := 2, tunOff := t } else { p with status := 8 }
  else if bit c.tunnel 2 && port = c.geneve then
    c.header t 8 p fun _ =>
      if bits (c.fld t 1) 7 6 ≠ 0 then { p with status := 8 }
      else
        let n := 8 + bits (c.fld t 1) 5 0 * 4
        c.header t n p fun q => c.inner (c.fld (t + 2) 2) (t + n) { q with tun := 3, tunOff := t }
  else p

/-- GRE of the outer level (R194). Log entry 47 (DEDUCED and PRESUMED). -/
def ParseEnv.gre (c : ParseEnv) (o : Nat) (p : Parsed) : Parsed :=
  c.header o 4 p fun _ =>
    let f := c.fld o 2
    if f % 8 ≠ 0 then { p with status := 8 }
    else
      let n := 4 + 4 * (b2n (bit f 15) + b2n (bit f 13) + b2n (bit f 12))
      c.header o n p fun q => c.inner (c.fld (o + 2) 2) (o + n) { q with tun := 1, tunOff := o }

/-- What follows the outer L3: a tunnel, or the outer L4 (R194). Whether IP in IP must be enabled for next header 4 or 41 behind a recognised
Segment Routing Header the manual does not say: it is decoded there whatever TUNNEL_ENABLE[3] is. Log entry 47 (DESIGN CHOICE). -/
def ParseEnv.outerL4 (c : ParseEnv) (proto o : Nat) (p : Parsed) : Parsed :=
  let l4 := fun p => c.l4 proto o p (fun p t o => { p with l4 := t, l4Off := o }) (c.udpTunnel o)
  let ip := fun et => c.innerL3 et o (if p.tun = 0 then { p with tun := 4, tunOff := o } else p)
  match proto with
  | 47 => if bit c.tunnel 0 && p.tun = 0 then c.gre o p else l4 p
  | 4 => if p.tun = 5 || bit c.tunnel 3 then ip 0x0800 else l4 p
  | 41 => if p.tun = 5 || bit c.tunnel 3 then ip 0x86DD else l4 p
  | 143 => if p.tun = 5 then c.innerL2 o p else l4 p
  | _ => l4 p

/-- FLAGS of the outer L3 (R198). -/
def outerFlags (p : Parsed) (opt frag ttl : Bool) : Parsed :=
  { p with opt := p.opt || opt, frag := p.frag || frag, ttl := p.ttl || ttl }

/-- The outer L3 of an EtherType at `o` (R194); of ARP and PTP the manual gives no lengths, 28 and 34 bytes here. Log entry 47 (PRESUMED). -/
def ParseEnv.outerL3 (c : ParseEnv) (et o : Nat) (p : Parsed) : Parsed :=
  let set := fun t (p : Parsed) => { p with l3 := t, l3Off := o }
  let part := fun (p : Parsed) => { p with l4 := 7 }
  let srh : Option (Nat → Parsed → Parsed) := if bit c.tunnel 4 then
      some fun so (q : Parsed) => if q.tun = 0 then { q with tun := 5, tunOff := so, sids := c.fld (so + 4) 1 + 1 } else q
    else none
  match et with
  | 0x0800 => c.ipv4 o p (set 1) outerFlags part c.outerL4
  | 0x86DD => c.ipv6 o p (set 2) outerFlags srh part c.outerL4 (fun p => { p with l4 := 6 })
  | 0x8847 | 0x8848 =>
    match c.labels 16 0 o with
    | (n, 0) =>
      let e := o + 4 * n
      let p := { set 3 p with mplsOff := o, labels := n, payOff := e }
      if c.byNibble && e < c.depth && e < c.frame.length then
        let nib := c.fld e 1 / 16
        if nib = 4 then c.innerL3 0x0800 e { p with tun := 6, tunOff := o }
        else if nib = 6 then c.innerL3 0x86DD e { p with tun := 6, tunOff := o }
        else p
      else p
    | (n, st) =>
      let p := if n = 0 then p else { set 3 p with mplsOff := o, labels := n, payOff := o + 4 * n }
      if st = 0xFF then p else { p with status := st }
  | 0x0806 => c.header o 28 p (set 4)
  | 0x88F7 => c.header o 34 p (set 5)
  | _ => { p with l3 := 6 }

/-- Parse a frame (R194 to R196). Log entry 47 (DEDUCED and PRESUMED). -/
def ParseEnv.parse (c : ParseEnv) : Parsed :=
  c.header 0 14 {} fun p =>
    let t := c.tags 4 12 []
    let v := t.2.2.1
    let p := { p with vlans := v.length, tci0 := v.headD 0, tci1 := (v.drop 1).headD 0, payOff := 14 + 4 * v.length }
    if t.2.2.2 = 0 then c.outerL3 t.1 t.2.1 p
    else if t.2.2.2 = 0xFF then p else { p with status := t.2.2.2 }

/-- The parser's words W4 to W7 and PARSE_STATUS in the metadata (R198). -/
def mdParsed (md : BitVec 512) (frame : List Byte) (p : Parsed) : BitVec 512 :=
  let flags := b2n p.opt * 8 + b2n p.frag * 4 + b2n p.ttl * 2 + b2n (bit (be frame 0 1) 0)
  mdSets md
    [(1, 7, 0, p.status), (4, 31, 24, p.l3Off), (4, 23, 16, p.l4Off), (4, 15, 8, p.tunOff), (4, 7, 0, p.il2Off),
     (5, 31, 24, p.il3Off), (5, 23, 16, p.il4Off), (5, 15, 8, p.mplsOff), (5, 7, 0, p.payOff),
     (6, 31, 28, p.l3), (6, 27, 24, p.l4), (6, 23, 20, p.tun), (6, 19, 16, p.il3), (6, 15, 12, p.il4), (6, 11, 9, p.vlans),
     (6, 8, 4, p.labels), (6, 3, 0, p.sids), (7, 31, 20, p.tci0), (7, 19, 8, p.tci1), (7, 7, 5, p.tci0 / 8192),
     (7, 4, 4, p.tci0 / 4096), (7, 3, 0, flags)]

/-- An RWS object of the parser as PARSE acts on it: writes made while PARSE is stopped wait for the next START (R56). -/
def State.parserObject (s : State) (k : Nat) : Nat :=
  if s.running .parse || s.fnState .parse == STOPPING then s.rd k else mget s.pk.parser (dfltOf k) k

/-- The parser's settings for a port (R197). Log entry 47 (DEDUCED and PRESUMED). -/
def State.parseEnv (s : State) (port : Nat) (frame : List Byte) : ParseEnv :=
  { frame := frame, depth := s.rd (O.parseDepth port), tpids := [O.tpid0, O.tpid1, O.tpid2, O.tpid3].map s.parserObject
    vxlan := s.parserObject O.vxlanPort, geneve := s.parserObject O.genevePort, tunnel := s.parserObject O.tunnelEnable
    csum := s.parserObject O.checkIpv4Csum == 1, byNibble := s.parserObject O.mplsPayload == 1 }

/-! ### Match chain (R200 to R206) -/

/-- A key fragment (R201). -/
def fragment (f : Nat) (md : BitVec 512) (frame : List Byte) (depth : Nat) : Nat :=
  let len := bits f 13 6
  let off := bits f 25 14
  if f / 2 ^ 29 = 2 then md.toNat / 2 ^ off % 2 ^ len
  else
    let base := match bits f 28 26 with
      | 0 => 0
      | 1 => mdGet md 4 31 24
      | 2 => mdGet md 4 23 16
      | 3 => mdGet md 4 15 8
      | 4 => mdGet md 4 7 0
      | 5 => mdGet md 5 31 24
      | 6 => mdGet md 5 23 16
      | _ => mdGet md 5 15 8
    if base = 0xFF && bits f 28 26 ≠ 0 then 0
    else
      let v := frame.take depth
      beNat v * 2 ^ (base * 8 + off + len) / 2 ^ (8 * v.length) % 2 ^ len

/-- The key of a stage (R201). -/
def stageKey (get : Nat → Nat) (st : Nat) (md : BitVec 512) (frame : List Byte) (depth : Nat) : Nat :=
  (List.range 8).foldl (fun k j =>
    let f := get (O.keyFrag st j)
    if f / 2 ^ 29 = 0 then k else k * 2 ^ bits f 13 6 + fragment f md frame depth) 0

/-- The key width of a stage's table; none when its kind does not define the table (R206, R254, R293). -/
def State.tableWidth (s : State) (kind table : Nat) : Option Nat :=
  if kind = 5 then (if table < 16 && s.ascW table ≠ 0 then some (s.ascBits table) else none)
  else s.fwdKeyWidth kind table

/-- A chain in progress: the state, the metadata, whether it runs on the bank that a pending SWAP makes active, whether it has
ended and with which default cause (0 none). -/
structure Chain where
  s     : State
  md    : BitVec 512
  new   : Bool := false
  ended : Bool := false
  cause : Nat := 0

/-- The parity verdict of an ASSOC stage. -/
def ascBadOf (bad : List BadRead) : Bool × Bool × Bool :=
  match bad.find? fun b => b.tid == 9 with
  | some b => (true, b.tagBad, b.prioBad)
  | none => (false, false, false)

/-- One stage of the chain of a direction (0 ingress, 16 egress) in a slice (0 to 7) (R200 to R203). -/
def Chain.stage (dir slice : Nat) (frame : List Byte) (depth : Nat) (bad : List BadRead) (c : Chain) (i : Nat) : Chain :=
  let st := dir + i
  let get := if c.new then c.s.rd else c.s.stageObj
  let kind := get (O.stageKind st)
  let table := get (O.stageTable st)
  let w6 := mdGet c.md 6 31 0
  if c.ended || kind = 0 || (w6 &&& get (O.stageCondMask st)) != get (O.stageCondValue st) then c
  else
    let key := stageKey get st c.md frame depth
    let width := (c.s.tableWidth kind table).getD 0
    let mine := bad.filter fun b => b.stage == some i
    let r : State × Option Nat :=
      if kind = 5 then
        let v := ascBadOf mine
        let x := c.s.ascSearch table (slice % c.s.rd (O.ascReplicas table)) key v.1 v.2.1 v.2.2
          { master := 0x40 + (if dir = 0 then slice else 8 + slice), tc := some (tcOf c.md) }
        (x.1, x.2.map fun y => ascResult y.1 y.2.tag)
      else c.s.fwdLook mine kind table (if dir = 0 then slice else 8 + slice) (inSubportOf c.md) width key
    match r.2 with
    | some v =>
      let md := mdPut c.md (get (O.resultPos st)) (get (O.resultWidth st)) v
      let md := mdPut md (96 + i) 1 1
      { s := r.1.inc (O.stageHits st), md := md, new := c.new, ended := get (O.hitAction st) == 1, cause := 0 }
    | none =>
      let miss := get (O.missAction st)
      { s := r.1.inc (O.stageMisses st), md := c.md, new := c.new, ended := miss != 0, cause := if miss = 1 then 2 else 0 }

/-- Do packets that enter a parser now use the bank that a pending SWAP makes active (R206)? -/
def State.swapped (s : State) : Bool :=
  match s.pk.swapAt with
  | some t => decide (t + 4 ≤ s.pipe)
  | none => false

/-- The bank that such packets use (R205). -/
def State.bankNow (s : State) : Nat := if s.swapped then 1 - s.rd O.chainActiveBank else s.rd O.chainActiveBank

/-- Run the chain of a direction (R203): the state, the metadata and the cause of a default action. -/
def State.runChain (s : State) (dir slice : Nat) (md : BitVec 512) (frame : List Byte) (depth : Nat) (bad : List BadRead) :
    State × BitVec 512 × Nat :=
  if mdGet md 1 7 0 ≠ 0 then (s, md, 1)
  else
    let c := (List.range 12).foldl (Chain.stage dir slice frame depth bad) { s := s, md := md, new := s.swapped }
    (c.s, c.md, if c.cause ≠ 0 then c.cause else if profileOf c.md = 0 then 3 else 0)

/-! ### Default actions (R207, R208) -/

/-- MY_DEVICE as the 16-bit identifier of a packet (R389). -/
def State.myDevice (s : State) : Nat := s.fab.me

/-- The ingress default action of a port (R207). -/
def State.defaultIngress (s : State) (slice port cause : Nat) (md : BitVec 512) : State × BitVec 512 :=
  let md := mdSet md 12 23 20 cause
  let s := s.inc (O.defaulted slice)
  let s := if cause = 1 then (s.inc (O.parseFails port)).wr (O.lastParseStatus port) (mdGet md 1 7 0) else s.inc (O.noMatch port)
  match s.rd (O.defaultAction port) with
  | 0 => (s.inc (O.defaultDrops port), mdSet md 9 1 1 1)
  | 1 => (s, mdSets md [(8, 31, 12, s.rd (O.defaultQueue port)), (9, 31, 16, s.myDevice), (8, 2, 0, 0), (9, 3, 1, 0), (12, 31, 24, 0)])
  | _ => (s, mdSet (mdSet md 9 1 1 0) 12 31 24 (s.rd (O.defaultTrap port)))

/-- The egress default action of a port (R208). -/
def State.defaultEgress (s : State) (slice port cause : Nat) (md : BitVec 512) : State × BitVec 512 :=
  let md := mdSet md 12 23 20 cause
  let s := s.inc (O.defaulted slice)
  match s.rd (O.egDefaultAction port) with
  | 0 => (s.inc (O.defaultDrops port), mdSet md 9 1 1 1)
  | 1 => (s, mdSet (mdSet md 9 1 1 0) 12 31 24 0)
  | _ => (s, mdSet (mdSet md 9 1 1 0) 12 31 24 (s.rd (O.defaultTrap port)))

end Sys2Proof.Machine
end

