-- ==== Sys2Proof/Machine/Parse.lean ====
section
/-!
DEFINITION. The slices (chapter 07): MAC receive, slice input, dispatch, reorder, the trap path, the chain commands, injection, the
egress slice input and MAC transmit (R147, R156).
-/

namespace Sys2Proof.Machine

/-- Change PARSE's and ENG's own state. -/
def State.upk (s : State) (f : PacketSt → PacketSt) : State := { s with pk := f s.pk }

/-! ### Packet stores (R192, R193) -/

/-- Lengths of the frames of an ingress slice that wait for the parser. -/
def State.rawOf (s : State) (t : Nat) : List RawPkt := mget s.pk.raw [] t

/-- Packets of a slice (0 to 7 ingress, 8 to 15 egress) past the parser. -/
def State.sliceOf (s : State) (t : Nat) : List Pkt :=
  mget s.pk.dispatch [] t
    ++ (s.pk.passes.filter fun p => p.pkt.slice == t).map (fun p => p.pkt)
    ++ (s.pk.reorder.map fun e => (e.2.waiting.filter fun w => w.pkt.slice == t).map fun w => w.pkt).flatten

/-- Packets and bytes in a slice's share of its pair's store. -/
def State.held (s : State) (t : Nat) : Nat × Nat :=
  let a := s.rawOf t
  let b := s.sliceOf t
  (a.length + b.length, (a.map fun r => r.frame.length).sum + (b.map fun p => p.frame.length).sum)

/-- Does the store of a slice's pair lack room for a frame (R192)? Log entry 48 (DEDUCED). -/
def State.storeFull (s : State) (t len : Nat) : Bool :=
  let a := s.held (t / 2 * 2)
  let b := s.held (t / 2 * 2 + 1)
  decide (a.1 + b.1 ≥ 16384) || decide (a.2 + b.2 + len > 8388608)

/-! ### Slice input (R191, R198, R210) -/

/-- A packet joins its slice's dispatch queue, live in the current epoch (R209, R268). -/
def State.queuePkt (s : State) (t : Nat) (p : Pkt) : State :=
  s.upk fun x => { x with nextId := x.nextId + 1, dispatch := mupd x.dispatch [] t fun l => l ++ [p] }

/-- Does a slice's chain take a frame: its dispatch queue of 512 packets has room, and no stage waits for a search (R210, R296)? -/
def State.dispatchRoom (s : State) (t : Nat) : Bool := decide ((mget s.pk.dispatch [] t).length < 512) && !s.chainHeld t

/-- The parser and the ingress chain take a frame (R194 to R203, R207). -/
def State.parseIngress (s : State) (t : Nat) (r : RawPkt) (bad : List BadRead) : State :=
  let s := s.inc (O.slicePackets t)
  let env := s.parseEnv r.port r.frame
  let md := mdParsed (mdSet r.md 0 11 11 s.bankNow) r.frame env.parse
  let c := s.runChain 0 t md r.frame env.depth bad
  let d := if c.2.2 = 0 then (c.1, c.2.1) else c.1.defaultIngress t r.port c.2.2 c.2.1
  d.1.queuePkt t { id := s.pk.nextId, md := d.2, frame := r.frame, slice := t, port := r.port, seq := r.seq,
                   stamp := s.fwd.epoch, byDefault := c.2.2 != 0 }

/-- The place of the next frame of an ingress port in its order, and its PORT_SEQ. -/
def State.takeSeqIn (s : State) (p : Nat) : Nat × Nat × State :=
  let n := mget s.pk.seqIn 0 p
  (n, (n - mget s.pk.baseIn 0 p) % 2 ^ 24, s.upk fun x => { x with seqIn := mset x.seqIn 0 p (n + 1) })

/-- A frame enters a slice: PORT_SEQ, timestamp and input metadata (R198), then the parser when the dispatch queue has room (R210). -/
def State.sliceInput (s : State) (t port subport : Nat) (host : Bool) (tod : Nat) (frame : List Byte) (bad : List BadRead) : State :=
  let q := s.takeSeqIn port
  let md := mdSets 0 [(0, 31, 25, port), (0, 24, 16, subport), (0, 15, 13, t), (0, 12, 12, b2n host), (1, 31, 8, q.2.1),
    (2, 31, 0, tod / todSec), (3, 31, 0, tod / todNs % 1000000000)]
  let r : RawPkt := { md := md, frame := frame, port := port, seq := q.1 }
  let s := q.2.2
  if s.dispatchRoom t && (s.rawOf t).isEmpty then s.parseIngress t r bad
  else s.upk fun x => { x with raw := mupd x.raw [] t fun l => l ++ [r] }

/-- Bytes of a port that wait for the parser in a slice. -/
def State.rawBytes (s : State) (t p : Nat) : Nat :=
  (((s.rawOf t).filter fun r => r.port == p).map fun r => r.frame.length).sum

/-- The slice that takes a frame of a port (R15, R16): for a straddling port the one with fewer of its bytes waiting, the lower on a
tie, and the other while the Evrad channel of one is out. -/
def State.steer (s : State) (p : Nat) : Nat :=
  match s.slicesOf p with
  | [a, b] =>
    let ua := s.rd (O.evradState a) == 1
    let ub := s.rd (O.evradState b) == 1
    if ua && !ub then a else if ub && !ua then b else if s.rawBytes b p < s.rawBytes a p then b else a
  | a :: _ => a
  | [] => 0

/-- A receive timestamp with a correction in picoseconds (R155). -/
def State.stampIn (s : State) (ps : Int) : Nat := (((s.line.tod : Int) + ps * 1000000000) % todWrap).toNat

/-! ### MAC receive (R147, R150, R155, R193, R409) -/

/-- The MAC delivers a good frame to its slice (R193). -/
def State.deliverFrame (s : State) (p subport : Nat) (frame : List Byte) (bad : List BadRead) : State :=
  let t := s.steer p
  if !s.running .parse || s.storeFull t frame.length then (s.inc (O.rxOverrun p)).inc (O.storeFullDrops t)
  else
    let s := (s.inc (O.rxFrames p)).add (O.rxBytes p) (frame.length + 4)
    s.sliceInput t p subport false (s.stampIn (s.rdS (O.tsIngressCorr p))) frame bad

/-- A frame that a MAC receives, without its FCS. In DETECT_ONLY a frame that met a symbol error fails its FCS (R149). The manual does not say
how a frame counts that fails its FCS and is also too short or too long: RX_FCS_ERRORS only. Log entry 43 (DESIGN CHOICE). -/
def State.receive (s : State) (p subport : Nat) (frame : List Byte) (fcsGood symbolError : Bool) (bad : List BadRead) : State :=
  let len := frame.length + 4
  if !fcsGood || (symbolError && s.rd (O.fecMode p) == 1) then s.inc (O.rxFcsErrors p)
  else if len < 64 then s.inc (O.rxUndersize p)
  else if len > s.rd (O.maxFrame p) then s.inc (O.rxOversize p)
  else if s.rd (O.protRole p) = 1 then s.inc (O.stbyRxFrames p)
  else if s.rd (O.loopback p) = 2 then (s.inc (O.rxFrames p)).add (O.rxBytes p) len
  else s.deliverFrame p subport frame bad

/-- Does a client deliver frames: a receive slot of its port's group names it, and no defect of the group stops it (R175, R178)? -/
def State.clientFrames (s : State) (p q : Nat) : Bool :=
  s.subportPort q == some p && s.running .otn && match s.groupOfClient q with
    | some g => s.groupPort g == p && !s.grpAis g
    | none => false

/-- The meaning of FRAME_RECEIVED: an UP port of a running LINE receives a frame, for an OTN client with its sub-port (R147, R178). A
client frame counts as overrun while LINE is not RUNNING (R187), and passes under OOF and OOM alone, while the port reads ALIGNING (R175). A port in NEAR_PCS receives what it sends, and nothing from the far end (R150). -/
def execFrameReceived (port : Fin 96) (client : Option (Fin 512)) (frame : List Byte) (check : FrameCheck) (bad : List BadRead)
    (s : State) : Host.Outcome State Fault Refusal :=
  let p := port.val
  let sub := (client.map fun q => q.val).getD p
  if s.isOtn p then
    (if !s.running .line then done (if s.running .otn then s.inc (O.rxOverrun p) else s)
     else if client.isSome && s.clientFrames p sub && s.rd (O.loopback p) != 1 && (s.rd (O.portLinkState p) == 3 || s.otnLifts p) then
       done (s.receive p sub frame check.fcsGood check.symbolError bad)
     else done s)
  else if client.isNone && s.running .line && s.rd (O.portLinkState p) == 3 && s.rd (O.loopback p) != 1 then
    done (s.receive p p frame check.fcsGood check.symbolError bad)
  else done s

/-! ### Dispatch (R209, R210, R225) -/

/-- Passes that a cluster holds. -/
def State.clusterPasses (s : State) (c : Nat) : List Pass := s.pk.passes.filter fun p => p.cluster == c

/-- Can a cluster take a packet (R209, R225)? -/
def State.clusterFree (s : State) (c : Nat) : Bool :=
  s.rd (O.clusterState c) == 1 && decide ((s.clusterPasses c).length < 64)

/-- The cluster that a dispatcher's next packet goes to: the first from its turn on that can take it (R209). Log entry 48 (DEDUCED). -/
def State.nextCluster (s : State) (t : Nat) : Option Nat :=
  ((List.range 48).map fun i => (mget s.pk.nextClu (3 * t % 48) t + i) % 48).find? fun c => s.clusterFree c

/-- Packets that a cluster has accepted in the present PIPE cycle (R209). -/
def State.accepted (s : State) (c : Nat) : Nat :=
  match mfind s.pk.accepts c with
  | some a => if a.1 = s.pipe then a.2 else 0
  | none => 0

/-- The dispatchers that offer to a cluster, those with priority first (R209). -/
def State.offering (s : State) (c : Nat) : List Nat :=
  ((List.range 16).map fun i => (mget s.pk.priority 0 c + i) % 16).filter fun t =>
    !(mget s.pk.dispatch [] t).isEmpty && s.nextCluster t == some c

/-- Does a cluster take the offer of a dispatcher now (R209): at most 2 packets in a PIPE cycle, of the dispatchers that have priority? The
manual does not say where the rotation starts or when it moves: at slice 0, and to the slice after the one taken.
Log entry 48 (DEDUCED and DESIGN CHOICE). -/
def State.accepts (s : State) (t c : Nat) : Bool := ((s.offering c).take (2 - s.accepted c)).contains t

/-- The engine of a cluster with the most free threads, the lowest on a tie (R225). Log entry 48 (DEDUCED). -/
def State.pickEngine (s : State) (c : Nat) : Nat :=
  let n := fun e => ((s.clusterPasses c).filter fun p => p.engine == e).length
  (List.range 8).foldl (fun best e => if n e < n best then e else best) 0

/-- The profile of a packet's pass: profile 0 for a default packet (R207). -/
def Pkt.profile (p : Pkt) : Nat := if p.byDefault then 0 else profileOf p.md

/-- Highest number of busy threads of a cluster. -/
def State.threadPeak (s : State) (c : Nat) : State :=
  s.wr (O.threadsBusyPeak c) (max (s.rd (O.threadsBusyPeak c)) (s.clusterPasses c).length)

/-- The head of a dispatch queue goes to a thread. -/
def State.dispatchTo (s : State) (t c : Nat) (p : Pkt) (rest : List Pkt) : State :=
  let prof := mget s.pk.profiles {} p.profile
  let entry := if p.profile = 0 then [] else prof.entry
  let pass : Pass := {
    pkt := p, cluster := c, engine := s.pickEngine c, bank := s.rd (O.clusterBank c), entry := entry, gen := prof.gen, start := s.pipe }
  (s.upk fun x => { x with
    dispatch := mset x.dispatch [] t rest, passes := x.passes ++ [pass]
    nextClu := mput x.nextClu t ((c + 1) % 48)
    accepts := mput x.accepts c (s.pipe, s.accepted c + 1), priority := mput x.priority c ((t + 1) % 16) }).threadPeak c

/-- A frame that waits at a slice input reaches the parser when the chain takes frames again (R210). -/
def State.parseWaiting (s : State) (t : Nat) (bad : List BadRead) : State :=
  match s.rawOf t with
  | r :: rest => if s.dispatchRoom t then (s.upk fun x => { x with raw := mset x.raw [] t rest }).parseIngress t r bad else s
  | [] => s

/-- A PIPE cycle of the ingress slices: each takes one of the frames that wait (R191, R210). Log entry 2 (DESIGN CHOICE). -/
def State.chainTick (s : State) : State := s.pk.raw.foldl (fun s e => s.parseWaiting e.1 []) s

/-- The meaning of DISPATCH: the head of a dispatch queue is handed to a thread; ENG takes none while it is not RUNNING. `bad` are the
bad reads of the chain of a frame that reaches the parser in its place. Log entry 48 (DEDUCED). -/
def execDispatch (slice : Fin 16) (bad : List BadRead) (s : State) : Host.Outcome State Fault Refusal :=
  let t := slice.val
  if !s.running .eng then done s
  else match mget s.pk.dispatch [] t, s.nextCluster t with
    | p :: rest, some c => if s.accepts t c then done ((s.dispatchTo t c p rest).parseWaiting t bad) else done s
    | _, _ => done s

/-- DISPATCH_STALLS of one PIPE cycle: a packet waits at the head of a queue and no cluster can take it (R210). -/
def State.stallTick (s : State) : State :=
  s.pk.dispatch.foldl (fun s e => if e.2.isEmpty || (s.running .eng && (s.nextCluster e.1).isSome) then s
    else s.inc (O.dispatchStalls e.1)) s

/-! ### Reorder (R211 to R214) -/

/-- The reorder stage of a slice: pairs 0 to 3 on ingress, 4 to 7 on egress. -/
def stageOf (slice : Nat) : Nat := slice / 2

/-- The key of a port in a stage. -/
def reorderKey (stage port : Nat) : Nat := stage * 128 + port

/-- Order of a port in a stage. -/
def State.order (s : State) (k : Nat) : Reorder := mget s.pk.reorder {} k

/-- Change the order of a port in a stage. -/
def State.updOrder (s : State) (k : Nat) (f : Reorder → Reorder) : State :=
  s.upk fun x => { x with reorder := mupd x.reorder {} k f }

/-- Pass the places that have been given up. -/
def Reorder.advance (r : Reorder) : Nat → Reorder
  | 0 => r
  | n + 1 =>
    if r.gone.contains r.expected then
      Reorder.advance { r with expected := r.expected + 1, gone := r.gone.filter (· ≠ r.expected) } n
    else r

/-- Count the packets that wait in a stage (R214). -/
def State.countWaiting (s : State) (stage : Nat) : State :=
  let n := ((List.range 96).map fun p => (s.order (reorderKey stage p)).waiting.length).sum
  let s := s.wr (O.reorderOccupancy stage) (min n 65535)
  s.wr (O.reorderPeak stage) (max (s.rd (O.reorderPeak stage)) (min n 65535))

/-- A place in a port's order is given up: its packet was dropped or lost (R211). -/
def State.giveUp (s : State) (stage port seq : Nat) : State :=
  s.updOrder (reorderKey stage port) fun r =>
    if seq < r.expected then r else { r with gone := seq :: r.gone }.advance (r.gone.length + 1)

/-- An egress packet leaves without being sent: its bytes are no longer in flight (R366). -/
def State.leaveEgress (s : State) (p : Pkt) : State := if p.slice ≥ 8 then s.leavePort p.port p.bytes else s

/-! ### Release (R211, R215, R216) -/

/-- A packet reaches an Evrad ingress channel; one whose channel is not UP is lost (R11). -/
def State.toChannel (s : State) (n : Nat) (md : BitVec 512) (frame : List Byte) : State :=
  if s.rd (O.evradState n) = 1 then s.upk fun x => { x with chanIn := mupd x.chanIn [] n fun l => l ++ [⟨md, frame⟩] }
  else s.inc (O.evradDrops n)

/-- Packets that an ingress channel can hold: its flow control stops a slice beyond them. Log entry 37 (DEDUCED and DESIGN CHOICE). -/
abbrev channelRoom : Nat := 64

/-- An egress packet reaches the MAC of its sub-port's port (R152, R215). -/
def State.toMac (s : State) (p : Pkt) (ts : TsAction) : State :=
  let q := egSubportOf p.md
  match s.subportPort q with
  | none => (s.inc O.subportDrops).leaveEgress p
  | some port =>
    if (s.slicesOf port).contains (p.slice - 8) then
      let f : TxFrame := { frame := p.frame, subport := q, ts := ts, rxSec := mdGet p.md 2 31 0, rxNs := mdGet p.md 3 31 0,
                           bytes := p.bytes, owner := p.port }
      s.setMac port (s.macOf port ++ [f])
    else (s.inc (O.egressMisroute p.slice)).leaveEgress p

/-- Bytes in the trap path of 4 MiB (R216). Log entry 49 (DEDUCED). -/
def State.trapBytes (s : State) : Nat := (s.pk.trap.map fun t => t.pkt.frame.length).sum

/-- A packet reaches the trap path (R216, R217). Log entry 49 (DEDUCED). -/
def State.toTrap (s : State) (p : Pkt) : State :=
  let s := (s.inc (O.trapped p.slice)).leaveEgress p
  if s.running .trap && decide (s.trapBytes + p.frame.length ≤ 4194304) then
    s.upk fun x => { x with trap := x.trap ++ [{ pkt := p, egress := decide (8 ≤ p.slice) }] }
  else s.inc (O.trapDrops (trapOf p.md))

/-- A packet is released onto its channel, to the MAC or to the trap path (R211). -/
def State.release (s : State) (w : Waiting) : State :=
  if w.trap then s.toTrap w.pkt
  else if w.pkt.slice < 8 then s.toChannel w.pkt.slice w.pkt.md w.pkt.frame
  else s.toMac w.pkt w.ts

/-- Must a FORWARD packet wait for room on its Evrad channel? -/
def State.channelFull (s : State) (w : Waiting) : Bool :=
  !w.trap && decide (w.pkt.slice < 8) && decide ((mget s.pk.chanIn [] w.pkt.slice).length ≥ channelRoom)

/-- The meaning of REORDER_RELEASE: the packet expected next, having returned, is released. Log entry 48 (DEDUCED). -/
def execReorderRelease (stage : Fin 8) (port : Fin 96) (s : State) : Host.Outcome State Fault Refusal :=
  let k := reorderKey stage.val port.val
  match (s.order k).waiting.find? fun w => w.pkt.seq == (s.order k).expected with
  | none => done s
  | some w =>
    if s.channelFull w then done s
    else
      let s := s.updOrder k fun r =>
        { r with expected := r.expected + 1, waiting := r.waiting.filter fun x => x.pkt.seq ≠ w.pkt.seq }.advance (r.gone.length + 1)
      done ((s.release w).countWaiting stage.val).drain

/-- The meaning of REORDER_TIMEOUT: the packet expected next, dispatched and not returned, is declared a straggler (R212).
Log entry 48 (DEDUCED). -/
def execReorderTimeout (stage : Fin 8) (port : Fin 96) (s : State) : Host.Outcome State Fault Refusal :=
  let k := reorderKey stage.val port.val
  let e := (s.order k).expected
  let is := fun (p : Pass) => stageOf p.pkt.slice == stage.val && p.pkt.port == port.val && p.pkt.seq == e && !p.skipped
  if s.pk.passes.any is then
    let s := s.inc (O.reorderTimeouts stage.val)
    let s := s.upk fun x => { x with passes := x.passes.map fun p => if is p then { p with skipped := true } else p }
    done (s.updOrder k fun r => { r with expected := r.expected + 1 }.advance (r.gone.length + 1))
  else done s

/-- The outcome of a pass reaches the reorder stage (R211, R213): `p` holds the packet as the pass leaves it. -/
def State.outcome (s : State) (p : Pass) (drop trap : Bool) (ts : TsAction) : State :=
  let k := p.pkt
  let stage := stageOf k.slice
  let s := s.upk fun x => { x with passes := x.passes.filter fun q => q.pkt.id ≠ k.id }
  if drop then
    let s := (s.inc (O.engineDrops k.slice)).leaveEgress k
    (if p.skipped then s else s.giveUp stage k.port k.seq).drain
  else if !p.skipped then
    (s.updOrder (reorderKey stage k.port) fun r => { r with waiting := r.waiting ++ [{ pkt := k, trap := trap, ts := ts }] }).countWaiting stage
  else if trap then (s.toTrap k).drain
  else if s.rd (O.stragglerPolicy k.port) = 1 then ((s.inc (O.latePassed stage)).release { pkt := k, trap := false, ts := ts }).drain
  else ((s.inc (O.lateDrops stage)).leaveEgress k).drain

/-! ### Trap path (R216 to R218) -/

/-- The 32-byte trap header. -/
def trapHeader (p : Pkt) (egress : Bool) (cut : Bool) : List Byte :=
  let md := p.md
  leBytes 2 p.frame.length ++ leBytes 1 (trapOf md) ++ leBytes 1 (b2n egress * 128 + b2n cut * 64)
    ++ leBytes 2 (if egress then egSubportOf md else inSubportOf md) ++ leBytes 1 (inPortOf md) ++ leBytes 1 (mdGet md 1 7 0)
    ++ leBytes 4 (mdGet md 2 31 0) ++ leBytes 4 (mdGet md 3 31 0) ++ leBytes 4 (queueOf md)
    ++ leBytes 2 (mdGet md 12 23 20 * 4096 + mdGet md 12 11 0) ++ leBytes 2 (profileOf md) ++ zeros 8

/-- Is a ring number of 16 to 63 an ARMED ring of a kind? -/
def State.armedKind (s : State) (r kind : Nat) : Bool :=
  decide (16 ≤ r) && decide (r ≤ 63) && s.armed (r - 16) && s.rd (O.dringKind (r - 16)) == kind

/-- The meaning of TRAP_DELIVER: the oldest packet of the trap path is delivered to its code's ring, dropped and counted, or waits for
its ring. Log entry 49 (DEDUCED). -/
def execTrapDeliver (s : State) : Host.Outcome State Fault Refusal :=
  match s.pk.trap with
  | [] => done s
  | t :: rest =>
    let c := trapOf t.pkt.md
    let next := s.upk fun x => { x with trap := rest }
    let rate := s.rd (O.trapRate c)
    let b : Bucket × Bool :=
      if rate = 0 then ({}, true) else (mget s.pk.trapRate {} c).take s.ticks rate (s.rd (O.trapBurst c))
    let next := if rate = 0 then next else next.upk fun x => { x with trapRate := mput x.trapRate c b.1 }
    if !b.2 || !s.armedKind (s.rd (O.trapRing c)) 3 then done (next.inc (O.trapDrops c))
    else
      let cut := s.rd (O.trapTruncate c)
      let body := if cut = 0 then t.pkt.frame else t.pkt.frame.take cut
      let item := trapHeader t.pkt t.egress (decide (body.length < t.pkt.frame.length)) ++ body
      let n := s.rd (O.trapRing c) - 16
      match next.deliver n item (c + inPortOf t.pkt.md * 256) with
      | (s', .sent) => done (s'.inc (O.trapPackets c))
      | (s', .noBuffer) => done s'
      | (_, .wait) => done (s.deliver n item (c + inPortOf t.pkt.md * 256)).1

/-! ### Chain banks (R205, R206) -/

/-- The configuration objects of every stage. -/
def stageKeys : List Nat := chainStages.flatMap fun st => (List.range 16).map fun j => O.stageKind st + j

/-- Does a fragment break R201? -/
def fragBad (f : Nat) : Bool :=
  let src := f / 2 ^ 29
  let len := bits f 13 6
  if src = 0 then false
  else src > 2 || f % 64 != 0 || decide (len < 1) || decide (len > 160)
    || (src == 1 && decide (bits f 25 14 > 2047))
    || (src == 2 && (bits f 28 26 != 0 || decide (bits f 25 14 > 511) || decide (bits f 25 14 + len > 512)))

/-- Does a standby stage break R200 to R203? -/
def State.stageBad (s : State) (st : Nat) : Bool :=
  let get := s.rd
  let kind := get (O.stageKind st)
  if kind = 0 then false
  else
    decide (kind > 6) || decide (get (O.missAction st) > 2) || decide (get (O.hitAction st) > 1)
      || (List.range 8).any (fun j => fragBad (get (O.keyFrag st j)))
      || decide (keyLength get st > 640)
      || s.tableWidth kind (get (O.stageTable st)) != some (keyLength get st)
      || (get (O.resultWidth st) != 0 && decide (get (O.resultPos st) + get (O.resultWidth st) > 256))
      || decide (get (O.resultWidth st) > 64)

/-- CHAIN_RESULT takes the status of a CHAIN_CMD, whatever refuses it (R206). -/
def chainRecorded (f : State → State × Status) (s : State) : State × Status :=
  let r := f s
  (r.1.wrSt O.chainResult r.2, r.2)

/-- A CHAIN_CMD: its argument is 0, and it is refused while a swap is pending (R206). -/
def cmdChain (arg : BitVec 24) (f : State → State × Status) : State → State × Status :=
  chainRecorded (noArg arg fun s => if s.pk.swapAt.isSome then (s, .busy) else f s)

/-- COPY. -/
def chainCopy (s : State) : State × Status := (stageKeys.foldl (fun s k => s.wr k (s.stageObj k)) s, .ok)

/-- CLEAR. -/
def chainClear (s : State) : State × Status := (stageKeys.foldl (fun s k => s.toDflt k) s, .ok)

/-- SWAP: the first failing stage is named, ingress stages first. -/
def chainSwap (s : State) : State × Status :=
  match chainStages.find? fun st => s.stageBad st with
  | some st => (s.wr O.chainErrorStage (if st < 16 then st else 128 + (st - 16)), .range)
  | none => ((s.upk fun x => { x with swapAt := some s.pipe }).wr O.chainSwapState 1, .ok)

/-- The meaning of CHAIN_COPY. -/
def execChainCopy (p : Path) (arg : BitVec 24) (s : State) : Host.Outcome State Fault Refusal :=
  done (access p O.chainCmd (cmdData 1 arg) (cmdChain arg chainCopy) s)

/-- The meaning of CHAIN_SWAP. -/
def execChainSwap (p : Path) (arg : BitVec 24) (s : State) : Host.Outcome State Fault Refusal :=
  done (access p O.chainCmd (cmdData 2 arg) (cmdChain arg chainSwap) s)

/-- The meaning of CHAIN_CLEAR. -/
def execChainClear (p : Path) (arg : BitVec 24) (s : State) : Host.Outcome State Fault Refusal :=
  done (access p O.chainCmd (cmdData 3 arg) (cmdChain arg chainClear) s)

/-- A pending swap completes: the banks exchange their roles. -/
def State.swapDone (s : State) : State :=
  if s.pk.swapAt.isNone then s
  else
    let act := stageKeys.map fun k => (k, s.stageObj k)
    let chain := stageKeys.foldl (fun m k => mset m (dfltOf k) k (s.rd k)) s.pk.chain
    let s := s.upk fun x => { x with chain := chain, swapAt := none }
    let s := act.foldl (fun s e => s.wr e.1 e.2) s
    ((s.wr O.chainSwapState 0).wr O.chainActiveBank (1 - s.rd O.chainActiveBank)).inc O.chainSwaps

/-- The meaning of CHAIN_SWAP_DONE. -/
def execChainSwapDone (s : State) : Host.Outcome State Fault Refusal := done s.swapDone

/-! ### Injection (R219, R220) -/

/-- The descriptor of a PACKET_FROM_HOST ring whose effect comes next, when its OPCODE is `op`. Log entry 48 (DEDUCED). -/
def State.injection (s : State) (n op : Nat) : Option Flight :=
  if s.rd (O.dringKind n) = 4 then
    match s.nextEffect n with
    | some f => if f.desc.opcode = op then some f else none
    | none => none
  else none

/-- Status of an injection before its frame is taken. -/
def State.injectCheck (s : State) (f : Flight) (argOk : Bool) : Status :=
  if !s.running .parse then .functionDisabled
  else if f.desc.bufLength < 60 || f.desc.bufLength > 10236 || !argOk then .range
  else .ok

/-- The meaning of INJECT_PORT. -/
def execInjectPort (r : Fin 48) (bad : List BadRead) (s : State) : Host.Outcome State Fault Refusal :=
  let n := r.val
  match s.injection n 1 with
  | none => done s
  | some f =>
    let p := f.desc.arg
    match s.injectCheck f (decide (p < 96) && s.portExists p) with
    | .ok =>
      let t := (s.slicesOf p).headD 0
      if s.storeFull t f.desc.bufLength then done s
      else
        let s := (s.sliceInput t p p true s.line.tod (f.data.take f.desc.bufLength) bad).inc (O.hostInjected t)
        done (s.tookEffect n f.slot .ok f.desc.bufLength 0)
    | st => done (s.tookEffect n f.slot st f.desc.bufLength 0)

/-- The meaning of INJECT_QUEUE. -/
def execInjectQueue (r : Fin 48) (s : State) : Host.Outcome State Fault Refusal :=
  let n := r.val
  match s.injection n 2 with
  | none => done s
  | some f =>
    let a := f.desc.arg
    match s.injectCheck f (decide (a < 2 ^ 41)) with
    | .ok =>
      let t := s.rd (O.dringTarget n) % 8
      if (mget s.pk.chanIn [] t).length ≥ channelRoom then done s
      else
        let md := mdSets 0 [(8, 31, 12, bits a 19 0), (9, 31, 16, bits a 35 20), (8, 2, 0, bits a 38 36), (9, 3, 2, bits a 40 39)]
        let s := (s.toChannel t md (f.data.take f.desc.bufLength)).inc (O.hostInjected t)
        done (s.tookEffect n f.slot .ok f.desc.bufLength 0)
    | st => done (s.tookEffect n f.slot st f.desc.bufLength 0)

/-! ### Egress slice input (R215, R332) -/

/-- Bits [hi:lo] of a word of 32 bits of the system header, by its first byte. -/
def hdrGet (h : BitVec 256) (byte hi lo : Nat) : Nat := bits h.toNat (224 - 8 * byte + hi) (224 - 8 * byte + lo)

/-- Replace such a field. -/
def hdrSet (h : BitVec 256) (byte hi lo v : Nat) : BitVec 256 :=
  let o := 224 - 8 * byte + lo
  let w := hi + 1 - lo
  BitVec.ofNat 256 (h.toNat - h.toNat / 2 ^ o % 2 ^ w * 2 ^ o + v % 2 ^ w * 2 ^ o)

/-- The metadata that an egress slice fills from the system header. -/
def mdOfHdr (h : BitVec 256) : BitVec 512 :=
  mdSets 0 [(0, 31, 0, hdrGet h 0 31 0), (1, 31, 0, hdrGet h 4 31 0), (2, 31, 0, hdrGet h 8 31 0), (3, 31, 0, hdrGet h 12 31 0),
    (8, 31, 0, hdrGet h 16 31 0), (9, 15, 4, hdrGet h 20 15 4), (9, 3, 2, hdrGet h 20 3 2)]

/-- A one's complement checksum after a change of some words from sum `a` to sum `b`. Log entry 44 (DEDUCED and PRESUMED). -/
def csumUpdate (hc a b : Nat) : Nat := 65535 - fold16 (65535 - hc + (65535 - fold16 a) + fold16 b)

/-- Write 0b11 into the ECN field of an IPv4 or IPv6 header at `o` (R332). -/
def markCe (frame : List Byte) (l3 o : Nat) : List Byte :=
  if l3 = 1 then
    let w := be frame o 2
    if w % 4 = 1 || w % 4 = 2 then
      let v := w / 4 * 4 + 3
      splice (splice frame o (beBytes 2 v)) (o + 10) (beBytes 2 (csumUpdate (be frame (o + 10) 2) w v))
    else frame
  else if l3 = 2 then
    let w := be frame o 2
    let e := w / 16 % 4
    if e = 1 || e = 2 then splice frame o (beBytes 2 (w - e * 16 + 48)) else frame
  else frame

/-- The parser, CE mark and egress chain take a packet from an Evrad egress channel (R208, R215, R332). -/
def State.parseEgress (s : State) (n : Nat) (p : EgPkt) (bad : List BadRead) : State :=
  let t := 8 + n
  let s := s.inc (O.slicePackets t)
  let md := mdSet (mdOfHdr p.hdr) 0 11 11 s.bankNow
  let env := s.parseEnv p.port p.frame
  let parsed := env.parse
  let md := mdParsed md p.frame parsed
  let frame := if hdrGet p.hdr 20 0 0 = 1 then markCe p.frame parsed.l3 parsed.l3Off else p.frame
  let c := s.runChain 16 n md frame env.depth bad
  let d := if c.2.2 = 0 then (c.1, c.2.1) else c.1.defaultEgress t p.port c.2.2 c.2.1
  d.1.queuePkt t { id := s.pk.nextId, md := d.2, frame := frame, slice := t, port := p.port, seq := p.seq, stamp := s.fwd.epoch,
                   byDefault := c.2.2 != 0, bytes := p.frame.length + 4 }

/-- The meaning of EGRESS_SLICE_INPUT: a running PARSE takes the head of Evrad channel 8 + s while its store and dispatch queue have
room (R193, R210, R221). -/
def execEgressSliceInput (n : Fin 8) (bad : List BadRead) (s : State) : Host.Outcome State Fault Refusal :=
  let i := n.val
  match mget s.pk.chanEg [] i with
  | [] => done s
  | p :: rest =>
    if !s.running .parse || s.storeFull (8 + i) p.frame.length || !s.dispatchRoom (8 + i) then done s
    else done (((s.upk fun x => { x with chanEg := mset x.chanEg [] i rest }).carried (8 + i)).parseEgress i p bad)

/-! ### MAC transmit (R147, R150, R152, R156, R178, R409) -/

/-- The offset of the UDP header that a change at offset `o` concerns, or none. The MAC sees the whole frame, whatever PARSE_DEPTH says
(R156, R195). -/
def State.udpAt (s : State) (port : Nat) (frame : List Byte) (o : Nat) : Option Nat :=
  let p := ({ s.parseEnv port frame with depth := frame.length } : ParseEnv).parse
  if p.il4 = 2 && p.il4Off ≤ o then some p.il4Off else if p.l4 = 2 && p.l4Off ≤ o then some p.l4Off else none

/-- A frame after new bytes at offset `o`, with its UDP checksum updated; a checksum of 0 stays (R156). Log entry 44 (DEDUCED and PRESUMED). -/
def State.editTs (s : State) (port : Nat) (frame : List Byte) (o : Nat) (d : List Byte) : List Byte :=
  let new := (splice frame o d).take frame.length
  match s.udpAt port frame o with
  | none => new
  | some u =>
    let hc := be frame (u + 6) 2
    if hc = 0 then new
    else
      let v := csumUpdate hc (onesSum (frame.drop u)) (onesSum (new.drop u))
      splice new (u + 6) (beBytes 2 (if v = 0 then 65535 else v))

/-- The transmit time of a port (R155). -/
def State.stampOut (s : State) (p : Nat) : Nat := s.stampIn (s.rdS (O.tsEgressCorr p))

/-- A 48-bit receive time in seconds whose low-order 32 bits are given, nearest below or at the transmit time.
Log entry 44 (DEDUCED and PRESUMED). -/
def fullSeconds (tx low : Nat) : Nat :=
  let c := tx / 2 ^ 32 * 2 ^ 32 + low
  if c ≤ tx + 2 ^ 31 || c < 2 ^ 32 then c else c - 2 ^ 32

/-- The timestamp action of a frame: the frame sent, and the report of a two-step capture (R156). The manual gives no rounding of the transmit
minus the receive time to units of 2^-16 ns: towards minus infinity. Log entry 44 (DESIGN CHOICE). -/
def State.stampFrame (s : State) (p : Nat) (f : TxFrame) : State × List Byte :=
  let t := s.stampOut p
  match f.ts.action with
  | 1 => (s, s.editTs p f.frame f.ts.offset (beBytes 6 (t / todSec) ++ beBytes 4 (t / todNs % 1000000000)))
  | 2 =>
    let rx := fullSeconds (t / todSec) f.rxSec * todSec + f.rxNs * todNs
    let d : Int := ((t : Int) - rx) * 65536 / todNs
    let c : Int := (be f.frame f.ts.offset 8 : Int) + d
    (s, s.editTs p f.frame f.ts.offset (beBytes 8 (c % 18446744073709551616).toNat))
  | 3 =>
    if ((s.ring 4).waiting.filter fun r => r.type == 0x0405).length ≥ 64 then (s.inc O.tsCaptureDrops, f.frame)
    else (s.raise 4 0x0405 0x04 INFO (p * 2 ^ 24 + f.ts.tag) (t / todNs % 1000000000) (t / todSec % 4294967296), f.frame)
  | _ => (s, f.frame)

/-- The frame that a MAC takes next, and those that stay: the oldest, but on an OTN port of an OTN that is STOPPING only a frame that its client's
mapper is sending (R186). -/
def State.nextTx (s : State) (p : Nat) : Option (TxFrame × List TxFrame) :=
  if s.isOtn p && s.fnState .otn == STOPPING then
    match (s.macOf p).find? fun f => s.otn.sending.contains f.subport with
    | some f => some (f, (s.macOf p).erase f)
    | none => none
  else match s.macOf p with
    | f :: rest => some (f, rest)
    | [] => none

/-- The meaning of FRAME_TRANSMIT: the MAC takes the first frame released to it, and sends it, loops it back, or discards it.
Log entry 43 (DEDUCED and DESIGN CHOICE). -/
def execFrameTransmit (port : Fin 96) (s : State) : Host.Outcome State Fault Refusal :=
  let p := port.val
  match s.nextTx p with
  | none => done s
  | some (f, rest) =>
    let mapped := s.clientMapped f.subport || s.otn.sending.contains f.subport
    let s := ((s.setMac p rest).leavePort f.owner f.bytes).mapperDone f.subport
    if s.rd (O.protRole p) = 1 || s.rd (O.protRole p) = 2 then done (s.inc (O.stbyTxDiscards p))
    else if s.rd (O.portLinkState p) ≠ 3 || s.rd (O.loopback p) = 2 || !(s.running .line || s.fnState .line == STOPPING) then
      done (s.inc (O.txDiscards p))
    else if s.isOtn p && !mapped then done (s.inc O.subportDrops)
    else
      let r := s.stampFrame p f
      let s := (r.1.inc (O.txFrames p)).add (O.txBytes p) (r.2.length + 4)
      if s.rd (O.loopback p) = 1 then done (s.receive p (if s.isOtn p then f.subport else p) r.2 true false [])
      else done (s.emit (.frame p r.2 false))

/-! ### Lifecycle (R221) -/

/-- Packets that PARSE still holds. -/
def State.parseHeld (s : State) : Nat :=
  ((List.range 8).map fun t => (s.rawOf t).length).sum
    + ((List.range 16).map fun t => (s.sliceOf t).length).sum

/-- PARSE reaches RUNNING: every PORT_SEQ restarts at 0, and the parser's settings take effect (R56, R221). -/
def State.parseUp (s : State) : State := s.upk fun x => { x with
    parser := s.objs.filter (fun e => e.1 / 256 == 0x5080), baseIn := x.seqIn, baseEg := x.seqEg }

/-- DISABLE empties both chain banks. -/
def State.parseDisable (s : State) : State := stageKeys.foldl (fun s k => s.toDflt k) (s.upk fun x => { x with chain := [] })

end Sys2Proof.Machine
end

