-- ==== Sys2Proof/Machine/Pool.lean ====
section
/-!
DEFINITION. Buffer pools (chapter 11): the layout of the region, handles and their checks, the bytes of the region, and what the host and the
engines ask of the pools.
-/

namespace Sys2Proof.Machine

/-- A record raised at most once per `gap` PCLK cycles for each `id`, whose ARG2 counts the occurrences since the last one (R353). -/
def State.raiseCounted (s : State) (id gap r type func sev a0 a1 : Nat) : State :=
  let n := mget s.host.since 0 id + 1
  let due := match mfind s.host.limits id with
    | some t => decide (t + gap ≤ s.pclk)
    | none => true
  if due then
    { s with host := { s.host with limits := mput s.host.limits id s.pclk, since := mdel s.host.since id } }.raise r type func sev a0 a1 n
  else { s with host := { s.host with since := mput s.host.since id n } }

/-! ### Buffer pools (R334 to R338) -/

/-- Buffer bytes of a pool. -/
def poolBytes (p : Nat) : Nat := [64, 128, 256, 512, 1024, 2048, 4096, 10240].getD p 0

/-- Buffers of a pool in the layout in force. -/
def State.poolTotal (s : State) (p : Nat) : Nat := s.bpm.layout.getD p 0

/-- POOL_BASE. -/
def State.poolBaseOf (s : State) (p : Nat) : Nat := ((List.range p).map fun q => s.poolTotal q * poolBytes q).sum

/-- A buffer. -/
def State.poolBuf (s : State) (p i : Nat) : PoolBuf := mget s.bpm.bufs {} (p * 65536 + i)

/-- Change a buffer. -/
def State.updPoolBuf (s : State) (p i : Nat) (f : PoolBuf → PoolBuf) : State :=
  { s with bpm := { s.bpm with bufs := mupd s.bpm.bufs {} (p * 65536 + i) f } }

/-- Allocated buffers of a pool. -/
def State.poolUsed (s : State) (p : Nat) : Nat := (s.bpm.bufs.filter fun e => e.1 / 65536 == p && e.2.used).length

/-- POOL_FREE. -/
def State.poolFreeOf (s : State) (p : Nat) : Nat := s.poolTotal p - s.poolUsed p

/-- The handle of a buffer in its current generation (R336). -/
def State.handleOf (s : State) (p i : Nat) : Nat :=
  (s.poolBuf p i).gen * 268435456 + s.poolBaseOf p + i * poolBytes p

/-- ALLOC in a pool (R335); which free buffer it lends is open. Log entry 54 (DEDUCED and DESIGN CHOICE). -/
def State.poolAlloc (s : State) (p : Nat) : State × Option Nat :=
  if !s.running .bpm || s.poolFreeOf p = 0 then (s.inc (O.allocFails p), none)
  else
    let v := s.open_
    let s := v.2
    let n := s.poolTotal p
    match (List.range n).find? fun j => !(s.poolBuf p ((v.1.toNat + j) % n)).used with
    | none => (s.inc (O.allocFails p), none)
    | some j =>
      let i := (v.1.toNat + j) % n
      let s := s.updPoolBuf p i fun b => { gen := (b.gen + 1) % 16, used := true }
      (s.wr (O.poolLow p) (min (s.rd (O.poolLow p)) (s.poolFreeOf p)), some (s.handleOf p i))

/-- The check of a handle (R336): the kind of reject, 0 for none, and the buffer. Log entry 56 (DEDUCED). -/
def State.checkHandle (s : State) (h : Nat) (free : Bool) : Nat × Nat × Nat :=
  let o := h % 4194304
  match (List.range 8).find? fun p => decide (s.poolBaseOf p ≤ o) && decide (o < s.poolBaseOf p + s.poolTotal p * poolBytes p) with
  | none => (1, 0, 0)
  | some p =>
    let i := (o - s.poolBaseOf p) / poolBytes p
    if h / 4194304 % 64 ≠ 0 then (1, p, i)
    else if (o - s.poolBaseOf p) % poolBytes p ≠ 0 then (2, p, i)
    else
      let b := s.poolBuf p i
      if b.used && b.gen == h / 268435456 then (0, p, i)
      else if !free then (5, p, i)
      else if !b.used && b.gen == h / 268435456 then (4, p, i)
      else (3, p, i)

/-- Count a reject and report it (R336, R353): clients 0 host, 1 engine, 2 light-trap, each a source of its own. Log entry 56 (DEDUCED). -/
def State.bpmReject (s : State) (h kind client : Nat) : State :=
  let s := s.inc (O.rangeRejects - 1 + kind)
  s.raiseCounted (0x03C0 * 65536 + client) 250000 3 0x03C0 0x15 WARNING h (kind + 256 * client)

/-- FREE through a handle; the kind of reject. Log entry 56 (DEDUCED). -/
def State.poolRelease (s : State) (h client : Nat) : State × Nat :=
  match s.checkHandle h true with
  | (0, p, i) => (s.updPoolBuf p i fun b => { b with used := false }, 0)
  | (kind, _, _) => (s.bpmReject h kind client, kind)

/-- Status of a rejected handle. Log entry 56 (DEDUCED). -/
def rejectStatus (kind : Nat) : Status := if kind = 0 then .ok else if kind ≤ 2 then .range else .accessDenied

/-- The bytes of the region from an offset on. A byte that nothing has written reads 0. Log entry 54 (DESIGN CHOICE). -/
def State.poolLoad (s : State) (offset n : Nat) : List Byte := (List.range n).map fun i => mget s.bpm.mem 0 (offset + i)

/-- Bytes stored in the region from an offset on. -/
def storeBytes (m : NMap Byte) (offset : Nat) : List Byte → NMap Byte
  | [] => m
  | b :: t => storeBytes (mset m 0 offset b) (offset + 1) t

/-- The offset of a buffer in the region. -/
def State.poolOffset (s : State) (p i : Nat) : Nat := s.poolBaseOf p + i * poolBytes p

/-- A read through a handle, from a byte of the buffer on (R336): a rejected one returns zeros. The manual does not say what a read beyond the
buffer returns: zeros. Log entry 56 (DESIGN CHOICE). -/
def State.poolRead (s : State) (h offset n client : Nat) : State × Nat × List Byte :=
  match s.checkHandle h false with
  | (0, p, i) => (s, 0, fit (s.poolLoad (s.poolOffset p i + offset) (min n (poolBytes p - offset))) n)
  | (kind, _, _) => (s.bpmReject h kind client, kind, zeros n)

/-- A write through a handle, from a byte of the buffer on (R336): a rejected one is discarded, and so is what lies beyond the buffer.
Log entry 56 (DESIGN CHOICE). -/
def State.poolWrite (s : State) (h offset : Nat) (d : List Byte) (client : Nat) : State × Nat :=
  match s.checkHandle h false with
  | (0, p, i) =>
    ({ s with bpm := { s.bpm with mem := storeBytes s.bpm.mem (s.poolOffset p i + offset) (d.take (poolBytes p - offset)) } }, 0)
  | (kind, _, _) => (s.bpmReject h kind client, kind)

/-- ALLOC of `n` bytes in the smallest pool that holds them (R335). -/
def State.poolGet (s : State) (n : Nat) : State × Status × Nat :=
  if n < 1 || n > 10240 then (s, .range, 0)
  else match (List.range 8).find? fun p => decide (n ≤ poolBytes p) with
    | none => (s, .range, 0)
    | some p => match s.poolAlloc p with
      | (s, some h) => (s, .ok, h)
      | (s, none) => (s, .noResource, 0)

/-- A request of an engine (R335, R336, R352). -/
def State.engineRequest (s : State) (r : PoolRequest) : State :=
  let off := s.fnState .bpm == DISABLED
  match r with
  | .alloc n => let x := s.poolGet n; x.1.emit (.pool x.2.1 x.2.2 [])
  | .free h =>
    if off then s.emit (.pool .functionDisabled h.toNat [])
    else let x := s.poolRelease h.toNat 1; x.1.emit (.pool (rejectStatus x.2) h.toNat [])
  | .read h o n =>
    if off then s.emit (.pool .functionDisabled h.toNat (zeros n))
    else let x := s.poolRead h.toNat o n 1; x.1.emit (.pool (rejectStatus x.2.1) h.toNat x.2.2)
  | .write h o d =>
    if off then s.emit (.pool .functionDisabled h.toNat [])
    else let x := s.poolWrite h.toNat o d 1; x.1.emit (.pool (rejectStatus x.2) h.toNat [])

/-- A BPM_CMD records its status in BPM_RESULT. -/
def bpmRecorded (f : State → State × Status) (s : State) : State × Status :=
  let r := f s
  (r.1.wrSt O.bpmResult r.2, r.2)

/-- FREE and CHECK are refused while BPM is DISABLED (R352). -/
def bpmEnabled (f : State → State × Status) (s : State) : State × Status :=
  if s.fnState .bpm = DISABLED then (s, .functionDisabled) else f s

/-- BPM_CMD ALLOC: in every state but RUNNING it fails with NO_RESOURCE (R55). -/
def bpmAlloc (n : Nat) (s : State) : State × Status :=
  let r := s.poolGet n
  (if r.2.1 = .ok then r.1.wr O.bpmHandle r.2.2 else r.1, r.2.1)

/-- The meaning of BPM_ALLOC. -/
def execBpmAlloc (p : Path) (arg : BitVec 24) (s : State) : Host.Outcome State Fault Refusal :=
  done (access p O.bpmCmd (cmdData 1 arg) (bpmRecorded (bpmAlloc arg.toNat)) s)

/-- BPM_CMD FREE. -/
def bpmFree (s : State) : State × Status :=
  let r := s.poolRelease (s.rd O.bpmHandle) 0
  (r.1, rejectStatus r.2)

/-- The meaning of BPM_FREE. -/
def execBpmFree (p : Path) (arg : BitVec 24) (s : State) : Host.Outcome State Fault Refusal :=
  done (access p O.bpmCmd (cmdData 2 arg) (bpmRecorded (bpmEnabled (noArg arg bpmFree))) s)

/-- BPM_CMD CHECK: the checks of R336 for a FREE, without any change. -/
def bpmCheck (s : State) : State × Status := (s, rejectStatus (s.checkHandle (s.rd O.bpmHandle) true).1)

/-- The meaning of BPM_CHECK. -/
def execBpmCheck (p : Path) (arg : BitVec 24) (s : State) : Host.Outcome State Fault Refusal :=
  done (access p O.bpmCmd (cmdData 3 arg) (bpmRecorded (bpmEnabled (noArg arg bpmCheck))) s)

/-- The pools exceed their region (R334). -/
def State.poolsTooBig (s : State) : Bool :=
  decide (((List.range 8).map fun p => s.rd (O.poolCount p) * poolBytes p).sum > 4194304)

/-- What START of BPM checks (R352). -/
def State.bpmCheckStart (s : State) : Status :=
  if s.poolsTooBig then .range
  else if (List.range 8).any (fun p => s.rd (O.poolCount p) != s.poolTotal p) && s.bpm.bufs.any (fun e => e.2.used) then .busy
  else .ok

/-- BPM reaches RUNNING: the layout of POOL_COUNT is in force. -/
def State.bpmUp (s : State) : State :=
  let l := (List.range 8).map fun p => s.rd (O.poolCount p)
  if l = s.bpm.layout then s
  else
    let s := { s with bpm := { s.bpm with layout := l } }
    (List.range 8).foldl (fun s p => s.wr (O.poolLow p) (s.poolTotal p)) s

/-- DISABLE frees every buffer; generations keep counting (R352). -/
def State.bpmDisable (s : State) : State :=
  { s with bpm := { s.bpm with bufs := (s.bpm.bufs.map fun e => (e.1, { e.2 with used := false })).filter fun e => e.2.gen ≠ 0 } }

end Sys2Proof.Machine
end

