-- ==== Sys2Proof/Machine/Eng.lean ====
section
/-!
DEFINITION. Packet engines (chapter 08): action profiles, the end of a pass, exceptions, repairs, and the microcode banks.
-/

namespace Sys2Proof.Machine

/-! ### Catalogues (R230) -/

/-- The entry of a behaviour in a catalogue; the first entry with BEHAVIOUR 0 ends the list. -/
def Bundle.entry (b : Bundle) (behaviour : Nat) : Option Nat :=
  (((List.range 256).map fun i => b.catalogue / 2 ^ (128 * i) % 2 ^ 128).takeWhile fun e => e % 65536 != 0).find?
    fun e => e % 65536 == behaviour

/-- Show the bundles in the version and catalogue objects (R230, R248). -/
def State.showBundles (s : State) : State :=
  let v := fun (b : Option Bundle) => (b.map Bundle.version).getD 0
  let c := fun (b : Option Bundle) => (b.map Bundle.catalogue).getD 0
  let s := ((s.wr O.activeVersion (v s.pk.active)).wr O.idleVersion (v s.pk.idle)).wr O.stagedVersion (v s.pk.staged)
  ((s.wr O.activeCatalogue (c s.pk.active)).wr O.idleCatalogue (c s.pk.idle)).wr O.stagedCatalogue (c s.pk.staged)

/-! ### Action profiles (R231 to R236) -/

/-- A profile. -/
def State.profile (s : State) (n : Nat) : Profile := mget s.pk.profiles {} n

/-- Change a profile. -/
def State.updProfile (s : State) (n : Nat) (f : Profile → Profile) : State :=
  s.upk fun x => { x with profiles := mupd x.profiles {} n f }

/-- The first two conditions of R232: the behaviour is in the catalogue for the pass, and unused parameter words are zero. -/
def profileFits (b : Option Bundle) (e : List Byte) : Bool :=
  let pass := le e 2 1
  match b.bind fun b => b.entry (le e 0 2) with
  | some x =>
    le e 0 2 != 0 && (pass == 1 || pass == 2) && bit (bits x 23 16) (pass - 1)
      && (e.drop (16 + 4 * min (bits x 31 24) 12)).all fun c => c == 0
  | none => false

/-- Every condition of R232. -/
def profileGood (b : Option Bundle) (e : List Byte) : Bool :=
  profileFits b e
    && decide (le e 3 1 ≤ 3) && (le e 3 1 == 0 || le e 2 1 == 2)
    && decide (16 ≤ le e 4 2) && decide (le e 4 2 ≤ 4096) && decide (le e 6 2 ≤ 374) && le e 8 8 == 0

/-- Flip a profile to a new entry (R233); the counters count from here. Log entry 50 (DEDUCED). -/
def State.flipProfile (s : State) (n : Nat) (e : List Byte) : State :=
  s.updProfile n fun x => { entry := e, hold := true, gen := x.gen + 1 }

/-- Are profile writes closed by a LOAD or a switch (R247)? -/
def State.mcodeBusy (s : State) : Bool := s.rd O.mcodeState == 2 || s.rd O.mcodeState == 4

/-- A PROF_CMD: its argument names the profile; PROF_RESULT takes its status (R232, R235). -/
def cmdProfile (arg : BitVec 24) (f : Nat → State → State × Status) (s : State) : State × Status :=
  let r := if arg.toNat = 0 || arg.toNat ≥ 4096 then (s, Status.range) else f arg.toNat s
  (r.1.wrSt O.profResult r.2, r.2)

/-- WRITE, or CLEAR as the WRITE of an empty entry. -/
def profWrite (clear : Bool) (n : Nat) (s : State) : State × Status :=
  let e := s.rdB O.profData 64
  if s.mcodeBusy || (s.profile n).hold then (s, .busy)
  else if clear then (s.flipProfile n [], .ok)
  else if profileGood s.pk.active e then (s.flipProfile n e, .ok)
  else (s, .range)

/-- READ. -/
def profRead (n : Nat) (s : State) : State × Status :=
  let p := s.profile n
  ((((s.wrB O.profData p.entry).wr O.profPasses p.passes).wr O.profIssueCycles p.issue).wr O.profResidence p.residence, .ok)

/-- The meaning of PROFILE_WRITE. -/
def execProfileWrite (p : Path) (arg : BitVec 24) (s : State) : Host.Outcome State Fault Refusal :=
  done (access p O.profCmd (cmdData 1 arg) (cmdProfile arg (profWrite false)) s)

/-- The meaning of PROFILE_READ. -/
def execProfileRead (p : Path) (arg : BitVec 24) (s : State) : Host.Outcome State Fault Refusal :=
  done (access p O.profCmd (cmdData 2 arg) (cmdProfile arg profRead) s)

/-- The meaning of PROFILE_CLEAR. -/
def execProfileClear (p : Path) (arg : BitVec 24) (s : State) : Host.Outcome State Fault Refusal :=
  done (access p O.profCmd (cmdData 3 arg) (cmdProfile arg (profWrite true)) s)

/-- The meaning of PROFILE_HOLD_END (R233). Log entry 50 (DEDUCED). -/
def execProfileHoldEnd (profile : Fin 4096) (s : State) : Host.Outcome State Fault Refusal :=
  done (s.updProfile profile.val fun x => { x with hold := false })

/-- A record of the profile ring: number and entry. -/
def profRecord (d : List Byte) (i : Nat) : List Byte := slice d (68 * i) 68

/-- Is a record good (R236)? -/
def State.profRecordGood (s : State) (r : List Byte) : Bool :=
  let n := le r 0 2
  decide (0 < n) && decide (n < 4096) && le r 2 2 == 0 && profileGood s.pk.active (r.drop 4)

/-- Write the records from `i` on until one names a profile in its hold: the state and the record reached. -/
def State.writeProfiles (d : List Byte) : Nat → Nat → State → State × Nat
  | 0, i, s => (s, i)
  | fuel + 1, i, s =>
    let r := profRecord d i
    if (s.profile (le r 0 2)).hold then (s, i)
    else State.writeProfiles d fuel (i + 1) (s.flipProfile (le r 0 2) (r.drop 4))

/-- The meaning of PROFILE_RING_WRITE (R236, R247): every record is checked before any is written; a record whose profile is in its hold
waits. -/
def execProfileRingWrite (r : Fin 48) (s : State) : Host.Outcome State Fault Refusal :=
  let n := r.val
  if !s.isTableRing n 0x00070001 then done s
  else match s.nextEffect n with
    | none => done s
    | some x =>
      let count := x.desc.bufLength / 68
      let i := x.record
      let finish := fun (s : State) (st : Status) (res : Nat) => done (s.tookEffect n x.slot st x.desc.bufLength res)
      if x.desc.bufLength % 68 ≠ 0 then finish s .range 0
      else if s.mcodeBusy then finish s .busy 0
      else match (List.range count).find? fun j => i == 0 && !s.profRecordGood (profRecord x.data j) with
        | some j => finish s .range j
        | none =>
          if i = 0 && (List.range count).any (fun j => (s.profile (le (profRecord x.data j) 0 2)).hold) then done s
          else
            let w := State.writeProfiles x.data (count - i) i s
            if w.2 = count then finish w.1 .ok 0
            else done (w.1.resumeAt n x.slot w.2 false)

/-! ### The end of a pass (R226 to R229, R234, R237) -/

/-- Change a cluster beside its objects. -/
def State.updCluster (s : State) (c : Nat) (f : Cluster → Cluster) : State :=
  s.upk fun x => { x with clusters := mupd x.clusters {} c f }

/-- An exception on a cluster is counted and reported under the limit of R240. -/
def State.engException (s : State) (c kind profile : Nat) : State :=
  let s := (s.inc (O.excCount kind)).inc (O.clusterExceptions c)
  let x := mget s.pk.clusters {} c
  let n := x.since + 1
  let due := match x.lastRecord with
    | some t => decide (t + 250000 ≤ s.pclk)
    | none => true
  if due then
    (s.updCluster c fun y => { y with lastRecord := some s.pclk, since := 0 }).raise 3 0x0370 0x07 WARNING c
      (kind * 2 ^ 24 + profile) n
  else s.updCluster c fun y => { y with since := n }

/-- An instruction-bank parity error: the cluster leaves dispatch for repair (R241, R251). -/
def State.bankParity (s : State) (c bank : Nat) : State :=
  let out := match (mget s.pk.clusters {} c).parity with
    | some t => decide (s.pclk < t + 250000000)
    | none => false
  let s := s.updCluster c fun y => { y with parity := some s.pclk, out := y.out || out }
  let s := if s.rd (O.clusterState c) = 4 then s else s.wr (O.clusterState c) 3
  (s.raise 3 0x0371 0x07 ERROR c bank (b2n out)).protFollow

/-- Does a pass owe a PROFILE exception: its profile is empty, or not for the pass being run (R234)? -/
def Pass.misfit (p : Pass) : Bool :=
  p.pkt.profile != 0 && (p.entry.isEmpty || le p.entry 2 1 != (if p.pkt.slice < 8 then 1 else 2))

/-- Passes, issue cycles and residence are counted for the cluster, for the profile that the pass ran since its last WRITE, and for the counters
of R474 (R235, R250). -/
def State.countPass (s : State) (p : Pass) (issue residence : Nat) : State :=
  let c := p.cluster
  let o : Occurrence := { master := 0x10 + c, tc := some (tcOf p.pkt.md) }
  let s := ((s.inc (O.clusterPasses c)).add (O.issueCycles c) issue).add (O.residenceCycles c) residence
  let n := p.pkt.profile
  let s := if n ≠ 0 && !p.misfit && p.gen == (s.profile n).gen then
      s.updProfile n fun x => { x with passes := (x.passes + 1) % 2 ^ 64, issue := (x.issue + issue) % 2 ^ 64,
                                        residence := (x.residence + residence) % 2 ^ 64 }
    else s
  ((s.perfEvent false 0x0010 issue o).perfEvent false 0x0011 1 o).perfOpen false 0x0012 o

/-- A read of a table that a pass issued and that met bad parity (R284, R285). -/
def State.engineRead (half : Nat) (s : State) (b : BadRead) : State :=
  if b.stage.isSome || !s.running .fwd then s
  else match b.tid with
    | 1 => (s.look4 [b] b.key).1
    | 2 => (s.look6 [b] b.key).1
    | 3 => (s.foundBad 3 half b).parityMiss 3
    | 4 => (s.lookDest [b] half b.key).1
    | 5 | 6 | 7 | 8 => (s.lookIndex [b] b.tid b.key).1
    | _ => s

/-- A pass ends: it is counted, and its statistics pair is updated by the packet's length (R250, R481). -/
def State.passCounted (s : State) (p : Pass) (issue residence : Nat) (use : StatUse) : State :=
  (s.countPass p issue residence).statUpdate (counterOf p.pkt.md) (p.pkt.frame.length + 4) p.cluster (tcOf p.pkt.md) residence use

/-- The packet takes its outcome: counts, statistics, and the way to the reorder stage (R229, R481). -/
def State.passOut (s : State) (p : Pass) (issue residence : Nat) (drop trap : Bool) (ts : TsAction) (use : StatUse) : State :=
  (s.passCounted p issue residence use).outcome p drop trap ts

/-- A pass ends with an exception: nothing is committed, the metadata is that of acceptance, and the kind's action applies (R238). -/
def State.passException (s : State) (p : Pass) (kind issue residence : Nat) (use : StatUse) : State :=
  let s := s.engException p.cluster kind p.pkt.profile
  if s.rd (O.excAction kind) = 0 then s.passOut p issue residence true false {} use
  else
    let md := mdSet p.pkt.md 12 31 24 (s.rd (O.excTrapCode kind))
    s.passOut { p with pkt := { p.pkt with md := md } } issue residence false true {} use

/-- The exception kind of a pass, if any, from what the microcode left (R227, R228, R234, R238): the head may grow by the 128 bytes of headroom.
A pass that is past both its limits met the one of the lower code first. Log entry 50 (DEDUCED). -/
def passKind (p : Pass) (limit : Nat) (res : PassResult) (drop : Bool) (len : Nat) : Option Nat :=
  if p.misfit then some 5
  else if p.pkt.profile ≠ 0 && le p.entry 4 2 < res.issue then some 1
  else if limit < res.residence then some 2
  else if p.pkt.profile = 0 then (if res.exc = some .parity && !res.bankError then some 6 else none)
  else match res.exc with
    | some .bounds => some 3
    | some .length => some 4
    | some .parity => some 6
    | some .illegal => some 7
    | _ =>
      if res.frame.length > 128 + min 256 p.pkt.frame.length then some 3
      else if !drop && (len < 60 || len > 10236) then some 4
      else none

/-- The pass of a packet in a cluster. -/
def State.passOf (s : State) (c id : Nat) : Option Pass := s.pk.passes.find? fun p => p.cluster == c && p.pkt.id == id

/-- What the microcode of a pass did before its end: its table reads, of which `reads` met bad parity, and its requests to the pools (R237,
R284, R335). -/
def State.passWork (s : State) (p : Pass) (res : PassResult) : State :=
  let s := s.perfOpen false 0x0020 { priv := 3, master := 0x10 + p.cluster }
  res.requests.foldl State.engineRequest (res.reads.foldl (State.engineRead (p.pkt.slice % 8 / 4)) s)

/-- The meaning of PASS_END. Log entry 50 (DEDUCED). -/
def execPassEnd (cluster : Fin 48) (packet : Nat) (res : PassResult) (s : State) : Host.Outcome State Fault Refusal :=
  match s.passOf cluster.val packet with
  | none => done s
  | some p =>
    let zero := p.pkt.profile = 0
    let issue := if zero then 4 else res.issue
    let s := if zero then s else s.passWork p res
    let md := if zero then p.pkt.md else BitVec.ofNat 512 (p.pkt.md.toNat / 2 ^ 256 * 2 ^ 256 + res.words.toNat)
    let frame := if zero then p.pkt.frame else res.frame ++ p.pkt.frame.drop 256
    let drop := dropOf md
    match passKind p (s.rd O.residenceLimit) res drop frame.length with
    | some kind =>
      let issue := if kind = 1 then le p.entry 4 2 else issue
      let s := s.passException p kind issue (if kind = 2 then s.rd O.residenceLimit else res.residence) res.stat
      done (if kind = 6 && res.bankError then s.bankParity cluster.val p.bank else s)
    | none =>
      let trap := trapOf md ≠ 0
      let ts : TsAction := if zero || p.pkt.slice < 8 then {}
        else { action := le p.entry 3 1, offset := le p.entry 6 2, tag := mdGet md 15 15 0 }
      let pkt := { p.pkt with md := md, frame := if drop then p.pkt.frame else frame }
      done (s.passOut { p with pkt := pkt } issue res.residence drop (!drop && trap) ts res.stat)

/-- The meaning of CYCLE_OVERRUN: the pass has issued for CYCLE_LIMIT cycles, unless it owes a PROFILE exception. -/
def execCycleOverrun (cluster : Fin 48) (packet : Nat) (run : Overrun) (s : State) : Host.Outcome State Fault Refusal :=
  match s.passOf cluster.val packet with
  | none => done s
  | some p =>
    if p.pkt.profile = 0 || p.entry.isEmpty then done s
    else done (s.passException p (if p.misfit then 5 else 1) (le p.entry 4 2) run.cycles run.stat)

/-- The meaning of RESIDENCE_OVERRUN: the pass has been resident for RESIDENCE_LIMIT cycles, unless it owes a PROFILE exception. -/
def execResidenceOverrun (cluster : Fin 48) (packet : Nat) (run : Overrun) (s : State) : Host.Outcome State Fault Refusal :=
  match s.passOf cluster.val packet with
  | none => done s
  | some p => done (s.passException p (if p.misfit then 5 else 2) run.cycles (s.rd O.residenceLimit) run.stat)

/-! ### Microcode banks (R241 to R247) -/

/-- The next cluster's turn in a switch: one that is out of service switches at once, one under repair waits, another drains; after
cluster 47 the switch is over (R245). -/
def State.takeTurn : Nat → State → State
  | 0, s => s
  | fuel + 1, s =>
    let c := s.pk.turn
    if c ≥ 48 then
      let s := s.upk fun x => { x with active := x.idle, idle := x.active }
      let s := ((s.showBundles.inc O.mcodeSwitches).wr O.lastSwitchTime (min s.pk.switched 0xFFFFFFFF)).wr O.mcodeState 3
      (s.wrSt O.mcodeResult .ok).raise 9 0x0971 0x07 NOTICE (s.rd O.activeVersion) (s.rd O.idleVersion) (s.rd O.lastSwitchTime)
    else if s.rd (O.clusterState c) = 4 then
      State.takeTurn fuel ((s.wr (O.clusterBank c) (1 - s.rd (O.clusterBank c))).upk fun x => { x with turn := c + 1 })
    else if s.rd (O.clusterState c) = 3 then s
    else s.wr (O.clusterState c) 2

/-- Clusters change state: the count of those in service enters READY (R410). -/
def State.turnNext (s : State) : State := (State.takeTurn 49 s).protFollow

/-- The first profile that does not fit a bundle (R244, R245). -/
def State.badProfile (s : State) (b : Option Bundle) : Option Nat :=
  ((s.pk.profiles.filter fun e => !e.2.entry.isEmpty).find? fun e => !profileFits b e.2.entry).map fun e => e.1

/-- LOAD (R243). -/
def cmdLoad (s : State) : State × Status :=
  let st := s.rd O.mcodeState
  if st = 0 then (s, .functionDisabled)
  else if st = 2 || st = 4 then (s, .busy)
  else if s.pk.staged.isNone then (s, .range)
  else (((s.upk fun x => { x with idle := none }).showBundles).wr O.mcodeState 2, .ok)

/-- A LOAD fails (R244). -/
def State.loadFails (s : State) (st : Status) (arg2 : Nat) : State :=
  ((s.wr O.mcodeState 1).wrSt O.mcodeResult st).raise 9 0x0972 0x07 ERROR (s.rd O.stagedVersion) st.code arg2

/-- The meaning of LOAD. Log entry 50 (DEDUCED). -/
def execLoad (p : Path) (arg : BitVec 24) (s : State) : Host.Outcome State Fault Refusal :=
  done (access p O.mcodeCmd (cmdData 1 arg) (noArg arg cmdLoad) s)

/-- The meaning of MCODE_LOADED: the idle banks are written and read back (`badCluster` failed), and the profiles checked.
Log entry 50 (DEDUCED). -/
def execMcodeLoaded (badCluster : Option (Fin 48)) (s : State) : Host.Outcome State Fault Refusal :=
  if s.rd O.mcodeState ≠ 2 then done s
  else match badCluster with
    | some c => done (s.loadFails .integrity c.val)
    | none =>
      match s.badProfile s.pk.staged with
      | some n => done ((s.wr O.mcodeErrorProfile n).loadFails .range n)
      | none =>
        let s := ((s.upk fun x => { x with idle := x.staged, staged := none }).showBundles.wr O.mcodeState 3).wrSt O.mcodeResult .ok
        let n := ((List.range 48).filter fun c => s.rd (O.clusterState c) != 4).length
        done (s.raise 9 0x0970 0x07 NOTICE (s.rd O.idleVersion) n 0)

/-- SWITCH (R243, R245). -/
def cmdSwitch (s : State) : State × Status :=
  let st := s.rd O.mcodeState
  if st = 0 then (s, .functionDisabled)
  else if st = 1 then (s, .range)
  else if st = 2 || st = 4 then (s, .busy)
  else match s.badProfile s.pk.idle with
    | some n => (s.wr O.mcodeErrorProfile n, .range)
    | none => (((s.upk fun x => { x with turn := 0, switched := 0 }).wr O.mcodeState 4).turnNext, .ok)

/-- The meaning of SWITCH. Log entry 50 (DEDUCED). -/
def execSwitch (p : Path) (arg : BitVec 24) (s : State) : Host.Outcome State Fault Refusal :=
  done (access p O.mcodeCmd (cmdData 2 arg) (noArg arg cmdSwitch) s)

/-- A cluster makes its idle bank active, and the next takes its turn. -/
def State.switchCluster (s : State) (c elapsed : Nat) : State :=
  let s := (s.wr (O.clusterBank c) (1 - s.rd (O.clusterBank c))).wr (O.clusterState c) 1
  (s.upk fun x => { x with turn := c + 1, switched := x.switched + elapsed }).turnNext

/-- The meaning of CLUSTER_SWITCH: the cluster whose turn it is has drained. Log entry 50 (DEDUCED). -/
def execClusterSwitch (cluster : Fin 48) (elapsed : Nat) (s : State) : Host.Outcome State Fault Refusal :=
  let c := cluster.val
  if s.rd O.mcodeState = 4 && s.pk.turn = c && s.rd (O.clusterState c) = 2 && (s.clusterPasses c).isEmpty then
    done (s.switchCluster c elapsed)
  else done s

/-- ABORT (R243). -/
def cmdMcodeAbort (s : State) : State × Status :=
  let st := s.rd O.mcodeState
  if st = 4 then (s, .busy)
  else if st = 2 || st = 3 then
    (((s.upk fun x => { x with idle := none }).showBundles.wr O.mcodeState 1).wrSt O.mcodeResult .ok, .ok)
  else (s, .ok)

/-- The meaning of ABORT of the microcode. Log entry 50 (DEDUCED). -/
def execAbort (p : Path) (arg : BitVec 24) (s : State) : Host.Outcome State Fault Refusal :=
  done (access p O.mcodeCmd (cmdData 3 arg) (noArg arg cmdMcodeAbort) s)

/-- The meaning of CLUSTER_REPAIR_DONE (R241, R245): a drained cluster under repair has reloaded its bank, or goes out of service; one
whose turn has come in a switch is switched then. -/
def execClusterRepairDone (cluster : Fin 48) (s : State) : Host.Outcome State Fault Refusal :=
  let c := cluster.val
  if s.rd (O.clusterState c) = 3 && (s.clusterPasses c).isEmpty then
    let turn := s.rd O.mcodeState = 4 && s.pk.turn = c
    if (mget s.pk.clusters {} c).out then
      let s := s.wr (O.clusterState c) 4
      done (if turn then s.turnNext else s.protFollow)
    else
      let s := s.inc (O.parityRepairs c)
      done (if turn then s.wr (O.clusterState c) 2 else (s.wr (O.clusterState c) 1).protFollow)
  else done s

/-! ### Lifecycle (R242, R249) -/

/-- ENG reaches RUNNING with a bundle; clusters listed failed their read-back. -/
def State.engUp (s : State) (b : Bundle) (bad : List Nat) : State :=
  let s := s.upk fun x => { x with
    active := some b, idle := none, staged := none, clusters := x.clusters.map fun e => (e.1, { e.2 with parity := none, out := false }) }
  let s := (List.range 48).foldl (fun s c => (s.wr (O.clusterBank c) 0).wr (O.clusterState c) (if bad.contains c then 4 else 1)) s
  (s.showBundles.wr O.mcodeState 1).protFollow

/-- ENG reaches STOPPED: banks and bundle store are emptied. -/
def State.engStopped (s : State) : State :=
  let s := s.upk fun x => { x with active := none, idle := none, staged := none }
  let s := (List.range 48).foldl (fun s c => (s.wr (O.clusterBank c) 0).wr (O.clusterState c) 0) s
  (s.showBundles.wr O.mcodeState 0).protFollow

/-- A pass that a forced stop ends is counted as any other, with its length before it: its issue cycles and residence so far, within its limits,
and what its statistics update meets are open (R250, R481). -/
def State.cutPass (s : State) (p : Pass) : State :=
  let v := s.open_
  let w := v.2.open_
  let h := w.2.open_
  let u := h.2.openPair
  let limit := if p.pkt.profile = 0 then 4 else le p.entry 4 2
  u.2.passCounted p (v.1.toNat % (limit + 1)) (w.1.toNat % (s.rd O.residenceLimit + 1)) { read := u.1, held := h.1.toNat }

/-- A pass that a forced stop of ENG ends, with outcome DROP (R249). -/
def State.forcePass (s : State) (p : Pass) : State := (s.cutPass p).outcome p true false {}

/-- A forced stop of PARSE discards the packets that remain, in passes too (R57, R221); their places in the order are given up. -/
def State.parseForced (s : State) : State :=
  let n := s.parseHeld
  let s := s.pk.passes.foldl State.cutPass s
  let seqs := (List.range 8).flatMap fun t => (s.rawOf t).map fun r => (t / 2, r.port, r.seq)
  let pkts := (List.range 16).flatMap fun t => s.sliceOf t
  let s := s.upk fun x => { x with raw := [], dispatch := [], passes := [], reorder := x.reorder.map fun e => (e.1, { e.2 with waiting := [] }) }
  let s := pkts.foldl (fun s p => (s.leaveEgress p).giveUp (stageOf p.slice) p.port p.seq) s
  let s := seqs.foldl (fun s x => s.giveUp x.1 x.2.1 x.2.2) s
  let s := (List.range 8).foldl State.countWaiting s
  (s.add (O.stopDiscards Fn.parse.code) n).drain

/-- A switch in progress completes, since every cluster has drained; how long the rest of it takes is open (R245, R249). -/
def State.finishSwitch (s : State) : State :=
  if s.rd O.mcodeState ≠ 4 then s
  else
    let s := (List.range 48).foldl (fun s c =>
      if c < s.pk.turn then s
      else
        let st := s.rd (O.clusterState c)
        let s := s.wr (O.clusterBank c) (1 - s.rd (O.clusterBank c))
        if st = 4 then s
        else if st = 3 then (if (mget s.pk.clusters {} c).out then s.wr (O.clusterState c) 4 else (s.inc (O.parityRepairs c)).wr (O.clusterState c) 1)
        else s.wr (O.clusterState c) 1) s
    let v := s.open_
    State.takeTurn 1 (v.2.upk fun x => { x with turn := 48, switched := x.switched + v.1.toNat % 2 ^ 32 })

/-- A forced stop ends the remaining passes with outcome DROP and counts them, and a switch in progress completes. Log entry 50 (DEDUCED). -/
def State.engForced (s : State) : State :=
  let n := s.pk.passes.length
  (s.pk.passes.foldl State.forcePass s).finishSwitch.add (O.stopDiscards Fn.eng.code) n

/-- May ENG stop: no pass in hand and no switch in progress? -/
def State.engIdle (s : State) : Bool := s.pk.passes.isEmpty && s.rd O.mcodeState != 4

/-- DISABLE empties the profile table. -/
def State.engDisable (s : State) : State := s.upk fun x => { x with profiles := [] }

end Sys2Proof.Machine
end

