-- ==== Sys2Proof/Machine/Tree.lean ====
section
/-!
DEFINITION. What queues, schedulers and the core share (chapters 11 and 12): queues and their parts, the trees of nodes, what holds a
node back, shaper balances, and broken guarantees.
-/

namespace Sys2Proof.Machine

/-! ### Queues (R315 to R322) -/

/-- A queue. -/
def State.queue (s : State) (q : Nat) : Queue := mget s.buf.queues {} q

/-- Change a queue. -/
def State.updQueue (s : State) (q : Nat) (f : Queue → Queue) : State :=
  { s with buf := { s.buf with queues := mupd s.buf.queues {} q f } }

/-- Segments being written. -/
def Queue.writing (x : Queue) : Nat := (x.segs.filter fun g => g.phase == .writing).length

/-- QBUF_SEGMENTS: segments in HBM, those being read included (R316). -/
def Queue.inHbm (x : Queue) : Nat := (x.segs.filter fun g => g.phase != .writing).length

/-- Cells on chip: HEAD, TAIL, and cells whose write is not complete (R316, R319). -/
def Queue.onchip (x : Queue) : Nat := x.head + x.tail + 8 * x.writing

/-- Depth in cells (R317, R330). -/
def Queue.depth (x : Queue) : Nat := x.onchip + 8 * x.inHbm

/-- Does HEAD hold a whole packet (R322)? -/
def Queue.ready (x : Queue) : Bool :=
  match x.pkts with
  | p :: _ => decide (p.cells ≤ x.head)
  | [] => false

/-- REFILL_WAIT (R322). -/
def Queue.refillWait (x : Queue) : Bool := !x.pkts.isEmpty && !x.ready && decide (0 < x.inHbm)

/-- Cells of a packet of L bytes in a queue (R314). -/
def cellsOf (len : Nat) : Nat := (len + 32 + 255) / 256

/-- Buffer profile, congestion profile, light-trap session of a queue (R315). -/
def Queue.bufProfile (x : Queue) : Nat := bits x.attr 5 0
def Queue.congProfile (x : Queue) : Nat := bits x.attr 23 16
def Queue.session (x : Queue) : Option Nat := if bit x.attr 30 then some (bits x.attr 29 24) else none
def Queue.pinned (x : Queue) : Bool := bit x.attr 31

/-- SHARED_FREE (R313, R328, R367): what queues hold beyond their reserves, and the reserves, are not free.
Log entry 54 (DEDUCED and DESIGN CHOICE). -/
def State.sharedFree (s : State) : Nat :=
  374784 - (s.buf.queues.map fun e => max e.2.onchip e.2.reserve).sum

/-- RESERVED_CELLS (R367). Log entry 60 (DEDUCED). -/
def State.reserved (s : State) : Nat := (s.buf.queues.map fun e => e.2.reserve).sum

/-! ### Trees (R356 to R358) -/

/-- Key of a node of level 1 to 5; a root of scheduler k has key k. -/
def nodeKey (level n : Nat) : Nat := level * 2 ^ 20 + n

/-- A node. -/
def State.node (s : State) (k : Nat) : Node := mget s.sched.nodes {} k

/-- Change a node. -/
def State.updNode (s : State) (k : Nat) (f : Node → Node) : State :=
  { s with sched := { s.sched with nodes := mupd s.sched.nodes {} k f } }

/-- Fields of a record (R358). -/
def Node.parent (n : Node) : Nat := bits n.record 63 44
def Node.prio (n : Node) : Nat := bits n.record 43 41
def Node.weight (n : Node) : Nat := bits n.record 40 29
def Node.shape (n : Node) : Nat := bits n.record 28 13
def Node.attached (n : Node) : Bool := bit n.record 0

/-- Bytes of a port that an egress slice holds (R16). The manual says "in the same way" of bytes that on ingress wait for the parser; that on
egress all the slice's bytes of the port count, those on its Evrad channel, in dispatch, in a pass and in reorder included, is the
model's choice. Log entry 48 (DEDUCED and DESIGN CHOICE). -/
def State.egressBytes (s : State) (n p : Nat) : Nat :=
  (((s.sliceOf (8 + n)).filter fun x => x.port == p).map fun x => x.frame.length).sum
    + (((mget s.pk.chanEg [] n).filter fun x => x.port == p).map fun x => x.frame.length).sum

/-- The egress slice that R15 and R16 give a port. -/
def State.steerEgress (s : State) (p : Nat) : Nat :=
  match s.slicesOf p with
  | [a, b] =>
    let ua := s.rd (O.evradState (8 + a)) == 1
    let ub := s.rd (O.evradState (8 + b)) == 1
    if ua && !ub then a else if ub && !ua then b else if s.egressBytes b p < s.egressBytes a p then b else a
  | a :: _ => a
  | [] => 0

/-- The parent of a node (R356, R357): a node or a root; none for a root, and for a level-1 node without a port. -/
def State.parentKey (s : State) (k : Nat) : Option Nat :=
  let p := (s.node k).parent
  match k / 2 ^ 20 with
  | 5 => some (nodeKey 4 p)
  | 4 => some (nodeKey 3 p)
  | 3 => some (nodeKey 2 p)
  | 2 => if p < 512 then some (nodeKey 1 p) else some (p - 0x80000)
  | 1 => (s.subportPort (k % 2 ^ 20)).map fun port => 8 + s.steerEgress port
  | _ => none

/-- A node and its ancestors below the root, lowest first, and the root. -/
def State.pathUp (s : State) : Nat → Nat → List Nat × Option Nat
  | 0, _ => ([], none)
  | fuel + 1, k =>
    if k < 2 ^ 20 then ([], some k)
    else match s.parentKey k with
      | some p => let r := s.pathUp fuel p; (k :: r.1, r.2)
      | none => ([k], none)

/-- The path of a queue. -/
def State.queuePath (s : State) (q : Nat) : List Nat × Option Nat := s.pathUp 6 (nodeKey 5 q)

/-- Do a node and its ancestors reach a root, all attached (R361)? -/
def State.servedNode (s : State) (k : Nat) : Bool :=
  let r := s.pathUp 6 k
  r.2.isSome && r.1.all fun x => (s.node x).attached

/-- The sub-port of a queue: its level-1 node, if its tree has one. -/
def State.queueSubport (s : State) (q : Nat) : Option Nat :=
  ((s.queuePath q).1.find? fun k => k / 2 ^ 20 == 1).map fun k => k % 2 ^ 20

/-- The ingress region (R354). -/
def State.inRegion (s : State) (q : Nat) : Bool :=
  decide (s.sched.iqBase ≤ q) && decide (q < s.sched.iqBase + 64 * s.sched.iqDevices)

/-- Does a node have a packet in its subtree (R363)? A detached node is in no subtree. -/
def State.backlogged (s : State) (k : Nat) : Bool :=
  s.buf.queues.any fun e => !e.2.pkts.isEmpty &&
    (nodeKey 5 e.1 == k || ((s.queuePath e.1).1.contains k && ((s.queuePath e.1).1.takeWhile fun x => x != k).all fun x => (s.node x).attached))

/-! ### The core's staging queues (R342) -/

/-- A stream of an input towards an output. -/
def State.staging (s : State) (i o : Nat) : Staging := mget s.swc.staging {} (i * 16 + o)

/-- Cells of a staging queue. -/
def Staging.cells (x : Staging) : Nat := x.closed.length + (if x.open_.isEmpty then 0 else 1)

/-- Cells that a packet of L bytes adds to a staging queue; one longer than the queue needs all of it. -/
def coreCells (x : Staging) (len : Nat) : Nat :=
  let used := (x.open_.map fun f => f.bytes).sum
  min 32 ((used + len + 32 + 255) / 256 - (if x.open_.isEmpty then 0 else 1))

/-- Has a staging queue room for a packet? Log entry 58 (DEDUCED). -/
def State.coreRoom (s : State) (i o len : Nat) : Bool :=
  decide ((s.staging i o).cells + coreCells (s.staging i o) len ≤ 32)

/-- Fields of a system header that queues use (R388). -/
def hdrQueue (h : BitVec 256) : Nat := hdrGet h 16 31 12
def hdrTc (h : BitVec 256) : Nat := hdrGet h 16 2 0
def hdrDest (h : BitVec 256) : Nat := hdrGet h 20 31 16
def hdrColour (h : BitVec 256) : Nat := hdrGet h 20 3 2

/-- The output that a packet takes from an input (R341): local delivery goes to the slice of its egress port; none when the port does
not exist. A queue without a sub-port leads to egress admission at the output of the input's own number, which drops the packet.
Log entry 58 (DEDUCED). -/
def State.coreOutput (s : State) (i : Nat) (h : BitVec 256) : Option Nat :=
  if i < 8 && hdrDest h ≠ s.myDevice then some ((hdrDest h + i) % 8)
  else match s.queueSubport (hdrQueue h) with
    | none => some (8 + i % 8)
    | some sub => (s.subportPort sub).map fun port => 8 + s.steerEgress port

/-! ### Held back (R366) -/

/-- Lanes of a port. -/
def State.laneCount (s : State) (p : Nat) : Nat := modeWidth (s.modeOf p)

/-- Is a level-1 node held back by its port's bytes in flight, or by its own client's full mapper (R178, R366)? -/
def State.portHeld (s : State) (sub : Nat) : Bool :=
  match s.subportPort sub with
  | some p => decide (mget s.pk.inflight 0 p ≥ s.rd O.portInflight * s.laneCount p) || s.mapperFull p sub
  | none => false

/-- Is a scheduler held back as a whole: egress store without room for one more byte or packet, or no room on its Evrad channel? -/
def State.schedHeld (s : State) (k : Nat) : Bool :=
  decide (8 ≤ k) && (s.storeFull k 1 || decide ((mget s.pk.chanEg [] (k - 8)).length ≥ channelRoom))

/-- Is an ingress queue held back for want of room at its core input? -/
def State.queueHeld (s : State) (q : Nat) : Bool :=
  match (s.queuePath q).2, (s.queue q).pkts with
  | some k, p :: _ =>
    if k < 8 then
      match s.coreOutput k p.hdr with
      | some o => !s.coreRoom k o p.frame.length
      | none => false
    else false
  | _, _ => false

/-- Is a node held back? -/
def State.nodeHeld (s : State) (k : Nat) : Bool :=
  match k / 2 ^ 20 with
  | 1 => s.portHeld (k % 2 ^ 20)
  | 5 => s.queueHeld (k % 2 ^ 20)
  | _ => false

/-- Is a node or queue held back, by itself or with the whole of its scheduler? A hold of a node above it is not its own.
Log entry 60 (DEDUCED). -/
def State.heldBack (s : State) (k : Nat) : Bool := s.nodeHeld k || (s.pathUp 6 k).2.any s.schedHeld

/-! ### Guarantees (R368, R369, R380) -/

/-- A guarantee of a queue is broken: 1 COMMIT, 2 PIN, 3 FAIR. Log entry 60 (DEDUCED). -/
def State.breakGuarantee (s : State) (kind q : Nat) : State :=
  let s := s.updQueue q fun x => { x with flags := setBit x.flags (kind - 1) true }
  let s := s.inc (if kind = 1 then O.commitBreaks else if kind = 2 then O.pinBreaks else O.fairBreaks)
  let b := mget s.sched.breaks {} kind
  let first := if b.since = 0 then q else b.first
  let set := fun (s : State) (b : Breaks) => { s with sched := { s.sched with breaks := mput s.sched.breaks kind b } }
  let due := match b.last with
    | some t => decide (t + 250000 ≤ s.pclk)
    | none => true
  if due then (set s { last := some s.pclk, since := 0, first := 0 }).raise 3 0x03D0 0x0C WARNING first kind (b.since + 1)
  else set s { b with since := b.since + 1, first := first }

/-! ### Balances (R363, R365) -/

/-- Units of a balance in one byte: a rate of r kb/s adds r units in a PIPE cycle. Log entry 59 (DEDUCED and DESIGN CHOICE). -/
abbrev byteUnits : Nat := 12000000

/-- A shaper profile. -/
def State.shape (s : State) (n : Nat) : Shape := mget s.sched.shapes {} n

/-- A node's balances at a time, never above their bursts (R363, R365): an empty node refills its debt only.
Log entry 59 (DEDUCED and DESIGN CHOICE). -/
def Node.refilled (n : Node) (x : Shape) (now : Nat) (busy : Bool) : Node :=
  let dt : Int := (now - n.time : Nat)
  let cap := fun (burst : Nat) => if busy then (burst * byteUnits : Int) else 0
  { n with
    cbal := min (cap x.cbs) (n.cbal + x.cir * dt)
    pbal := min (cap x.pbs) (n.pbal + x.pir * dt)
    time := now }

/-- Bring a node's balances up to date; a backlogged queue whose committed balance reaches its burst breaks COMMIT (R369). -/
def State.refresh (s : State) (k : Nat) : State :=
  let n := s.node k
  if n.record = 0 then s
  else
    let x := s.shape n.shape
    let busy := s.backlogged k
    let m := n.refilled x s.pipe busy
    let s := s.updNode k fun _ => m
    if k / 2 ^ 20 = 5 && busy && 0 < x.cir && n.cbal < x.cbs * byteUnits && m.cbal = x.cbs * byteUnits
        && !(s.queue (k % 2 ^ 20)).refillWait && !s.heldBack k
    then s.breakGuarantee 1 (k % 2 ^ 20) else s

/-- Several nodes. -/
def State.refreshAll (s : State) (l : List Nat) : State := l.foldl State.refresh s

/-- Nodes that have gone empty lose their unused credit (R363). -/
def State.emptyNodes (s : State) (l : List Nat) : State :=
  l.foldl (fun s k => if s.backlogged k then s
    else s.updNode k fun n => { n with deficit := 0, cbal := min 0 n.cbal, pbal := min 0 n.pbal }) s

/-- The balances of backlogged queues with a committed rate reach their bursts as time passes (R369). -/
def State.commitTick (s : State) : State :=
  s.buf.queues.foldl (fun s e => if e.2.pkts.isEmpty then s else s.refresh (nodeKey 5 e.1)) s

end Sys2Proof.Machine
end

