-- ==== Sys2Proof/Machine/Buf.lean ====
section
/-!
DEFINITION. Buffers (chapter 11): light-trap capture, queue attributes, admission with random early drop and ECN, and the spill and refill of
queue tails.
-/

namespace Sys2Proof.Machine

/-- Buffer cells written or read (events 0x0100 and 0x0101): the cells' numbers are open. -/
def State.perfCells (s : State) (code tc : Nat) : Nat → State
  | 0 => s
  | n + 1 =>
    if s.running .perf && (List.range 48).any (fun i => s.rd (O.pcEvent (i + 48)) == code) then
      let v := s.open_
      State.perfCells (v.2.perfEvent true code 1 { addr := v.1.toNat % 393216 * 256, tc := some tc }) code tc n
    else s

/-! ### Light-trap (R346 to R348) -/

/-- A session. -/
def State.ltSession (s : State) (k : Nat) : LtSession := mget s.lt.sessions {} k

/-- Change a session. -/
def State.updSession (s : State) (k : Nat) (f : LtSession → LtSession) : State :=
  { s with lt := { s.lt with sessions := mupd s.lt.sessions {} k f } }

/-- A capture is dropped (R346, R353). -/
def State.ltDrop (s : State) (k : Nat) : State :=
  let s := s.inc (O.ltDrops k)
  s.raiseCounted (0x0880 * 65536 + k) 250000 8 0x0880 0x0B WARNING k (min (s.rd (O.ltCaptured k)) 0xFFFFFFFF)

/-- Records that the buffers in flight of ring `n` can still take. Log entry 57 (DEDUCED). -/
def State.ltRoom (s : State) (n : Nat) : Nat := ((s.buffers n).map fun f => (f.desc.bufLength - f.length) / 160).sum

/-- What admission decided about a packet. -/
structure Decision where
  queue   : Nat
  hdr     : BitVec 256
  frame   : List Byte
  egress  : Bool
  depth   : Nat
  cause   : Nat := 0
  marked  : Bool := false
  deriving DecidableEq, Repr

/-- The capture record (R347). -/
def State.ltRecord (s : State) (k : Nat) (x : Decision) : List Byte :=
  let cap := x.frame.take 128
  leBytes 4 s.todNanos ++ leBytes 6 s.todSeconds ++ leBytes 1 k
    ++ leBytes 1 (hdrColour x.hdr * 64 + b2n (x.cause != 0) * 32 + hdrGet x.hdr 20 0 0 * 16 + hdrGet x.hdr 20 1 1 * 8 + b2n x.egress * 4)
    ++ leBytes 2 x.frame.length ++ leBytes 2 cap.length ++ leBytes 4 (x.queue + hdrTc x.hdr * 1048576) ++ leBytes 4 x.depth
    ++ leBytes 2 (hdrDest x.hdr) ++ leBytes 1 x.cause ++ zeros 1 ++ leBytes 4 (s.ltSession k).seq ++ fit cap 128

/-- Drop the held record of the handle `h`. -/
def State.ltForget (s : State) (h : LtRec) : State := { s with lt := { s.lt with held := s.lt.held.erase h } }

/-- Deliver held records of DMA ring `n` in order (R348, R352): a record whose buffer was freed meanwhile is a STALE_REF and is
dropped. Log entry 57 (DEDUCED). -/
def State.ltPump : Nat → Nat → State → State
  | 0, _, s => s
  | fuel + 1, n, s =>
    match s.lt.held.find? fun h => h.ring == n + 16 with
    | none => s
    | some h =>
      if !s.armed n || !s.canSend || (s.dring n).waitPage.isSome then s
      else if (s.checkHandle h.handle false).1 ≠ 0 then
        State.ltPump fuel n (((s.ltForget h).bpmReject h.handle 5 2).ltDrop h.session)
      else match (s.buffers n).head? with
        | none => s
        | some f =>
          let s := s.fenceFirst n f
          let addr := f.desc.bufAddr + f.length
          if s.fenced n f then s else match s.missingPage addr 160 with
          | some page => s.askPage n page f.slot
          | none =>
            let s := s.writeBuffer addr (s.poolRead h.handle 0 160 2).2.2
            let s := ((s.ltForget h).poolRelease h.handle 2).1.inc (O.ltCaptured h.session)
            let len := f.length + 160
            let s := s.updD n fun d => { d with flight := setFlight d.flight f.slot fun y => { y with length := len } }
            let s := if f.desc.bufLength < len + 160 then s.tookEffect n f.slot .ok len (len / 160) else s
            State.ltPump fuel n s

/-- Take a capture (R346): its causes of a drop in the order of the list there, the buffer last. -/
def State.ltTake (s : State) (k : Nat) (x : Decision) : State :=
  let record := s.ltRecord k x
  let t := s.ltSession k
  let rate := s.rd (O.ltRate k)
  let b : Bucket × Bool := if rate = 0 then (t.bucket, true) else t.bucket.take s.ticks rate (s.rd (O.ltBurst k))
  let s := s.updSession k fun t => { t with seq := (t.seq + 1) % 4294967296, bucket := b.1 }
  if !b.2 then s.ltDrop k
  else if s.poolFreeOf 2 = 0 || !s.running .bpm then (s.inc (O.allocFails 2)).ltDrop k
  else
    let d := s.lt.device.take s.ticks 25000000 64
    let s := { s with lt := { s.lt with device := d.1 } }
    let r := s.rd (O.ltRing k)
    if !d.2 || !s.armedKind r 5 then s.ltDrop k
    else
      let n := r - 16
      if s.ltRoom n ≤ (s.lt.held.filter fun h => h.ring == r).length && s.unfetched n = 0 then (s.inc (O.dringNoBuffer n)).ltDrop k
      else match s.poolAlloc 2 with
        | (s, none) => s.ltDrop k
        | (s, some h) =>
          let s := (s.poolWrite h 0 record 2).1
          State.ltPump 1 n { s with lt := { s.lt with held := s.lt.held ++ [{ ring := r, session := k, handle := h }] } }

/-- Admission offers a packet to the session of its queue (R346). Log entry 57 (DEDUCED). -/
def State.ltOffer (s : State) (x : Decision) : State :=
  match (s.queue x.queue).session with
  | none => s
  | some k =>
    if !s.running .swc then s
    else match s.rd (O.ltMode k) with
      | 1 => if x.cause = 0 then s.ltTake k x else s
      | 2 =>
        if x.cause ≠ 0 then s
        else
          let n := (s.ltSession k).count + 1
          if s.rd (O.ltSampleN k) ≤ n then (s.updSession k fun t => { t with count := 0 }).ltTake k x
          else s.updSession k fun t => { t with count := n }
      | 3 => if x.cause ≠ 0 then s.ltTake k x else s
      | 4 => if x.marked then s.ltTake k x else s
      | _ => s

/-- Deliver what is held for every light-trap ring. -/
def State.ltTick (s : State) : State :=
  if s.lt.held.isEmpty then s
  else (List.range 48).foldl (fun s n => if s.rd (O.dringKind n) = 5 then State.ltPump 16 n s else s) s

/-- The meaning of LT_FLUSH_TIME_EXPIRY (R348): the descriptor that holds records completes with what it has. Log entry 57 (DEDUCED). -/
def execLtFlushTimeExpiry (r : Fin 48) (s : State) : Host.Outcome State Fault Refusal :=
  let n := r.val
  if s.rd (O.dringKind n) ≠ 5 then done s
  else match (s.buffers n).head? with
    | none => done s
    | some f => if f.length = 0 then done s else done (s.tookEffect n f.slot .ok f.length (f.length / 160))

/-! ### Segments (R318 to R326, R426) -/

/-- The channel of a segment (R425). -/
def Seg.channel (g : Seg) : Nat := g.id / 1048576

/-- Channels in service. -/
def State.inService (s : State) : List Nat := (List.range 64).filter fun c => s.rd (O.chState c) == 2

/-- Free segments of a channel. -/
def State.channelFreeSegs (s : State) (c : Nat) : Nat := 786432 - mget s.buf.fresh 0 c + (mget s.buf.freed [] c).length

/-- SEGMENTS_FREE (R323, R426). -/
def State.segFree (s : State) : Nat := (s.inService.map s.channelFreeSegs).sum

/-- SEGMENTS_EXHAUSTED when SEGMENTS_FREE has just reached 0 (R323). -/
def State.exhausted (s : State) (before : Nat) : State :=
  if 0 < before && s.segFree = 0 then s.raise 7 0x0780 0x0A WARNING 0 s.inService.length 0 else s

/-- A segment becomes free. Log entry 55 (DEDUCED and DESIGN CHOICE). -/
def State.freeSeg (s : State) (id : Nat) : State :=
  { s with buf := { s.buf with freed := mupd s.buf.freed [] (id / 1048576) fun l => l ++ [id % 1048576] } }

/-- Every segment of a channel becomes free (R434). Log entry 55 (DEDUCED and DESIGN CHOICE). -/
def State.freshChannel (s : State) (c : Nat) : State :=
  { s with buf := { s.buf with fresh := mdel s.buf.fresh c, freed := mdel s.buf.freed c } }

/-- Allocate a segment of a channel: the ones never used first, then the freed ones in order. Log entry 55 (DEDUCED and DESIGN CHOICE). -/
def State.takeSeg (s : State) (c : Nat) : State × Nat :=
  let f := mget s.buf.fresh 0 c
  if f < 786432 then ({ s with buf := { s.buf with fresh := mput s.buf.fresh c (f + 1), lastChan := c } }, c * 1048576 + f)
  else
    let l := mget s.buf.freed [] c
    ({ s with buf := { s.buf with freed := mset s.buf.freed [] c l.tail, lastChan := c } }, c * 1048576 + l.headD 0)

/-- The channel of the next segment (R323). Log entry 55 (DEDUCED and DESIGN CHOICE). -/
def State.nextChannel (s : State) : Option Nat :=
  ((List.range 64).map fun i => (s.buf.lastChan + 1 + i) % 64).find? fun c =>
    s.rd (O.chState c) == 2 && decide (0 < s.channelFreeSegs c)

/-- Whole packets of which a lost segment held part are discarded when they reach the head (R325). Log entry 55 (DEDUCED and DESIGN CHOICE). -/
def Queue.dropLost (x : Queue) : Nat → Queue
  | 0 => x
  | fuel + 1 =>
    match x.pkts with
    | p :: t => if p.lost && decide (p.cells ≤ x.head) then Queue.dropLost { x with pkts := t, head := x.head - p.cells } fuel else x
    | [] => x

/-- TAIL joins HEAD (R321). -/
def Queue.join (x : Queue) (threshold : Nat) : Queue :=
  let h := x.head + x.tail
  let back := decide (h < threshold) || (x.pinned && !x.pinBroken)
  { x with head := h, tail := 0, blocked := 0, spilling := !back, pinBroken := x.pinBroken && !back }

/-- A queue after a dequeue, or (`ended`) after its HBM part may have emptied. Log entry 55 (DEDUCED and DESIGN CHOICE). -/
def Queue.settled (x : Queue) (threshold : Nat) (ended : Bool) : Queue :=
  let x := x.dropLost x.pkts.length
  let x := if x.segs.isEmpty && x.spilling && (ended || !x.ready) then x.join threshold else x
  x.dropLost x.pkts.length

/-- Settle a queue; one that has gone empty notes the time, its path loses unused credit, and a detached one releases its reserve
(R330, R363, R367). -/
def State.settle (s : State) (q : Nat) (ended : Bool) : State :=
  let had := !(s.queue q).pkts.isEmpty
  let s := s.updQueue q fun x => x.settled (s.rd (O.spillThreshold x.bufProfile)) ended
  if had && (s.queue q).pkts.isEmpty then
    let attached := (s.node (nodeKey 5 q)).attached
    (s.updQueue q fun x => { x with emptied := s.pipe, reserve := if attached then x.reserve else 0 }).emptyNodes (s.queuePath q).1
  else s

/-- May a queue's next segment write start (R319)? -/
def State.writeAllowed (s : State) (q : Nat) : Bool :=
  let x := s.queue q
  s.running .buf && s.running .hbm && decide (x.inHbm < s.rd (O.hbmLimit x.bufProfile)) && s.nextChannel.isSome && (!x.pinned || x.pinBroken)

/-- Each formed segment that has to wait is counted once in SPILL_BLOCKED (R319). -/
def State.noteBlocked (s : State) (q : Nat) : State :=
  let x := s.queue q
  if x.spilling && !s.writeAllowed q && x.blocked < x.tail / 8 then
    (s.add (O.spillBlocked x.bufProfile) (x.tail / 8 - x.blocked)).updQueue q fun x => { x with blocked := x.tail / 8 }
  else s

/-- The meaning of SEGMENT_WRITE_ISSUE (R319, R323). -/
def execSegmentWriteIssue (q : Nat) (s : State) : Host.Outcome State Fault Refusal :=
  let x := s.queue q
  if !x.spilling || x.tail < 8 then done s
  else match s.nextChannel with
    | none => done (s.noteBlocked q)
    | some c =>
      if !s.writeAllowed q then done (s.noteBlocked q)
      else
        let before := s.segFree
        let r := s.takeSeg c
        let s := r.1.updQueue q fun x =>
          { x with tail := x.tail - 8, blocked := x.blocked - 1, segs := x.segs ++ [{ id := r.2, phase := .writing }] }
        done ((s.perfEvent true 0x0102 1 { addr := r.2 * 2048 }).exhausted before)

/-- Change the phase of a segment. -/
def setPhase (l : List Seg) (id : Nat) (p : SegPhase) : List Seg := l.map fun g => if g.id = id then { g with phase := p } else g

/-- The meaning of SEGMENT_WRITE_DONE (R319): the segment's cells are freed and it is part of HBM. -/
def execSegmentWriteDone (q segment : Nat) (s : State) : Host.Outcome State Fault Refusal :=
  if (s.queue q).segs.any fun g => g.id == segment && g.phase == .writing then
    let s := s.updQueue q fun x => { x with segs := setPhase x.segs segment .stored }
    done (s.inc (O.segmentsWritten (s.queue q).bufProfile))
  else done s

/-- May a channel be read (R427)? -/
def State.channelReads (s : State) (c : Nat) : Bool :=
  s.rd (O.chState c) == 2 || s.rd (O.chState c) == 3 || s.rd (O.chState c) == 7

/-- The oldest unread segment of a queue, when it is stored. -/
def Queue.nextRead (x : Queue) : Option Seg :=
  match x.segs.find? fun g => g.phase != .reading && g.phase != .read with
  | some g => if g.phase = .stored then some g else none
  | none => none

/-- Segments read or being read that have not joined HEAD. -/
def Queue.incoming (x : Queue) : Nat := (x.segs.filter fun g => g.phase == .reading || g.phase == .read).length

/-- The segment that a queue reads next, when it needs refill: one is stored on a channel that can be read, HEAD and what is being read
lie below the target, and fewer than 32 reads are in flight (R320). -/
def State.refillOf (s : State) (x : Queue) : Option Seg :=
  match x.nextRead with
  | some g =>
    if s.running .buf && s.running .hbm && s.channelReads g.channel
        && decide (x.head + 8 * x.incoming < s.rd (O.refillTarget x.bufProfile))
        && decide ((x.segs.filter fun g => g.phase == .reading).length < 32)
    then some g else none
  | none => none

/-- The first number in turn: the lowest at or after `turn`, or the lowest. -/
def inTurn (turn : Nat) (l : List Nat) : Option Nat := (l.find? fun q => decide (turn ≤ q)).or l.head?

/-- The queue whose turn the refill is (R320). -/
def State.refillTurn (s : State) : Option Nat :=
  inTurn s.buf.turn ((s.buf.queues.filter fun e => (s.refillOf e.2).isSome).map fun e => e.1)

/-- The meaning of SEGMENT_READ_ISSUE (R320): queues that need refill take turns. -/
def execSegmentReadIssue (q : Nat) (s : State) : Host.Outcome State Fault Refusal :=
  match s.refillOf (s.queue q) with
  | none => done s
  | some g =>
    if s.refillTurn = some q then
      let s := s.updQueue q fun x => { x with segs := setPhase x.segs g.id .reading }
      let s := { s with buf := { s.buf with turn := q + 1 } }
      done (s.perfEvent true 0x0103 1 { addr := g.id * 2048 })
    else done s

/-- Read segments join HEAD in order (R320); the segments freed. -/
def Queue.joinRead (x : Queue) : Nat → Queue × List Nat
  | 0 => (x, [])
  | fuel + 1 =>
    match x.segs with
    | g :: t =>
      if g.phase = .read then
        let r := Queue.joinRead { x with segs := t, head := x.head + 8 } fuel
        (r.1, g.id :: r.2)
      else (x, [])
    | [] => (x, [])

/-- Every read segment that no older one keeps waiting joins HEAD. -/
def Queue.joinAll (x : Queue) : Queue × List Nat := x.joinRead x.segs.length

/-- A read of a segment has returned its data. -/
def State.segRead (s : State) (q segment : Nat) : State :=
  let s := s.inc (O.segmentsRead (s.queue q).bufProfile)
  let r := ({ s.queue q with segs := setPhase (s.queue q).segs segment .read } : Queue).joinAll
  let s := s.updQueue q fun _ => r.1
  (r.2.foldl State.freeSeg s).settle q true

/-- Cells of a packet that a lost segment held. -/
def overlap (a n c : Nat) : Nat := min (a + n) (c + 8) - max a c

/-- Take the 8 cells from `start` on out of packets that begin at `pos`; the packets newly lost. -/
def loseCells (start : Nat) : Nat → List QPkt → List QPkt × Nat
  | _, [] => ([], 0)
  | pos, p :: t =>
    let k := overlap pos p.cells start
    let r := loseCells start (pos + p.cells) t
    if k = 0 then (p :: r.1, r.2) else ({ p with cells := p.cells - k, lost := true } :: r.1, r.2 + b2n (!p.lost))

/-- Take out of a queue every segment that is lost: the queue, the segments taken, the packets newly lost (R325). -/
def Queue.loseSegs (bad : Seg → Bool) : Nat → Queue → Queue × List Nat × Nat
  | 0, x => (x, [], 0)
  | fuel + 1, x =>
    match x.segs.findIdx? bad, x.segs.find? bad with
    | some j, some g =>
      let l := loseCells (x.head + 8 * j) 0 x.pkts
      let r := Queue.loseSegs bad fuel { x with pkts := l.1, segs := x.segs.eraseIdx j }
      (r.1, g.id :: r.2.1, r.2.2 + l.2)
    | _, _ => (x, [], 0)

/-- Segments are lost in every queue, and those already read that waited for them join HEAD; their number and that of the packets (R320, R325). -/
def State.loseWhere (s : State) (bad : Seg → Bool) : State × Nat × Nat :=
  s.buf.queues.foldl (fun (a : State × Nat × Nat) e =>
    if e.2.segs.any bad then
      let r := e.2.loseSegs bad e.2.segs.length
      let j := r.1.joinAll
      let s := a.1.updQueue e.1 fun _ => j.1
      let s := (s.add O.segmentsLost r.2.1.length).add O.packetsLost r.2.2
      (((r.2.1 ++ j.2).foldl State.freeSeg s).settle e.1 true, a.2.1 + r.2.1.length, a.2.2 + r.2.2)
    else a) (s, 0, 0)

/-- A channel freezes: every segment on it is lost, and the trim begins (R325). -/
def State.loseChannel (s : State) (c : Nat) : State × Nat :=
  let r := s.loseWhere fun g => g.channel == c
  ({ r.1 with buf := { r.1.buf with trims := r.1.buf.trims ++ [(c, r.2.1, r.2.2)] } }, r.2.1)

/-- The meaning of TRIM_DONE (R325). -/
def execTrimDone (channel : Fin 64) (s : State) : Host.Outcome State Fault Refusal :=
  match s.buf.trims.find? fun t => t.1 == channel.val with
  | none => done s
  | some t =>
    done ({ s with buf := { s.buf with trims := s.buf.trims.erase t } }.raise 7 0x0781 0x0A ERROR t.1 t.2.1 t.2.2)

/-! ### Queue attributes (R315, R316) -/

/-- Write an attribute word. -/
def State.writeAttr (s : State) (q v : Nat) : State × Status :=
  if q > 1048575 || bits v 15 6 ≠ 0 then (s, .range) else (s.updQueue q fun x => { x with attr := v }, .ok)

/-- A QBUF_CMD records its status. -/
def qbufRecorded (f : State → State × Status) (s : State) : State × Status :=
  let r := if s.fnState .buf = DISABLED then (s, Status.functionDisabled) else f s
  (r.1.wrSt O.qbufResult r.2, r.2)

/-- QBUF_CMD READ. -/
def qbufRead (s : State) : State × Status :=
  let q := s.rd O.qbufQueue
  if q > 1048575 then (s, .range)
  else
    let x := s.queue q
    let st := if x.refillWait then 2 else b2n x.spilling
    (((((s.wr O.qbufData x.attr).wr O.qbufState st).wr O.qbufOnchip x.onchip).wr O.qbufSegments x.inHbm).wr O.qbufAvg (x.avg / 256), .ok)

/-- The meaning of QBUF_WRITE. -/
def execQbufWrite (p : Path) (arg : BitVec 24) (s : State) : Host.Outcome State Fault Refusal :=
  done (access p O.qbufCmd (cmdData 1 arg) (qbufRecorded (noArg arg fun s => s.writeAttr (s.rd O.qbufQueue) (s.rd O.qbufData))) s)

/-- The meaning of QBUF_READ. -/
def execQbufRead (p : Path) (arg : BitVec 24) (s : State) : Host.Outcome State Fault Refusal :=
  done (access p O.qbufCmd (cmdData 2 arg) (qbufRecorded (noArg arg qbufRead)) s)

/-- The meaning of QBUF_RING_RECORDS: records of a U32 queue and a U32 word. -/
def execQbufRingRecords (r : Fin 48) (s : State) : Host.Outcome State Fault Refusal :=
  let n := r.val
  if !s.isTableRing n 0x000A0001 then done s
  else
    done (s.recordRing n 8 (if s.fnState .buf = DISABLED then some .functionDisabled else none)
      fun s _ b => s.writeAttr (le b 0 4) (le b 4 4))

/-! ### Admission (R317, R318, R329 to R332) -/

/-- The average after a decision (R330). Log entry 54 (DEDUCED and DESIGN CHOICE). -/
def averaged (x : Queue) (now weight : Nat) : Nat :=
  let a := if x.pkts.isEmpty then x.avg / 2 ^ min 31 ((now - x.emptied) / 1024) else x.avg
  ((a : Int) + ((x.depth * 256 : Nat) - (a : Int)) / (2 ^ weight : Nat)).toNat

/-- What random early drop decides: pass 0, mark 1, drop 2 (R331). Log entries 12 (DEDUCED and DESIGN CHOICE), 54 (DEDUCED and DESIGN CHOICE). -/
def State.redDecision (s : State) (profile colour avg : Nat) (ect : Bool) : State × Nat :=
  let at_ := fun (j : Nat) => s.rd (key (0x7500 + profile) (3 + 3 * min colour 2 + j))
  let lo := at_ 0 * 256
  let hi := at_ 1 * 256
  if avg < lo then (s, 0)
  else if avg ≥ hi then (s, 2)
  else
    let num := at_ 2 * (avg - lo)
    if num = 0 then (s, 0)
    else
      let hit := Config.redDraw s.draws num (256 * (hi - lo))
      ({ s with draws := s.draws + 1 }, if hit then (if ect && s.rd (O.ecnEnable profile) == 1 then 1 else 2) else 0)

/-- Cells that a queue may still take on chip (R317 step 4). -/
def State.cellsFor (s : State) (q : Nat) : Nat := (s.queue q).reserve - (s.queue q).onchip + s.sharedFree

/-- Does the packet that arrives make its queue enter SPILLING, and does that break its pin (R318, R326)? -/
def State.startsSpill (s : State) (q : Nat) : Bool × Bool :=
  let x := s.queue q
  if x.spilling || x.onchip < s.rd (O.spillThreshold x.bufProfile) || s.rd (O.hbmLimit x.bufProfile) = 0 then (false, false)
  else if x.pinned then (let b := decide (s.sharedFree < s.rd O.pinBreakFree); (b, b))
  else (true, false)

/-- Place an admitted packet (R318, R319). Log entry 54 (DEDUCED and DESIGN CHOICE). -/
def State.place (s : State) (x : Decision) : State :=
  let q := x.queue
  let n := cellsOf x.frame.length
  let b := s.startsSpill q
  let s := if b.1 then s.updQueue q fun y => { y with spilling := true, pinBroken := b.2 } else s
  let s := if b.2 then s.breakGuarantee 2 q else s
  let s := s.updQueue q fun y =>
    let y : Queue := { y with pkts := y.pkts ++ [{ hdr := x.hdr, frame := x.frame, cells := n }] }
    if y.spilling then { y with tail := y.tail + n } else { y with head := y.head + n }
  (s.perfCells 0x0100 (hdrTc x.hdr) n).noteBlocked q

/-- A packet that admission drops. -/
def State.refused (s : State) (x : Decision) (cause : Nat) : State :=
  (s.perfEvent true 0x0111 1 { tc := some (hdrTc x.hdr) }).ltOffer { x with cause := cause }

/-- Admission (R317): at ingress into an ingress queue, at egress into the queue that the system header names.
Log entry 54 (DEDUCED and DESIGN CHOICE). -/
def State.admission (s : State) (egress : Bool) (q : Nat) (hdr : BitVec 256) (frame : List Byte) : State :=
  let y := s.queue q
  let x : Decision := { queue := q, hdr := hdr, frame := frame, egress := egress, depth := y.depth }
  if !s.running .buf then (s.inc O.stoppedDrops).refused x 5
  else if !(s.node (nodeKey 5 q)).attached || (egress && s.inRegion q) then (s.inc O.unattachedDrops).refused x 1
  else
    let s := s.refreshAll (s.queuePath q).1
    let c := y.congProfile
    let avg := averaged y s.pipe (s.rd (O.ewmaWeight c))
    let s := s.updQueue q fun y => { y with avg := avg }
    let r := s.redDecision c (hdrColour hdr) avg (hdrGet hdr 20 1 1 == 1)
    let s := r.1
    if r.2 = 2 then (s.inc (O.greenDrops c + min (hdrColour hdr) 2)).refused x 2
    else
      let s := if r.2 = 1 then s.inc (O.ecnMarks c) else s
      let x := if r.2 = 1 then { x with hdr := hdrSet hdr 20 0 0 1, marked := true } else x
      if s.rd (O.queueLimit y.bufProfile) < y.depth + cellsOf frame.length then (s.inc (O.queueLimitDrops y.bufProfile)).refused x 3
      else if s.cellsFor q < cellsOf frame.length then
        let n := s.node (nodeKey 5 q)
        let s := if 0 < (s.shape n.shape).cir && 0 ≤ n.cbal then s.breakGuarantee 1 q else s
        (s.inc O.bufferFullDrops).refused x 4
      else (s.place x).ltOffer x

/-- Each PIPE cycle of a queue in REFILL_WAIT (R322). -/
def State.bufTick (s : State) : State :=
  s.buf.queues.foldl (fun s e => if e.2.refillWait then s.inc (O.refillStalls e.2.bufProfile) else s) s

/-! ### Lifecycle (R350) -/

/-- Transfers in flight. -/
def State.bufHeld (s : State) : Nat :=
  (s.buf.queues.map fun e => (e.2.segs.filter fun g => g.phase == .writing || g.phase == .reading).length).sum

/-- A forced stop abandons the transfers in flight: their segments are lost. -/
def State.bufForced (s : State) : State := (s.loseWhere fun g => g.phase == .writing || g.phase == .reading).1

/-- DISABLE discards every queue's contents and attributes and frees every segment; flags and the reserves of attached queues belong to SCHED, and a
detached queue, now empty, releases its reserve (R350, R367). -/
def State.bufDisable (s : State) : State :=
  s.buf.queues.foldl (fun s e =>
    let s := e.2.segs.foldl (fun s g => s.freeSeg g.id) s
    let s := s.updQueue e.1 fun x => ({ reserve := if (s.node (nodeKey 5 e.1)).attached then x.reserve else 0, flags := x.flags, emptied := s.pipe } : Queue)
    s.emptyNodes (s.queuePath e.1).1) s

end Sys2Proof.Machine
end

