-- ==== Sys2Proof/Machine/Swc.lean ====
section
/-!
DEFINITION. The switch core (chapter 11): packing into core cells, the two stages, and resequencing at the outputs.
-/

namespace Sys2Proof.Machine

/-- Change the core. -/
def State.updSwc (s : State) (f : SwcSt → SwcSt) : State := { s with swc := f s.swc }

/-- Change the stream of an input towards an output. -/
def State.updStaging (s : State) (i o : Nat) (f : Staging → Staging) : State :=
  s.updSwc fun x => { x with staging := mupd x.staging {} (i * 16 + o) f }

/-- Virtual output queue of a middle. -/
def State.voq (s : State) (m o : Nat) : List CoreCell := mget s.swc.middles [] (m * 16 + o)

/-- Replace it. -/
def State.setVoq (s : State) (m o : Nat) (l : List CoreCell) : State :=
  s.updSwc fun x => { x with middles := mset x.middles [] (m * 16 + o) l }

/-- A stream at its output. -/
def State.reseqOf (s : State) (o i : Nat) : Reseq := mget s.swc.reseq {} (o * 16 + i)

/-- Change it. -/
def State.updReseq (s : State) (o i : Nat) (f : Reseq → Reseq) : State :=
  s.updSwc fun x => { x with reseq := mupd x.reseq {} (o * 16 + i) f }

/-- Cells in the resequencing buffer of an output. -/
def State.reseqHeld (s : State) (o : Nat) : Nat := ((List.range 16).map fun i => (s.reseqOf o i).held.length).sum

/-- RESEQ_OCCUPANCY and RESEQ_PEAK of an output. -/
def State.countReseq (s : State) (o : Nat) : State :=
  let n := s.reseqHeld o
  (s.wr (O.reseqOccupancy o) n).wr (O.reseqPeak o) (max (s.rd (O.reseqPeak o)) n)

/-- Bytes of parts. -/
def fragBytes (l : List Frag) : Nat := (l.map fun f => f.bytes).sum

/-- Close the open cell of a stream (R19, R342). -/
def State.closeCell (s : State) (i o : Nat) : State :=
  let x := s.staging i o
  if x.open_.isEmpty then s
  else
    let c : CoreCell := { input := i, output := o, seq := x.next, frags := x.open_, order := s.swc.nextOrd, since := 0 }
    let s := s.updStaging i o fun x => { closed := x.closed ++ [c], open_ := [], next := (x.next + 1) % 1024 }
    let s := s.updSwc fun y => { y with nextOrd := y.nextOrd + 1 }
    s.add (O.inFillBytes i) (256 - fragBytes c.frags)

/-- Pack `n` remaining bytes of packet `id` into the cells of a stream. -/
def State.packCell (s : State) (i o id tc n : Nat) (p : TPkt) : Nat → State
  | 0 => s
  | fuel + 1 =>
    if n = 0 then s
    else
      let room := 256 - fragBytes (s.staging i o).open_
      let k := min room n
      let s := s.updStaging i o fun x =>
        { x with open_ := x.open_ ++ [{ id := id, bytes := k, tc := tc, last := if k = n then some p else none }] }
      let s := if k = room then s.closeCell i o else s
      State.packCell s i o id tc (n - k) p fuel

/-- A packet enters a core input (R341): its output is chosen, or it is dropped as a misroute. Log entry 58 (DEDUCED). -/
def State.enterCore (s : State) (i : Nat) (p : TPkt) : State :=
  match s.coreOutput i p.hdr with
  | none => s.inc O.coreMisroutes
  | some o =>
    let id := s.swc.nextPkt
    let s := s.updSwc fun x => { x with nextPkt := id + 1 }
    s.packCell i o id (hdrTc p.hdr) (32 + p.frame.length) p 64

/-- The meaning of CELL_CLOSE_TIMEOUT (R19). -/
def execCellCloseTimeout (input output : Fin 16) (s : State) : Host.Outcome State Fault Refusal :=
  done (s.closeCell input.val output.val)

/-- Does the core move cells from its middles (R351)? -/
def State.coreDrains (s : State) : Bool := s.running .swc || s.fnState .swc == STOPPING

/-- A middle sends the head of its queue for an output, if it entered in an earlier slot and the output takes cells: it does not withhold the
round, and its resequencing buffer has room for one of its 256 cells (R343, R344). -/
def State.middleSends (s : State) (m o : Nat) : State :=
  match s.voq m o with
  | [] => s
  | c :: t =>
    if c.since ≥ s.pipe || s.swc.holding.contains o || decide (256 ≤ s.reseqHeld o) then s
    else
      ((s.setVoq m o t).updReseq o c.input fun r => { r with held := r.held ++ [{ c with since := r.cycles }] }).countReseq o

/-- The oldest closed cell of an input whose queue at a middle has room (R342). -/
def State.cellToSend (s : State) (i m : Nat) : Option CoreCell :=
  (List.range 16).foldl (fun (best : Option CoreCell) o =>
    match (s.staging i o).closed.head? with
    | none => best
    | some c =>
      if (s.voq m o).length ≥ 8 then best
      else match best with
        | none => some c
        | some b => if c.order < b.order then some c else some b) none

/-- An input sends in the slot to its middle (R342). -/
def State.inputSends (s : State) (i m : Nat) : State :=
  match s.cellToSend i m with
  | some c =>
    let s := s.updStaging i c.output fun x => { x with closed := x.closed.tail }
    let s := s.setVoq m c.output (s.voq m c.output ++ [{ c with since := s.pipe }])
    (s.inc (O.inCells i)).perfEvent true 0x0120 1 { tc := (c.frags.head?).map fun f => f.tc }
  | none => if (List.range 16).any (fun o => !(s.staging i o).closed.isEmpty) then s.inc (O.inBlockedSlots i) else s

/-- The meaning of CORE_CELL_SEND: in the timeslot, the middle that input `i` meets sends to its output, and the input sends to it
(R340, R342, R343). -/
def execCoreCellSend (input : Fin 16) (s : State) : Host.Outcome State Fault Refusal :=
  if !s.coreDrains then done s
  else
    let t := s.coreSlot % 16
    let m := (input.val + t) % 16
    let s := s.middleSends m ((m + t) % 16)
    if s.running .swc then done (s.inputSends input.val m) else done s

/-- Packets that end in a cell and of which no part was lost; the lost ones are forgotten once their end has passed. -/
def State.packetsOf (s : State) (c : CoreCell) : State × List TPkt :=
  let ends := c.frags.filter fun f => f.last.isSome
  let good := ends.filterMap fun f => if s.swc.dropped.contains f.id then none else f.last
  (s.updSwc fun x => { x with dropped := x.dropped.filter fun d => !ends.any fun f => f.id == d }, good)

/-- Core cells are lost: each packet with a part in them is dropped and counted (R344). -/
def State.loseCore (s : State) (l : List CoreCell) : State :=
  let frags := l.flatMap fun c => c.frags
  let ids := ((frags.map fun f => f.id).eraseDups).filter fun d => !s.swc.dropped.contains d
  let open_ := ids.filter fun d => !frags.any fun f => f.id == d && f.last.isSome
  let ended := frags.filter fun f => f.last.isSome
  let s := s.add O.corePacketsLost ids.length
  s.updSwc fun x => { x with dropped := (x.dropped.filter fun d => !ended.any fun f => f.id == d) ++ open_ }

/-- The cell of a stream that its output misses, wherever it waits. -/
def State.missingCell (s : State) (o i : Nat) : Option (Nat × CoreCell) :=
  (List.range 16).findSome? fun m =>
    ((s.voq m o).find? fun c => c.input == i && c.seq == (s.reseqOf o i).expected).map fun c => (m, c)

/-- Has a stream missed its next cell for RESEQ_TIMEOUT counted cycles since a later one arrived (R344)? -/
def State.missedLong (s : State) (r : Reseq) : Bool :=
  !(r.held.any fun c => c.seq == r.expected) && r.held.any fun c => decide (c.since + s.rd O.reseqTimeout ≤ r.cycles)

/-- The meaning of RESEQ_TIMEOUT (R344): a stream that holds later cells gives up the one that is missing. -/
def execReseqTimeout (output input : Fin 16) (s : State) : Host.Outcome State Fault Refusal :=
  let o := output.val
  let i := input.val
  if !s.coreDrains || !s.missedLong (s.reseqOf o i) then done s
  else
    let s := match s.missingCell o i with
      | some (m, c) => (s.setVoq m o ((s.voq m o).erase c)).loseCore [c]
      | none => s
    let s := (s.inc O.coreCellsLost).updReseq o i fun r => { r with expected := (r.expected + 1) % 1024 }
    done (s.raise 3 0x03B0 0x0B ERROR o i (min (s.rd O.coreCellsLost) 0xFFFFFFFF))

/-- Egress admission takes from the FIFO of a line-egress output, in each PIPE cycle, one cell or one packet that ends in it (R317).
Log entry 58 (DEDUCED). -/
def State.admitHead (s : State) (o : Nat) : State :=
  match mget s.swc.fifo [] o with
  | [] => s
  | c :: t =>
    if s.pipe < mget s.swc.admits 0 o then s
    else
      let n := match c.frags.findIdx? fun f => f.last.isSome with
        | some j => j + 1
        | none => c.frags.length
      let rest := c.frags.drop n
      let l := if rest.any fun f => f.last.isSome then { c with frags := rest } :: t else t
      let s := s.updSwc fun x => { x with fifo := mset x.fifo [] o l, admits := mput x.admits o (s.pipe + 1) }
      let r := s.packetsOf { c with frags := c.frags.take n }
      r.2.foldl (fun s p => s.admission true (hdrQueue p.hdr) p.hdr p.frame) r.1

/-- The start of a round: outputs whose FIFO holds 32 cells or more withhold it (R343). Log entry 58 (DEDUCED). -/
def State.roundBegins (s : State) : State :=
  if s.coreSlot % 16 = 0 then
    let l := (List.range 16).filter fun o => decide ((mget s.swc.fifo [] o).length ≥ 32)
    l.foldl (fun s o => s.inc (O.withheldRounds o)) (s.updSwc fun x => { x with holding := l })
  else s

/-- A PIPE cycle of a round passes for the streams whose output it serves (R344). -/
def State.roundServes (s : State) : State :=
  s.updSwc fun x => { x with reseq := x.reseq.map fun e =>
    if e.2.held.isEmpty || x.holding.contains (e.1 / 16) then e else (e.1, { e.2 with cycles := e.2.cycles + 1 }) }

/-- A PIPE cycle of the core and of the admissions behind it. -/
def State.coreTick (s : State) : State :=
  let s := if s.coreDrains then s.roundBegins.roundServes else s
  (List.range 8).foldl (fun s i => s.admitHead (8 + i)) s

/-! ### Lifecycle (R351) -/

/-- Cells in middles and resequencing buffers. -/
def State.swcHeld (s : State) : Nat :=
  (s.swc.middles.map fun e => e.2.length).sum + (s.swc.reseq.map fun e => e.2.held.length).sum

/-- A forced stop discards them. Log entry 58 (DEDUCED). -/
def State.swcForced (s : State) : State :=
  let l := (s.swc.middles.flatMap fun e => e.2) ++ s.swc.reseq.flatMap fun e => e.2.held
  let s := s.loseCore l
  let s := s.updSwc fun x => { x with middles := [], reseq := x.reseq.map fun e => (e.1, { e.2 with held := [] }) }
  (List.range 16).foldl State.countReseq s

/-- START restarts every stream's numbering at 0; cells that wait at inputs take the first numbers. -/
def State.swcUp (s : State) : State :=
  s.updSwc fun x => { x with
    staging := x.staging.map fun e => (e.1, { e.2 with
      closed := e.2.closed.zipIdx.map fun (c : CoreCell × Nat) => { c.1 with seq := c.2 }, next := e.2.closed.length })
    reseq := [] }

/-- DISABLE empties the core. -/
def State.swcDisable (s : State) : State :=
  s.updSwc fun x => { nextPkt := x.nextPkt, nextOrd := x.nextOrd }

end Sys2Proof.Machine
end

