-- ==== Sys2Proof/Machine/Sched.lean ====
section
/-!
DEFINITION. Scheduling and shaping (chapter 12): records of nodes and queues, shaper profiles, the choice of a packet, and the lifecycle
of SCHED.
-/

namespace Sys2Proof.Machine

/-! ### Eligibility and choice (R361, R362) -/

/-- Attached children of a node or root, lowest number first. -/
def State.children (s : State) (k : Nat) : List Nat :=
  (s.sched.nodes.map fun e => e.1).filter fun c => decide (2 ^ 20 ≤ c) && (s.node c).attached && s.parentKey c == some k

/-- Is a node in the committed phase (R361)? -/
def State.committed (s : State) (k : Nat) : Bool := decide (0 < (s.shape (s.node k).shape).cir) && decide (0 ≤ (s.node k).cbal)

/-- Is a node eligible below its ancestors (R361)? -/
def State.eligible (s : State) : Nat → Nat → Bool
  | 0, _ => false
  | fuel + 1, k =>
    let n := s.node k
    n.attached && (decide ((s.shape n.shape).pir = 0) || decide (0 ≤ n.pbal)) && !s.nodeHeld k
      && if k / 2 ^ 20 = 5 then (s.queue (k % 2 ^ 20)).ready else (s.children k).any fun c => s.eligible fuel c

/-- Is a queue eligible now (R361): its path is attached and reaches a root, it is ready, its own peak balance allows it, and it is not held
back? -/
def State.queueEligible (s : State) (q : Nat) : Bool :=
  let k := nodeKey 5 q
  let x := s.shape (s.node k).shape
  (s.queue q).ready && s.servedNode k && !s.heldBack k && (decide (x.pir = 0) || decide (0 ≤ ((s.node k).refilled x s.pipe true).pbal))

/-- The eligible children of a node of one phase and priority. -/
def State.group (s : State) (k : Nat) (phase : Bool) (prio : Nat) : List Nat :=
  (s.children k).filter fun c => s.eligible 6 c && s.committed c == phase && (s.node c).prio == prio

/-- The child that the rule of R362 picks, and the state after it. -/
def State.pick (s : State) (k : Nat) : Option (Nat × State) :=
  let tries := (List.range 16).map fun i => (decide (i < 8), i % 8)
  match tries.find? fun t => !(s.group k t.1 t.2).isEmpty with
  | none => none
  | some (phase, prio) =>
    let l := s.group k phase prio
    let at_ := mget (s.node k).ptr 0 prio
    match l.find? fun c => c % 2 ^ 20 + 1 == at_ && decide (0 < (s.node c).deficit) with
    | some c => some (c, s)
    | none =>
      let c := (l.find? fun c => decide (at_ < c % 2 ^ 20 + 1)).getD (l.headD 0)
      let s := s.updNode c fun n => { n with deficit := min n.deficit 0 + (n.weight * s.rd O.schedQuantum : Nat) }
      some (c, s.updNode k fun n => { n with ptr := mput n.ptr prio (c % 2 ^ 20 + 1) })

/-- Pick one child at each level, down to a queue: the path, root's child first. -/
def State.descend : Nat → State → Nat → Option (List Nat × State)
  | 0, _, _ => none
  | fuel + 1, s, k =>
    match s.pick k with
    | none => none
    | some (c, s) =>
      if c / 2 ^ 20 = 5 then some ([c], s)
      else (State.descend fuel s c).map fun r => (c :: r.1, r.2)

/-- The length that a node uses (R364). -/
def lengthAt (x : Shape) (len : Nat) : Int := max 1 ((len : Int) + 4 + x.adj)

/-- Debit a node for a packet (R362). -/
def State.debit (s : State) (len k : Nat) : State :=
  let x := s.shape (s.node k).shape
  let b := lengthAt x len
  s.updNode k fun n => { n with
    deficit := n.deficit - b
    cbal := if 0 < x.cir then n.cbal - b * byteUnits else n.cbal
    pbal := if 0 < x.pir then n.pbal - b * byteUnits else n.pbal }

/-- The next place in a port's egress order, its PORT_SEQ, and the state after it (R215, R366). -/
def State.takeSeqEg (s : State) (p : Nat) : Nat × Nat × State :=
  let n := mget s.pk.seqEg 0 p
  (n, (n - mget s.pk.baseEg 0 p) % 16777216, s.upk fun x => { x with seqEg := mput x.seqEg p (n + 1) })

/-- A packet dequeued by egress scheduler `n` goes onto Evrad channel 8 + n (R11, R366, R388). -/
def State.toEgress (s : State) (n sub : Nat) (p : QPkt) : State :=
  match s.subportPort sub with
  | none => s
  | some port =>
    let r := s.takeSeqEg port
    let s := r.2.2
    let len := p.frame.length + 4
    let s := s.upk fun x => { x with inflight := mset x.inflight 0 port (mget x.inflight 0 port + len) }
    let h := hdrSet (hdrSet p.hdr 4 31 8 r.2.1) 16 11 3 sub
    if s.rd (O.evradState (8 + n)) = 1 then
      s.upk fun x => { x with chanEg := mupd x.chanEg [] n fun l => l ++ [{ hdr := h, frame := p.frame, port := port, seq := r.1 }] }
    else ((s.inc (O.evradDrops (8 + n))).leavePort port len).giveUp (stageOf (8 + n)) port r.1

/-- Take the head packet of a queue (R322). -/
def State.dequeue (s : State) (q : Nat) : State :=
  match (s.queue q).pkts with
  | [] => s
  | p :: t =>
    let s := s.updQueue q fun x => { x with pkts := t, head := x.head - p.cells }
    (s.perfCells 0x0101 (hdrTc p.hdr) p.cells).settle q false

/-- What the ECC of the words of a dequeued packet finds: those corrected are counted; with one that could not be corrected, the packet is dropped
whole, and it is reported (R314, R353). Whose cell's address the record holds is open. Log entry 54 (DEDUCED and DESIGN CHOICE). -/
def State.bufEcc (s : State) (q cells : Nat) (turn : PickTurn) : State :=
  let s := s.add O.eccCorrected (min turn.corrected (cells * 32))
  if !turn.bad then s
  else
    let v := s.open_
    let s := v.2.inc O.eccDrops
    s.raise 3 0x03A0 0x0A ERROR q (v.1.toNat % 393216) (min (s.rd O.eccDrops) 0xFFFFFFFF)

/-- Bring every balance up to date. -/
def State.refreshNodes (s : State) : State := s.refreshAll (s.sched.nodes.map fun e => e.1)

/-- A scheduler chooses, dequeues and debits (R362), and hands the packet on, unless one of its words is bad (R314). -/
def State.serve (s : State) (turn : PickTurn) : State :=
  let k := turn.scheduler.val
  let s := s.refreshNodes
  match State.descend 6 s k with
  | none => s
  | some (path, t) =>
    let q := path.getLastD 0 % 2 ^ 20
    match (t.queue q).pkts.head? with
    | none => s
    | some p =>
      let t := path.foldl (fun t x => t.debit p.frame.length x) t
      let t := (t.inc (O.schedPackets k)).add (O.schedBytes k) p.frame.length
      let t := ((t.perfEvent true 0x0110 1 { tc := some (hdrTc p.hdr) }).dequeue q).bufEcc q p.cells turn
      if turn.bad then t
      else if k < 8 then t.enterCore k { hdr := p.hdr, frame := p.frame }
      else t.toEgress (k - 8) (path.headD 0 % 2 ^ 20) p

/-- The meaning of SCHEDULER_PICK (R55, R314, R362, R366). -/
def execSchedulerPick (turn : PickTurn) (s : State) : Host.Outcome State Fault Refusal :=
  if !s.running .sched || !s.running .buf || s.schedHeld turn.scheduler.val then done s else done (s.serve turn)

/-- The meaning of FAIR_WINDOW_EXPIRY (R369). Log entry 60 (DEDUCED). -/
def execFairWindowExpiry (q : Nat) (s : State) : Host.Outcome State Fault Refusal :=
  let s' := s.refreshNodes
  if s.running .sched && s'.queueEligible q && !s'.committed (nodeKey 5 q) then done (s'.breakGuarantee 3 q) else done s

/-- Each PIPE cycle of the schedulers (R370). -/
def State.schedTick (s : State) : State :=
  if !s.running .sched then s
  else (List.range 16).foldl (fun s k =>
    let held := s.schedHeld k
    let s := if held then s.inc (O.schedHeldCycles k) else s
    if !s.buf.queues.any (fun e => (s.queuePath e.1).2 == some k && s.queueEligible e.1) then s.inc (O.schedIdleCycles k) else s) s

/-! ### Records (R358 to R360) -/

/-- Nodes of a level (R356). -/
def levelNodes (level : Nat) : Nat := [0, 512, 8192, 65536, 262144, 1048576].getD level 0

/-- Is a PARENT within R358? -/
def parentOk (level p : Nat) : Bool :=
  match level with
  | 1 => p == 0
  | 2 => decide (p < 512) || (decide (0x80000 ≤ p) && decide (p < 0x80008))
  | _ => decide (p < levelNodes (level - 1))

/-- The tree below which a node's records place it: an ingress scheduler, or 8 for the egress trees. -/
def State.treeOf (s : State) : Nat → Nat → Nat → Nat
  | 0, _, _ => 8
  | fuel + 1, level, parent =>
    if level ≤ 1 then 8
    else if level = 2 then (if parent < 512 then 8 else parent - 0x80000)
    else s.treeOf fuel (level - 1) (s.node (nodeKey (level - 1) parent)).parent

/-- The root of a node that has the PARENT given, for the comparison of R360. -/
def State.rootOf (s : State) (level parent : Nat) : Option Nat :=
  if level = 2 && 0x80000 ≤ parent then some (parent - 0x80000)
  else if level ≤ 1 then none
  else (s.pathUp 6 (nodeKey (level - 1) parent)).2

/-- Does a move of a node lead under another root (R360)? Log entry 59 (DEDUCED and DESIGN CHOICE). -/
def State.otherRoot (s : State) (level old new : Nat) : Bool :=
  s.treeOf 6 level old != s.treeOf 6 level new || match s.rootOf level old, s.rootOf level new with
    | some a, some b => a != b
    | _, _ => false

/-- Does a queue's tree obey the tree rule of R360 for a region? Log entry 59 (DEDUCED and DESIGN CHOICE). -/
def treeRule (base devices q tree : Nat) : Bool :=
  if base ≤ q && q < base + 64 * devices then tree == (q - base) / (8 * devices) else tree == 8

/-- RESERVE_CELLS of the classes as START will take them (R56, R378). -/
def State.reserveObjects (s : State) : List Nat := (List.range 15).map fun i => s.rd (O.reserveCells (i + 1))

/-- The reserve that a record gives its queue, with the cells of the classes `cells` (R367). Log entry 60 (DEDUCED). -/
def State.reserveFor (s : State) (cells : List Nat) (q v : Nat) : Nat :=
  if bit v 0 then (if bits v 12 9 = 0 then 0 else cells.getD (bits v 12 9 - 1) 0)
  else if (s.queue q).pkts.isEmpty then 0 else (s.queue q).reserve

/-- The check of a WRITE (R360). Log entry 59 (DEDUCED and DESIGN CHOICE). -/
def State.nodeCheck (s : State) (level n v : Nat) : Status :=
  let parent := bits v 63 44
  let attached := bit v 0
  let k := nodeKey level n
  let kids := !(s.children k).isEmpty
  if level < 1 || level > 5 || n ≥ levelNodes level || bits v 8 1 ≠ 0 || !parentOk level parent
      || (attached && bits v 40 29 == 0) || (level != 5 && bits v 12 9 != 0) then .range
  else if attached && decide (2 ≤ level) && !(level == 2 && decide (0x80000 ≤ parent))
      && !(s.node (nodeKey (level - 1) parent)).attached then .range
  else if attached && level == 5 && !treeRule s.sched.iqBase s.sched.iqDevices n (s.treeOf 6 level parent) then .range
  else if kids && s.otherRoot level (s.node k).parent parent then .range
  else if !attached && kids then .busy
  else if level = 5 && s.reserved - (s.queue n).reserve + s.reserveFor s.sched.reserves n v > s.sched.limit then .noResource
  else .ok

/-- Write a record (R360). -/
def State.nodeWrite (s : State) (level n v : Nat) : State × Status :=
  match s.nodeCheck level n v with
  | .ok =>
    let k := nodeKey level n
    let s := s.refreshNodes
    let above := (s.pathUp 6 k).1
    let moved := (s.node k).parent ≠ bits v 63 44
    let below := match s.rootOf level (bits v 63 44) with
      | some _ => (s.pathUp 6 (nodeKey (level - 1) (bits v 63 44))).1
      | none => []
    let s := s.refreshAll below
    let s := s.updNode k fun x =>
      let x := { x with record := v, time := s.pipe }
      if moved then { x with deficit := 0, cbal := min 0 x.cbal, pbal := min 0 x.pbal } else x
    let s := if level = 5 then s.updQueue n fun x => { x with reserve := s.reserveFor s.sched.reserves n v } else s
    (s.emptyNodes above, .ok)
  | st => (s, st)

/-- A NODE_CMD: its level, its status in NODE_RESULT. Log entry 59 (DEDUCED and DESIGN CHOICE). -/
def nodeCmd (arg : BitVec 24) (f : Nat → State → State × Status) (s : State) : State × Status :=
  let r :=
    if s.fnState .sched = DISABLED then (s, Status.functionDisabled)
    else if arg.toNat ≥ 8 then (s, .range)
    else f arg.toNat s
  (r.1.wrSt O.nodeResult r.2, r.2)

/-- Bytes of a balance, integer part. -/
def balBytes (b : Int) : Int := b / byteUnits

/-- NODE_CMD READ. -/
def nodeRead (level : Nat) (s : State) : State × Status :=
  let n := s.rd O.nodeNumber
  if level < 1 || level > 5 || n ≥ levelNodes level then (s, .range)
  else
    let s := s.refreshNodes
    let k := nodeKey level n
    let x := s.node k
    let p := s.pathUp 6 k
    let served := p.2.isSome && p.1.tail.all fun a => (s.node a).attached
    let held := s.heldBack k
    let elig := served && !held && s.eligible 6 k
    let wait := level == 5 && (s.queue n).refillWait
    let st := b2n (s.backlogged k) + 2 * b2n elig + 4 * b2n (s.committed k) + 8 * b2n held + 16 * b2n wait + 32 * b2n served
    let s := (s.wr O.nodeData x.record).wr O.nodeStatus st
    let s := ((s.wrS O.nodeDeficit x.deficit).wrS O.nodeCbal (balBytes x.cbal)).wrS O.nodePbal (balBytes x.pbal)
    ((s.wr O.nodeFlags (if level = 5 then (s.queue n).flags else 0)).wr O.nodeChildren (s.children k).length, .ok)

/-- The meaning of NODE_WRITE. -/
def execNodeWrite (p : Path) (arg : BitVec 24) (s : State) : Host.Outcome State Fault Refusal :=
  done (access p O.nodeCmd (cmdData 1 arg) (nodeCmd arg fun level s => s.nodeWrite level (s.rd O.nodeNumber) (s.rd O.nodeData)) s)

/-- The meaning of NODE_READ. -/
def execNodeRead (p : Path) (arg : BitVec 24) (s : State) : Host.Outcome State Fault Refusal :=
  done (access p O.nodeCmd (cmdData 2 arg) (nodeCmd arg nodeRead) s)

/-- The meaning of NODE_RING_RECORDS: records of a U8 level, three zero bytes, a U32 node and a U64 record. -/
def execNodeRingRecords (r : Fin 48) (s : State) : Host.Outcome State Fault Refusal :=
  let n := r.val
  if !s.isTableRing n 0x000C0001 then done s
  else
    done (s.recordRing n 16 (if s.fnState .sched = DISABLED then some .functionDisabled else none)
      fun s _ b => if le b 1 3 ≠ 0 then (s, .range) else s.nodeWrite (le b 0 1) (le b 4 4) (le b 8 8))

/-- A W1C write of NODE_FLAGS clears flags of the queue NODE_NUMBER (R359). -/
def State.clearFlags (s : State) (m : Nat) : State :=
  let q := s.rd O.nodeNumber
  let s := s.wr O.nodeFlags (clearBits (s.rd O.nodeFlags) m)
  if q < 1048576 then s.updQueue q fun x => { x with flags := clearBits x.flags m } else s

/-! ### Shaper profiles (R365) -/

/-- A SHAPE_CMD: its profile, its status in SHAPE_RESULT. -/
def shapeCmd (arg : BitVec 24) (f : Nat → State → State × Status) (s : State) : State × Status :=
  let r :=
    if s.fnState .sched = DISABLED then (s, Status.functionDisabled)
    else if arg.toNat ≥ 65536 then (s, .range)
    else f arg.toNat s
  (r.1.wrSt O.shapeResult r.2, r.2)

/-- SHAPE_CMD WRITE: users' balances are cut to the new bursts. -/
def shapeWrite (n : Nat) (s : State) : State × Status :=
  let cir := s.rd O.shapeCir
  let pir := s.rd O.shapePir
  if n = 0 || (pir ≠ 0 && pir < cir) then (s, .range)
  else
    let s := s.refreshNodes
    let x : Shape := { cir := cir, cbs := s.rd O.shapeCbs, pir := pir, pbs := s.rd O.shapePbs, adj := s.rdS O.shapeLenAdj }
    (({ s with sched := { s.sched with shapes := mset s.sched.shapes {} n x } }).refreshNodes, .ok)

/-- SHAPE_CMD READ. -/
def shapeRead (n : Nat) (s : State) : State × Status :=
  let x := s.shape n
  let users := (s.sched.nodes.filter fun e => decide (2 ^ 20 ≤ e.1) && e.2.attached && e.2.shape == n).length
  (((((s.wr O.shapeCir x.cir).wr O.shapeCbs x.cbs).wr O.shapePir x.pir).wr O.shapePbs x.pbs |>.wrS O.shapeLenAdj x.adj).wr
    O.shapeUsers users, .ok)

/-- The meaning of SHAPE_WRITE. -/
def execShapeWrite (p : Path) (arg : BitVec 24) (s : State) : Host.Outcome State Fault Refusal :=
  done (access p O.shapeCmd (cmdData 1 arg) (shapeCmd arg shapeWrite) s)

/-- The meaning of SHAPE_READ. -/
def execShapeRead (p : Path) (arg : BitVec 24) (s : State) : Host.Outcome State Fault Refusal :=
  done (access p O.shapeCmd (cmdData 2 arg) (shapeCmd arg shapeRead) s)

/-! ### Lifecycle (R378) -/

/-- Attached queues and their records. -/
def State.attachedQueues (s : State) : List (Nat × Node) :=
  (s.sched.nodes.filter fun e => e.1 / 2 ^ 20 == 5 && e.2.attached).map fun e => (e.1 % 2 ^ 20, e.2)

/-- The first queue at which the reserves of attached queues exceed the limit. -/
def State.firstOver (s : State) : Nat → List (Nat × Node) → Option Nat
  | _, [] => none
  | sum, (q, n) :: t =>
    let sum := sum + s.reserveFor s.reserveObjects q n.record
    if sum > s.rd O.reserveLimit then some q else s.firstOver sum t

/-- What START of SCHED checks: the status, and the first failing node as SCHED_ERROR_NODE holds it. Log entry 59 (DEDUCED and DESIGN CHOICE). -/
def State.schedCheckStart (s : State) : Status × Option Nat :=
  let base := s.rd O.iqBase
  let dev := s.rd O.iqDevices
  if base + 64 * dev > 1048576 then (.range, none)
  else match s.attachedQueues.find? fun (e : Nat × Node) => !treeRule base dev e.1 (s.treeOf 6 5 e.2.parent) with
    | some e => (.range, some (5 * 2 ^ 24 + e.1))
    | none => match s.firstOver 0 s.attachedQueues with
      | some q => (.noResource, some (5 * 2 ^ 24 + q))
      | none => (.ok, none)

/-- SCHED reaches RUNNING: credits and pointers restart, the region and the reserves are in force. -/
def State.schedUp (s : State) : State :=
  let s := s.refreshNodes
  let s := { s with sched := { s.sched with
    iqBase := s.rd O.iqBase, iqDevices := s.rd O.iqDevices, reserves := s.reserveObjects, limit := s.rd O.reserveLimit
    nodes := s.sched.nodes.map fun (e : Nat × Node) => (e.1, { e.2 with deficit := 0, cbal := min 0 e.2.cbal, pbal := min 0 e.2.pbal, ptr := [] }) } }
  s.attachedQueues.foldl (fun s (e : Nat × Node) => s.updQueue e.1 fun x => { x with reserve := s.reserveFor s.sched.reserves e.1 e.2.record }) s

/-- DISABLE zeroes every record, profile, flag and reserve. -/
def State.schedDisable (s : State) : State :=
  let s := { s with sched := { s.sched with nodes := [], shapes := [] } }
  s.buf.queues.foldl (fun s e => s.updQueue e.1 fun x => { x with reserve := 0, flags := 0 }) s

end Sys2Proof.Machine
end

