-- ==== Sys2Proof/Machine/Pol.lean ====
section
/-!
DEFINITION. Policing and ingress admission (chapter 12): policers and their profiles, the meter, the system header, and the extension
policers' words (R445, R448).
-/

namespace Sys2Proof.Machine

/-! ### Policers and profiles (R371, R372, R377, R445) -/

/-- Is a policer an extension policer (R371)? -/
def extPolicer (n : Nat) : Bool := decide (2097152 ≤ n)

/-- A policer. One not written since QDR's first START has the profile and the TIME that its word took then (R447). -/
def State.policer (s : State) (n : Nat) : Policer :=
  mget s.pol.policers { time := if extPolicer n then mget s.qdr.filled 0 (n % 2) else 0 } n

/-- Give a policer a value; memory keeps the former value of an extension policer until its cached word is written back. -/
def State.setPolicer (s : State) (n : Nat) (v : Policer) : State :=
  let d := if extPolicer n && (mfind s.pol.dirty n).isNone then mput s.pol.dirty n (s.policer n) else s.pol.dirty
  { s with pol := { s.pol with policers := mput s.pol.policers n v, dirty := d } }

/-- A profile that has been written. -/
def State.polProfile (s : State) (n : Nat) : Option PolProf := mfind s.pol.profiles n

/-- Units of a bucket in one byte. -/
def bucketUnit (ext : Bool) : Nat := if ext then 256 else byteUnits

/-- Time as a policer counts it: PIPE cycles, or units of 64 of them modulo 2^32. -/
def State.polTime (s : State) (ext : Bool) : Nat := if ext then s.pipe / 64 % 4294967296 else s.pipe

/-- Tokens that a rate brings in a time. -/
def gained (ext : Bool) (rate dt : Nat) : Nat := if ext then rate * dt * 16384 / byteUnits else rate * dt

/-- The buckets of a policer cut to the bursts of its profile, then refilled to a time (R372, R373): only tokens gained overflow. -/
def refillBuckets (x : Policer) (f : PolProf) (ext : Bool) (now : Nat) : Policer :=
  let dt := if ext then (now + 4294967296 - x.time) % 4294967296 else now - x.time
  let u := bucketUnit ext
  let c := min x.tc (f.cbs * u) + gained ext f.cir dt
  let excess := if f.mode = 1 && f.coupled then c - f.cbs * u else 0
  { x with tc := min c (f.cbs * u), tp := min (x.tp + gained ext f.pir dt + excess) (f.pbs * u), time := now }

/-- The meter (R372): the colour, and the policer after it; `b` is the length in the bucket's units. Log entry 61 (DEDUCED and DESIGN CHOICE). -/
def meter (f : PolProf) (x : Policer) (colour b : Nat) : Nat × Policer :=
  let input := if f.aware then min colour 2 else 0
  if f.mode = 0 then
    if input = 2 || x.tp < b then (2, x)
    else if input = 1 || x.tc < b then (1, { x with tp := x.tp - b })
    else (0, { x with tp := x.tp - b, tc := x.tc - b })
  else
    if input = 0 && b ≤ x.tc then (0, { x with tc := x.tc - b })
    else if input ≠ 2 && b ≤ x.tp then (1, { x with tp := x.tp - b })
    else (2, x)

/-- The length that a policer uses (R373). -/
def polLength (f : PolProf) (len : Nat) : Nat := (max 1 ((len : Int) + 4 + f.adj)).toNat

/-- An error in the word of an extension policer: it is counted, and an uncorrectable half is set anew (R448).
Log entry 61 (DEDUCED and DESIGN CHOICE). -/
def State.polHalf (s : State) (n : Nat) (ecc : Ecc) (part : Nat) : State :=
  let s := s.qdrEcc (n % 2) n ecc part
  if ecc ≠ .uncorrectable then s
  else
    let x := s.policer n
    if part = 0 then
      match s.polProfile x.profile with
      | some f => s.setPolicer n { x with tc := f.cbs * 256, tp := f.pbs * 256 }
      | none =>
        let v := s.open_
        let w := v.2.open_
        w.2.setPolicer n { x with tc := v.1.toNat % 4294967296, tp := w.1.toNat % 4294967296 }
    else s.setPolicer n { x with profile := 0, time := s.polTime true }

/-- What a use of a policer meets in its word, where it is an extension policer (R448). -/
def State.polEcc (s : State) (n : Nat) (ecc : Ecc) (part : Nat) : State :=
  if extPolicer n then (s.polHalf n ecc part).qdrTouch (n % 2) n else s

/-- Meter a packet (R372 to R375): its colour, and whether it is dropped red. -/
def State.metered (s : State) (n colour tc len : Nat) (ecc : Ecc) (part : Nat) : State × Nat × Bool :=
  if n = 0 || !s.running .pol then (s, colour, false)
  else if extPolicer n && !s.qifUp (n % 2) then (s.inc O.polExtBypass, colour, false)
  else
    let ext := extPolicer n
    let s := s.polEcc n ecc part
    let x := s.policer n
    match s.polProfile x.profile with
    | none => (s, colour, false)
    | some f =>
      let r := meter f (refillBuckets x f ext (s.polTime ext)) colour (polLength f len * bucketUnit ext)
      let s := (s.setPolicer n r.2).inc (if r.1 = 0 then O.polGreen else if r.1 = 1 then O.polYellow else O.polRed)
      (s.perfEvent true 0x0140 1 { tc := some tc }, r.1, r.1 == 2 && !f.pass)

/-! ### Ingress admission (R332, R354, R388) -/

/-- ECT of a packet at ingress (R332). -/
def ectOf (md : BitVec 512) (frame : List Byte) : Bool :=
  let w := be frame (mdGet md 4 31 24) 2
  match mdGet md 6 31 28 with
  | 1 => w % 4 != 0
  | 2 => w / 16 % 4 != 0
  | _ => false

/-- The system header that ingress admission builds (R388). -/
def State.buildHeader (s : State) (md : BitVec 512) (colour : Nat) (frame : List Byte) : BitVec 256 :=
  let w := fun (k : Nat) => mdGet md k 31 0
  let l : List (Nat × Nat × Nat × Nat) :=
    [(0, 31, 0, w 0), (4, 31, 0, w 1), (8, 31, 0, w 2), (12, 31, 0, w 3), (16, 31, 12, queueOf md), (16, 2, 0, tcOf md),
     (20, 31, 16, destOf md), (20, 15, 4, mdGet md 13 31 20), (20, 3, 2, colour), (20, 1, 1, b2n (ectOf md frame)),
     (24, 31, 18, frame.length), (24, 10, 0, s.myDevice)]
  l.foldl (fun h x => hdrSet h x.1 x.2.1 x.2.2.1 x.2.2.2) 0

/-- Ingress admission of a packet of slice `n` (R354, R374). -/
def State.ingress (s : State) (n : Nat) (p : ChanPkt) (ecc : Ecc) (part : Nat) : State :=
  let r := s.metered (policerOf p.md) (colourOf p.md) (tcOf p.md) p.frame.length ecc part
  let s := r.1
  if r.2.2 then s.inc O.polRedDrops
  else if s.sched.iqDevices ≤ destOf p.md then s.inc O.iqRangeDrops
  else
    let q := s.sched.iqBase + (n * s.sched.iqDevices + destOf p.md) * 8 + tcOf p.md
    s.admission false q (s.buildHeader p.md r.2.1 p.frame) p.frame

/-- The meaning of METER: the head of Evrad ingress channel `n` is metered, then admitted or dropped. -/
def execMeter (n : Fin 8) (ecc : Ecc) (part : Fin 2) (s : State) : Host.Outcome State Fault Refusal :=
  match mget s.pk.chanIn [] n.val with
  | [] => done s
  | p :: t => done (((s.upk fun x => { x with chanIn := mset x.chanIn [] n.val t }).carried n.val).ingress n.val p ecc part.val)

/-! ### Commands (R376, R377) -/

/-- May software reach a policer: it exists, and an extension policer's interface holds contents? Log entry 61 (DEDUCED and DESIGN CHOICE). -/
def State.polReach (s : State) (n : Nat) : Status :=
  if n < 1 || n > 4194303 then .range
  else if extPolicer n && !s.qifUp (n % 2) then .functionDisabled
  else .ok

/-- A WRITE of a policer fills both buckets to their bursts; those of a profile not yet written are open.
Log entry 61 (DEDUCED and DESIGN CHOICE). -/
def State.polAssign (s : State) (n profile : Nat) : State × Status :=
  match s.polReach n with
  | .ok =>
    let ext := extPolicer n
    let u := bucketUnit ext
    let s := if ext then s.qdrTouch (n % 2) n else s
    match s.polProfile profile with
    | some f => (s.setPolicer n { profile := profile, tc := f.cbs * u, tp := f.pbs * u, time := s.polTime ext }, .ok)
    | none =>
      let v := s.open_
      let w := v.2.open_
      (w.2.setPolicer n { profile := profile, tc := v.1.toNat % 4294967296, tp := w.1.toNat % 4294967296, time := s.polTime ext }, .ok)
  | st => (s, st)

/-- A POL_CMD: refused while POL is DISABLED or with a reserved bit set; its status in POL_RESULT. -/
def polCmd (arg : BitVec 24) (f : Nat → State → State × Status) (s : State) : State × Status :=
  let r :=
    if s.fnState .pol = DISABLED then (s, Status.functionDisabled)
    else if arg.toNat ≥ 4194304 then (s, .range)
    else f arg.toNat s
  (r.1.wrSt O.polResult r.2, r.2)

/-- POL_CMD READ: the buckets of a policer whose profile holds no bursts are open. The operands tell what the read of an extension policer's word
meets (R448). -/
def polRead (ecc : Ecc) (part : Fin 2) (n : Nat) (s : State) : State × Status :=
  match s.polReach n with
  | .ok =>
    let ext := extPolicer n
    let s := s.polEcc n ecc part.val
    let x := s.policer n
    let s := s.wr O.polProfile x.profile
    match s.polProfile x.profile with
    | some f =>
      let y := refillBuckets x f ext (s.polTime ext)
      ((s.wr O.polCbal (y.tc / bucketUnit ext)).wr O.polPbal (y.tp / bucketUnit ext), .ok)
    | none =>
      let v := s.open_
      let w := v.2.open_
      ((w.2.wr O.polCbal (v.1.toNat % 4294967296)).wr O.polPbal (w.1.toNat % 4294967296), .ok)
  | st => (s, st)

/-- The meaning of POL_WRITE. -/
def execPolWrite (p : Path) (arg : BitVec 24) (s : State) : Host.Outcome State Fault Refusal :=
  done (access p O.polCmd (cmdData 1 arg) (polCmd arg fun n s => s.polAssign n (s.rd O.polProfile)) s)

/-- The meaning of POL_READ. -/
def execPolRead (p : Path) (lookup : PolLookup) (s : State) : Host.Outcome State Fault Refusal :=
  done (access p O.polCmd (cmdData 2 lookup.arg) (polCmd lookup.arg (polRead lookup.ecc lookup.part)) s)

/-- The meaning of POL_RING_RECORDS: records of a U32 policer, a U16 profile and two zero bytes. -/
def execPolRingRecords (r : Fin 48) (s : State) : Host.Outcome State Fault Refusal :=
  let n := r.val
  if !s.isTableRing n 0x000D0001 then done s
  else
    done (s.recordRing n 8 (if s.fnState .pol = DISABLED then some .functionDisabled else none)
      fun s _ b => if le b 6 2 ≠ 0 then (s, .range) else s.polAssign (le b 0 4) (le b 4 2))

/-- A PPROF_CMD: its profile, its status in PPROF_RESULT. -/
def pprofCmd (arg : BitVec 24) (f : Nat → State → State × Status) (s : State) : State × Status :=
  let r :=
    if s.fnState .pol = DISABLED then (s, Status.functionDisabled)
    else if arg.toNat ≥ 65536 then (s, .range)
    else f arg.toNat s
  (r.1.wrSt O.pprofResult r.2, r.2)

/-- PPROF_CMD WRITE. -/
def pprofWrite (n : Nat) (s : State) : State × Status :=
  let f : PolProf :=
    { mode := s.rd O.pprofMode, aware := s.rd O.pprofAware == 1, coupled := s.rd O.pprofCoupled == 1, cir := s.rd O.pprofCir,
      cbs := s.rd O.pprofCbs, pir := s.rd O.pprofPir, pbs := s.rd O.pprofPbs, adj := s.rdS O.pprofLenAdj,
      pass := s.rd O.pprofRedAction == 1 }
  if n = 0 || (f.mode = 0 && (f.pir = 0 || f.pir < f.cir || f.coupled)) then (s, .range)
  else ({ s with pol := { s.pol with profiles := mput s.pol.profiles n f } }, .ok)

/-- What a profile that has not been written reads as: the defaults of the objects. Log entry 61 (DEDUCED and DESIGN CHOICE). -/
def polDefault : PolProf :=
  { mode := 0, aware := false, coupled := false, cir := 0, cbs := 20480, pir := 0, pbs := 20480, adj := 0, pass := false }

/-- PPROF_CMD READ. Log entry 61 (DEDUCED and DESIGN CHOICE). -/
def pprofRead (n : Nat) (s : State) : State × Status :=
  let f := (s.polProfile n).getD polDefault
  let s := ((s.wr O.pprofMode f.mode).wr O.pprofAware (b2n f.aware)).wr O.pprofCoupled (b2n f.coupled)
  let s := (((s.wr O.pprofCir f.cir).wr O.pprofCbs f.cbs).wr O.pprofPir f.pir).wr O.pprofPbs f.pbs
  ((s.wrS O.pprofLenAdj f.adj).wr O.pprofRedAction (b2n f.pass), .ok)

/-- The meaning of PPROF_WRITE. -/
def execPprofWrite (p : Path) (arg : BitVec 24) (s : State) : Host.Outcome State Fault Refusal :=
  done (access p O.pprofCmd (cmdData 1 arg) (pprofCmd arg pprofWrite) s)

/-- The meaning of PPROF_READ. -/
def execPprofRead (p : Path) (arg : BitVec 24) (s : State) : Host.Outcome State Fault Refusal :=
  done (access p O.pprofCmd (cmdData 2 arg) (pprofCmd arg pprofRead) s)

/-! ### The walker (R445) -/

/-- One access of the memory of an extension policer (R450, R475). -/
def State.polAccess (s : State) (n : Nat) : State :=
  (s.inc (O.qifAccesses (n % 2))).perfEvent true 0x0150 1 { addr := qdrAddr n }

/-- The word of an extension policer is written to memory: the cache holds nothing more recent. -/
def State.polStore (s : State) (n : Nat) (v : Policer) : State :=
  ({ s with pol := { s.pol with policers := mput s.pol.policers n v, dirty := mdel s.pol.dirty n } }).polAccess n

/-- The word of a policer as the walker leaves it: refilled, if it is more than 2^30 units old. -/
def State.walked (s : State) (n : Nat) : Policer :=
  let x := s.policer n
  if (s.polTime true + 4294967296 - x.time) % 4294967296 ≤ 1073741824 then x
  else match s.polProfile x.profile with
    | some f => refillBuckets x f true (s.polTime true)
    | none => { x with time := s.polTime true }

/-- The meaning of POLICER_WALK: the walker reads a word, and writes it where it refills it or an error was met in it.
Log entry 61 (DEDUCED and DESIGN CHOICE). -/
def execPolicerWalk (visit : PolVisit) (s : State) : Host.Outcome State Fault Refusal :=
  let n := visit.policer
  if s.polReach n = .ok && extPolicer n then
    let s := (s.polAccess n).polHalf n visit.ecc visit.part.val
    let x := s.walked n
    if x = s.policer n && visit.ecc = .clean then done s else done (s.polStore n x)
  else done s

/-! ### Packets that wait for an extension policer (R375) -/

/-- Does the packet at the head of an Evrad ingress channel meter an extension policer? -/
def State.extWaits (s : State) (n : Nat) : Bool :=
  match (mget s.pk.chanIn [] n).head? with
  | some p => s.running .pol && extPolicer (policerOf p.md) && s.qifUp (policerOf p.md % 2)
  | none => false

/-- A PIPE cycle in which the policing queue of a channel is full behind a packet that waits for its extension policer. -/
def State.polTick (s : State) : State :=
  (List.range 8).foldl (fun s n =>
    if s.extWaits n && decide (channelRoom ≤ (mget s.pk.chanIn [] n).length) then s.inc O.polExtStalls else s) s

/-! ### Lifecycle (R379) -/

/-- DISABLE sets every policer to profile 0 and every profile to its default. -/
def State.polDisable (s : State) : State := { s with pol := {} }

end Sys2Proof.Machine
end

