-- ==== Sys2Proof/Machine/Fab.lean ====
section
/-!
DEFINITION. The fabric interface (chapter 13): packing into fabric cells and spraying, lanes, receiving and reassembly, beacons and the
plane watch; with it the release of core cells at the core's outputs.
-/

namespace Sys2Proof.Machine

/-- Change FAB's own state. -/
def State.updFab (s : State) (f : FabSt → FabSt) : State := { s with fab := f s.fab }

/-! ### Lanes (R381, R384, R385) -/

/-- Index of a fabric lane among all lanes. -/
abbrev laneIdx (f : Nat) : Nat := 96 + f

/-- Plane and group of a fabric lane (R381). -/
def planeOfLane (f : Nat) : Nat := f / 24
def groupOfLane (f : Nat) : Nat := f % 24 / 3

/-- A lane beside its objects. -/
def State.flane (s : State) (f : Nat) : FabLane := mget s.fab.lanes {} f

/-- Change a lane. -/
def State.updLane (s : State) (f : Nat) (g : FabLane → FabLane) : State :=
  s.updFab fun x => { x with lanes := mupd x.lanes {} f g }

/-- Is the lane LOCKED? -/
def State.flaneLocked (s : State) (f : Nat) : Bool := s.rd (O.laneState (laneIdx f)) == 2

/-- Does FAB run, or finish its work in hand? -/
def State.fabLive (s : State) : Bool := s.running .fab || s.fnState .fab == STOPPING

/-- Does a pattern replace the data of a lane (R151, R382)? -/
def State.inPattern (s : State) (f : Nat) : Bool := s.rd (O.prbsMode (laneIdx f)) != 0

/-- Does the receiver of a lane take framings and cells: it is LOCKED and checks no pattern? -/
def State.laneHears (s : State) (f : Nat) : Bool := s.flaneLocked f && !s.inPattern f

/-- Is the lane usable for sending cells (R384)? -/
def State.laneUsable (s : State) (f : Nat) : Bool :=
  s.flaneLocked f && (s.flane f).rxOk && !(s.flane f).xoff && s.rd (O.planeState (planeOfLane f)) == 2

/-- Report a change in a lane's usability (R384, R407). -/
def State.followLane (s : State) (f : Nat) : State :=
  let u := s.laneUsable f
  let x := s.flane f
  if x.usable == u then s
  else
    (s.updLane f fun x => { x with usable := u }).raise 4 0x04E0 0x0E WARNING f
      (s.rd (O.laneState (laneIdx f)) + 256 * b2n x.aligned + 512 * b2n x.rxOk + 1024 * b2n u) (s.rd (O.planeState (planeOfLane f)))

/-- The lanes of a plane. -/
def State.followPlane (s : State) (p : Nat) : State := (List.range 24).foldl (fun s i => s.followLane (24 * p + i)) s

/-- A lane loses its signal or is switched off: its receiver is no longer aligned. -/
def State.fabLaneLost (s : State) (f : Nat) : State :=
  (s.updLane f fun x => { x with good := 0, bad := 0, aligned := false }).followLane f

/-! ### Sending (R390 to R392) -/

/-- `n` fill bytes, whose values are open. Log entries 13 (DEDUCED and DESIGN CHOICE), 63 (DEDUCED and DESIGN CHOICE). -/
def State.fill (s : State) (n : Nat) : List Byte × State :=
  ((List.range n).map fun i => (Config.freeValue (s.free + i)).setWidth 8, { s with free := s.free + n })

/-- A sending stream. -/
def State.txStream (s : State) (g dest : Nat) : TxStream := mget s.fab.tx {} (g * 2048 + dest)

/-- Change a sending stream. -/
def State.updTx (s : State) (g dest : Nat) (f : TxStream → TxStream) : State :=
  s.updFab fun x => { x with tx := mupd x.tx {} (g * 2048 + dest) f }

/-- Closed cells of a group that wait for a lane. -/
def State.waitingCells (s : State) (g : Nat) : List FabCell := mget s.fab.waiting [] g

/-- Close the open cell of a stream (R390, R391). Log entry 63 (DEDUCED and DESIGN CHOICE). -/
def State.closeFab (s : State) (g dest : Nat) (cont : Bool) : State :=
  let x := s.txStream g dest
  if x.bytes.isEmpty then s
  else
    let n := 256 - x.bytes.length
    let r := s.fill n
    let c : FabCell := { dest := dest, seq := x.next, sync := !x.begun, prio := x.prio, valid := x.bytes.length, cont := x.cont,
                         start := x.start, payload := x.bytes ++ r.1 }
    let s := r.2.updTx g dest fun x => { bytes := [], cont := cont, start := 0x1FF, prio := 0, next := (x.next + 1) % 65536, begun := true }
    let s := s.updFab fun y => { y with waiting := mupd y.waiting [] g fun l => l ++ [c] }
    s.add (O.txFillBytes g) n

/-- Pack the rest of a packet of traffic class `tc` into a stream. -/
def State.packFab (s : State) (g dest tc : Nat) (bytes : List Byte) : Nat → State
  | 0 => s
  | fuel + 1 =>
    if bytes.isEmpty then s
    else
      let room := 256 - (s.txStream g dest).bytes.length
      let s := s.updTx g dest fun x => { x with bytes := x.bytes ++ bytes.take room, prio := max x.prio tc }
      let rest := bytes.drop room
      let s := if (s.txStream g dest).bytes.length = 256 then s.closeFab g dest (!rest.isEmpty) else s
      State.packFab s g dest tc rest fuel

/-- A whole packet enters the stream of its destination (R389, R390). -/
def State.sendFab (s : State) (g : Nat) (p : TPkt) : State :=
  let dest := hdrDest p.hdr
  let s := s.updTx g dest fun x => { x with
    start := if x.start = 0x1FF then x.bytes.length else x.start, cont := x.cont && !x.bytes.isEmpty }
  s.packFab g dest (hdrTc p.hdr) (beBytes 32 p.hdr.toNat ++ p.frame) 64

/-- A running group takes core cells, and the packets that end in them, from the FIFO of its output, unless a closed cell waits for a
lane (R390, R392). Log entry 58 (DEDUCED). -/
def State.fabTake (s : State) (g : Nat) : Nat → State
  | 0 => s
  | fuel + 1 =>
    if !s.running .fab || !(s.waitingCells g).isEmpty then s
    else match mget s.swc.fifo [] g with
      | [] => s
      | c :: t =>
        let r := (s.updSwc fun x => { x with fifo := mset x.fifo [] g t }).packetsOf c
        State.fabTake (r.2.foldl (fun s p => s.sendFab g p) r.1) g fuel

/-- The meaning of FAB_CELL_CLOSE_TIMEOUT (R390). -/
def execFabCellCloseTimeout (g : Fin 8) (dest : Fin 2048) (s : State) : Host.Outcome State Fault Refusal :=
  if s.fabLive then done (s.closeFab g.val dest.val false) else done s

/-- Rotation position k of a group (R392). -/
def rotationLane (g k : Nat) : Nat := 24 * (k % 6) + 3 * g + k / 6

/-- The next rotation position whose lane is usable and has room. -/
def State.nextLane (s : State) (g : Nat) : Option Nat :=
  let k0 := mget s.fab.rotate 0 g
  ((List.range 18).map fun i => (k0 + i) % 18).find? fun k =>
    s.laneUsable (rotationLane g k) && decide ((s.flane (rotationLane g k)).queue.length < 8)

/-- The meaning of FAB_CELL_SEND (R392). -/
def execFabCellSend (g : Fin 8) (s : State) : Host.Outcome State Fault Refusal :=
  match s.waitingCells g.val with
  | [] => done s
  | c :: t =>
    match s.nextLane g.val with
    | none => done s
    | some k =>
      let s := s.updFab fun x => { x with waiting := mset x.waiting [] g.val t, rotate := mset x.rotate 0 g.val ((k + 1) % 18) }
      done ((s.updLane (rotationLane g.val k) fun x => { x with queue := x.queue ++ [c] }).fabTake g.val 64)

/-- Replace bits [hi:lo] of a cell header. -/
def cellSet (h : BitVec 128) (hi lo v : Nat) : BitVec 128 :=
  let w := hi + 1 - lo
  BitVec.ofNat 128 (h.toNat - bits h.toNat hi lo * 2 ^ lo + v % 2 ^ w * 2 ^ lo)

/-- Bits [hi:lo] of a cell header. -/
def cellGet (h : BitVec 128) (hi lo : Nat) : Nat := bits h.toNat hi lo

/-- CCRC of a cell (R386). -/
def cellCrc (h : BitVec 128) (payload : List Byte) : Nat := crc32c ((beBytes 16 h.toNat).take 12 ++ payload)

/-- The header of a cell sent on a lane (R386). -/
def State.cellHeader (s : State) (f : Nat) (c : FabCell) : BitVec 128 :=
  let l : List (Nat × Nat × Nat) :=
    [(127, 126, 1), (123, 121, c.prio), (120, 118, groupOfLane f), (117, 107, c.dest), (106, 96, s.myDevice), (95, 80, c.seq),
     (79, 71, c.valid), (70, 70, b2n c.cont), (69, 61, c.start), (60, 58, planeOfLane f), (57, 57, b2n c.sync)]
  let h := l.foldl (fun h x => cellSet h x.1 x.2.1 x.2.2) 0
  cellSet h 31 0 (cellCrc h c.payload)

/-- What a lane sends leaves it unless a pattern replaces the lane's data (R151, R382). -/
def State.emitOn (s : State) (f : Nat) (o : Out) : State := if s.inPattern f then s else s.emit o

/-- What a fabric lane's transmitter sends now (R55, R382, R406). Log entry 64 (DEDUCED). -/
def State.fabLaneSends (s : State) (f : Nat) : LaneSignal :=
  let l := laneIdx f
  if s.fnState .fab = DISABLED then .off
  else if s.inPattern f then .pattern (s.rd (O.prbsMode l))
  else if s.rd (O.laneState l) = 0 then .off
  else if s.rd (O.laneState l) = 1 && s.trains l then .training
  else .slots

/-- A lane sends its oldest queued cell in a slot, unless it is held, or a pattern replaces its slots (R382, R385, R392, R401). -/
def State.laneSends (s : State) (f : Nat) : State :=
  match (s.flane f).queue with
  | [] => s
  | c :: t =>
    if s.laneHears f && (s.flane f).rxOk && !(s.flane f).xoff then
      let s := s.updLane f fun x => { x with queue := t }
      let s := (s.inc (O.txCells (groupOfLane f))).emit (.cell f (s.cellHeader f c) c.payload)
      s.perfEvent true 0x0130 1 { tc := some c.prio }
    else s

/-- Slots since the last POR: one per 11.2 ns, 67.2 root cycles (R382). -/
def State.slots (s : State) : Nat := s.ticks * 5 / 336

/-- At the start of a slot every lane sends. -/
def State.slotTick (s : State) : State :=
  if s.fabLive then (List.range 144).foldl State.laneSends s else s

/-! ### Core outputs (R343, R344) -/

/-- A core cell enters the FIFO of its output, towards its fabric group or egress admission (R343). -/
def State.coreOut (s : State) (o : Nat) (c : CoreCell) : State :=
  let s := s.updSwc fun x => { x with fifo := mupd x.fifo [] o fun l => l ++ [c] }
  if o < 8 then s.fabTake o 64 else s.admitHead o

/-- A stream after the release of the cell that it expects; the counted cycles begin anew when it holds no other. -/
def Reseq.released (r : Reseq) (c : CoreCell) : Reseq :=
  let l := r.held.erase c
  { expected := (r.expected + 1) % 1024, held := l, cycles := if l.isEmpty then 0 else r.cycles }

/-- The meaning of CORE_OUTPUT_RELEASE: the cell that a stream expects next is released while the FIFO has room (R344). -/
def execCoreOutputRelease (output input : Fin 16) (s : State) : Host.Outcome State Fault Refusal :=
  let o := output.val
  let r := s.reseqOf o input.val
  match r.held.find? fun c => c.seq == r.expected with
  | none => done s
  | some c =>
    if !s.coreDrains || (mget s.swc.fifo [] o).length ≥ 64 then done s
    else
      let s := (s.updReseq o input.val fun r => r.released c).countReseq o
      done ((s.inc (O.outCells o)).coreOut o c)

/-! ### Receiving (R387, R394, R395) -/

/-- A receiving stream. -/
def State.rxStream (s : State) (g source : Nat) : RxStream := mget s.fab.rx {} (g * 2048 + source)

/-- Change a receiving stream. -/
def State.updRx (s : State) (g source : Nat) (f : RxStream → RxStream) : State :=
  s.updFab fun x => { x with rx := mupd x.rx {} (g * 2048 + source) f }

/-- Cells that a stream occupies in the reassembly buffer: those held, and its released bytes rounded up.
Log entry 63 (DEDUCED and DESIGN CHOICE). -/
def RxStream.cells (x : RxStream) : Nat :=
  x.held.length + (x.partial_.length + (x.ready.map fun p => 32 + p.frame.length).sum + 255) / 256

/-- Cells in the reassembly buffer of a group. -/
def State.reasm (s : State) (g : Nat) : Nat :=
  ((s.fab.rx.filter fun e => e.1 / 2048 == g).map fun e => e.2.cells).sum

/-- REASM_OCCUPANCY and the XOFF that the group sends (R385). -/
def State.followReasm (s : State) (g : Nat) : State :=
  let n := s.reasm g
  let s := s.wr (O.reasmOccupancy g) (min n 65535)
  if n ≥ s.rd O.xoffCells then s.updFab fun x => { x with xoff := if x.xoff.contains g then x.xoff else g :: x.xoff }
  else if n < s.rd O.xonCells then s.updFab fun x => { x with xoff := x.xoff.filter fun y => y ≠ g }
  else s

/-- Cut whole packets off the bytes of a stream (R390). -/
def cutPackets (l : List Byte) : Nat → List TPkt × List Byte
  | 0 => ([], l)
  | fuel + 1 =>
    let n := 32 + hdrGet (BitVec.ofNat 256 (beNat (l.take 32))) 24 31 18
    if l.length < 32 || l.length < n then ([], l)
    else
      let r := cutPackets (l.drop n) fuel
      ({ hdr := BitVec.ofNat 256 (beNat (l.take 32)), frame := slice l 32 (n - 32) } :: r.1, r.2)

/-- The bytes of a packet that no cell has brought yet, from those that have come; where its header is not whole, those of the longest packet.
Log entry 63 (DEDUCED and DESIGN CHOICE). -/
def bytesToCome (l : List Byte) : Nat :=
  if l.isEmpty then 0
  else if l.length < 32 then 16416
  else 32 + hdrGet (BitVec.ofNat 256 (beNat (l.take 32))) 24 31 18 - l.length

/-- A good cell is released in order: the stream, and the packets dropped (R395). A packet that a cell continues and that began in a lost cell is
counted; one that was cut off by the lost cell already was. -/
def RxStream.take (x : RxStream) (c : RxCell) : RxStream × Nat :=
  let all := c.payload.take c.valid
  let from_ := if c.start = 0x1FF then [] else all.drop c.start
  let r : List Byte × Bool × Nat :=
    if x.skip then (from_, c.start = 0x1FF, b2n (c.cont && x.after == 0))
    else if x.partial_.isEmpty then (if c.cont then (from_, c.start = 0x1FF, 1) else (all, false, 0))
    else if c.cont then (x.partial_ ++ all, false, 0)
    else (from_, false, 1)
  let p := cutPackets r.1 16
  let after := if !r.2.1 then 0 else if r.2.2 = 1 then 16416 else x.after - c.valid
  ({ x with partial_ := p.2, skip := r.2.1, after := after, ready := x.ready ++ p.1 }, r.2.2)

/-- A cell of a stream is lost, with up to 256 bytes of the packet begun before it: the stream, and the packets dropped (R395). -/
def RxStream.lose (x : RxStream) : RxStream × Nat :=
  let rest := if x.skip then x.after else bytesToCome x.partial_
  ({ x with partial_ := [], skip := true, after := rest - 256, expected := x.expected.map fun e => (e + 1) % 65536 }, b2n (!x.partial_.isEmpty))

/-- Several cells in a row of a stream are lost. -/
def RxStream.loseMany (x : RxStream) : Nat → RxStream × Nat
  | 0 => (x, 0)
  | n + 1 =>
    let r := x.lose
    let q := RxStream.loseMany r.1 n
    (q.1, r.2 + q.2)

/-- Release held cells in order; the packets dropped. -/
def RxStream.advance (x : RxStream) : Nat → RxStream × Nat
  | 0 => (x, 0)
  | fuel + 1 =>
    match x.expected with
    | none => (x, 0)
    | some e =>
      match x.held.find? fun c => c.seq == e with
      | none => (x, 0)
      | some c =>
        let r := ({ x with held := x.held.erase c, expected := some ((e + 1) % 65536) } : RxStream).take c
        let q := RxStream.advance r.1 fuel
        (q.1, r.2 + q.2)

/-- Release what a stream can. -/
def State.advanceRx (s : State) (g source : Nat) : State :=
  let r := (s.rxStream g source).advance 4097
  (s.updRx g source fun _ => r.1).add (O.rxPacketsLost g) r.2

/-- Give up the cell that a stream expects (R394, R407). -/
def State.loseRx (s : State) (g source : Nat) : State :=
  let r := (s.rxStream g source).lose
  let s := ((s.updRx g source fun _ => r.1).add (O.rxPacketsLost g) r.2).inc (O.reseqLost g)
  let id := 0x03E0 * 65536 + g
  let s := if mget s.host.since 0 id = 0 then s.updFab fun x => { x with loss := mput x.loss g source } else s
  (s.raiseCounted id 250000 3 0x03E0 0x0E ERROR g (mget s.fab.loss source g)).advanceRx g source

/-- Give up every gap that a stream has open (R398). -/
def State.loseGaps (s : State) (g source : Nat) : Nat → State
  | 0 => s
  | fuel + 1 => if (s.rxStream g source).held.isEmpty then s else State.loseGaps (s.loseRx g source) g source fuel

/-- Put a cell among others in the order of their distance from a number. -/
def insertCell (e : Nat) (c : RxCell) : List RxCell → List RxCell
  | [] => [c]
  | d :: t => if (c.seq + 65536 - e) % 65536 ≤ (d.seq + 65536 - e) % 65536 then c :: d :: t else d :: insertCell e c t

/-- Packets that a stream holds in part or in cells not yet released: what a resync or a stop drops (R394, R395).
Log entry 63 (DEDUCED and DESIGN CHOICE). -/
def RxStream.dropCount (x : RxStream) : Nat :=
  let step := fun (a : RxStream × Nat × Nat) (c : RxCell) =>
    let y := a.1.loseMany ((c.seq + 65536 - a.2.2) % 65536)
    let z := y.1.take c
    (z.1, a.2.1 + y.2 + z.2, (c.seq + 1) % 65536)
  let e := x.expected.getD 0
  let cells := x.held.foldr (insertCell e) []
  let r := cells.foldl step ({ x with ready := [] }, 0, e)
  r.2.1 + r.1.ready.length + b2n (!r.1.partial_.isEmpty)

/-- A resync (R394). Log entry 63 (DEDUCED and DESIGN CHOICE). -/
def State.resync (s : State) (g source seq : Nat) : State :=
  let n := (s.rxStream g source).dropCount
  let s := (s.add (O.rxPacketsLost g) n).inc (O.streamResyncs g)
  s.updRx g source fun x => { expected := some seq, ready := x.ready }

/-- A cell taken into its stream (R394). -/
def State.holdCell (s : State) (g source : Nat) (c : RxCell) (sync : Bool) : State :=
  if s.reasm g ≥ 4096 then s.inc (O.reasmOverflows g)
  else
    let s := if sync then s.resync g source c.seq else s
    match (s.rxStream g source).expected with
    | none => s.inc (O.lateCells g)
    | some e =>
      if (c.seq + 65536 - e) % 65536 > 4095 || (s.rxStream g source).held.any fun x => x.seq == c.seq then s.inc (O.lateCells g)
      else
        let s := (s.updRx g source fun x => { x with held := x.held ++ [c] }).inc (O.rxCells g)
        (s.advanceRx g source).followReasm g

/-- The meaning of CELL_RECEIVED: a slot-aligned lane takes a cell until FAB has stopped, whatever its plane's state (R384, R387, R400, R406). -/
def execCellReceived (lane : Fin 144) (header : BitVec 128) (payload : List Byte) (s : State) : Host.Outcome State Fault Refusal :=
  let f := lane.val
  let g := groupOfLane f
  if !s.fabLive || !s.laneHears f || !(s.flane f).aligned then done s
  else if cellGet header 31 0 ≠ cellCrc header payload then done (s.inc (O.rxCrcErrors g))
  else if cellGet header 127 124 ≠ 4 || cellGet header 56 32 ≠ 0 || cellGet header 120 118 ≠ g
      || cellGet header 117 107 ≠ s.myDevice then done (s.inc (O.rxDiscards g))
  else if cellGet header 60 58 ≠ planeOfLane f then done ((s.inc (O.rxDiscards g)).inc (O.beaconMismatches (planeOfLane f)))
  else
    let c : RxCell := { seq := cellGet header 95 80, valid := cellGet header 79 71, cont := bit header.toNat 70,
                        start := cellGet header 69 61, payload := payload, time := s.pipe }
    let s := s.perfEvent true 0x0131 1 { tc := some (cellGet header 123 121) }
    done (s.holdCell g (cellGet header 106 96) c (bit header.toNat 57))

/-- Is a stream held by a missing cell? -/
def State.gapOpen (s : State) (g source : Nat) : Bool :=
  s.fabLive && !(s.rxStream g source).held.isEmpty

/-- The meaning of FAB_RESEQ_TIMEOUT (R394, R398). -/
def execFabReseqTimeout (g : Fin 8) (source : Fin 2048) (s : State) : Host.Outcome State Fault Refusal :=
  if s.gapOpen g.val source.val then done ((s.loseRx g.val source.val).followReasm g.val) else done s

/-- Can core input 8 + g take a packet (R341, R342, R395)? -/
def State.inputTakes (s : State) (g : Nat) (p : TPkt) : Bool :=
  match s.coreOutput (8 + g) p.hdr with
  | some o => s.coreRoom (8 + g) o p.frame.length
  | none => true

/-- The stream of a group whose turn it is: those whose first rebuilt packet can be taken take turns (R395). -/
def State.streamTurn (s : State) (g : Nat) : Option Nat :=
  inTurn (mget s.fab.turn 0 g) ((s.fab.rx.filter fun e =>
    e.1 / 2048 == g && ((e.2.ready.head?).map fun p => s.inputTakes g p).getD false).map fun e => e.1 % 2048)

/-- The meaning of REASSEMBLY_RELEASE: core input 8 + g takes the first rebuilt packet of the stream whose turn it is (R341, R395). -/
def execReassemblyRelease (g : Fin 8) (source : Fin 2048) (s : State) : Host.Outcome State Fault Refusal :=
  if !s.fabLive || s.streamTurn g.val != some source.val then done s
  else match (s.rxStream g.val source.val).ready with
    | [] => done s
    | p :: t =>
      let s := (s.updRx g.val source.val fun x => { x with ready := t }).inc (O.rxPackets g.val)
      let s := s.updFab fun x => { x with turn := mput x.turn g.val (source.val + 1) }
      done ((s.followReasm g.val).enterCore (8 + g.val) p)

/-! ### Planes and the watch (R396 to R401) -/

/-- A plane beside its objects. -/
def State.plane (s : State) (p : Nat) : FabPlane := mget s.fab.planes {} p

/-- Change a plane. -/
def State.updPlane (s : State) (p : Nat) (f : FabPlane → FabPlane) : State :=
  s.updFab fun x => { x with planes := mupd x.planes {} p f }

/-- Is the sideband path watched (R397)? -/
def State.sideWatched (s : State) (p : Nat) : Bool := s.rd (O.watchMode p) == 0

/-- PATHS of a plane. -/
def State.pathBits (s : State) (p : Nat) : Nat :=
  b2n (decide ((s.plane p).missIn < 6)) + 2 * b2n (decide ((s.plane p).missSide < 6) && s.sideWatched p)

/-- Has no watched path missed a beacon since its last one? -/
def State.planeClean (s : State) (p : Nat) : Bool :=
  (s.plane p).missIn == 0 && (!s.sideWatched p || (s.plane p).missSide == 0)

/-- SPRAY_PLANES (R402). -/
def State.spray (s : State) : Nat := ((List.range 6).map fun p => if s.rd (O.planeState p) = 2 then 2 ^ p else 0).sum

/-- A plane takes a state: its lanes' usability, the spray set and READY follow. -/
def State.setPlane (s : State) (p v : Nat) : State :=
  if s.rd (O.planeState p) = v then s
  else
    let s := s.wr (O.planeState p) v
    ((s.wr O.sprayPlanes s.spray).followPlane p).protFollow

/-- A plane enters UP (R400, R401, R407). Log entry 64 (DEDUCED). -/
def State.planeUp (s : State) (p : Nat) : State :=
  let old := s.rd (O.planeState p)
  let s := (s.updPlane p fun x => { x with waitEnd := none }).setPlane p 2
  s.raise 6 0x06E1 0x0E NOTICE p old s.spray

/-- A plane in UP fails (R398). Log entry 30 (DEDUCED and DESIGN CHOICE). -/
def State.planeFail (s : State) (p : Nat) : State :=
  let s := ((s.inc (O.planeFailures p)).wr (O.lastFailTime p) s.pclk).setPlane p 3
  let n := ((List.range 24).map fun i => (s.flane (24 * p + i)).queue.length).sum
  let s := (List.range 24).foldl (fun s i => s.updLane (24 * p + i) fun x => { x with queue := [] }) s
  let s := (s.add (O.cellsDiscarded p) n).updPlane p fun x => { x with window := some (s.pipe + 2048) }
  s.raise 6 0x06E0 0x0E ERROR p n (s.rd (O.planeFailures p))

/-- Is every watched path of a plane alive (R400)? -/
def State.pathsAlive (s : State) (p : Nat) : Bool := s.pathBits p == if s.sideWatched p then 3 else 1

/-- Follow a beacon or, with `miss`, a miss on a path: PATHS, the plane's state, and PLANE_PATH while it stays UP (R397 to R400).
Log entries 30 (DEDUCED and DESIGN CHOICE), 64 (DEDUCED). -/
def State.followWatch (s : State) (p : Nat) (miss : Bool) : State :=
  let old := s.rd (O.planePaths p)
  let now := s.pathBits p
  let s := s.wr (O.planePaths p) now
  match s.rd (O.planeState p) with
  | 2 =>
    if now = 0 then s.planeFail p
    else if now ≠ old then s.raise 6 0x06E2 0x0E WARNING p now 2 else s
  | 3 =>
    if !miss && s.pathsAlive p then
      (s.updPlane p fun x => { x with waitEnd := some (s.pclk + s.rd O.fabWtr) }).setPlane p 4
    else s
  | 4 => if miss then (s.updPlane p fun x => { x with waitEnd := none }).setPlane p 3 else s
  | _ => s

/-- A valid beacon arrives on a path. Log entry 64 (DEDUCED). -/
def State.goodBeacon (s : State) (p : Nat) (side : Bool) : State :=
  (s.updPlane p fun x => if side then { x with missSide := 0 } else { x with missIn := 0 }).followWatch p false

/-- The meaning of FRAMING_RECEIVED: alignment, RX_OK, XOFF and the in-band beacon of a LOCKED lane (R383 to R385, R397); a beacon does not need
alignment. -/
def execFramingReceived (lane : Fin 144) (framing : BitVec 64) (s : State) : Host.Outcome State Fault Refusal :=
  let f := lane.val
  let w := framing.toNat
  if !s.laneHears f then done s
  else if bits w 63 56 = 0xB8 && bits w 7 0 = crc8 ((beBytes 8 w).take 7) then
    let s := s.updLane f fun x => { x with
      good := min (x.good + 1) 3, bad := 0, aligned := x.aligned || decide (2 ≤ x.good), rxOk := bit w 50, xoff := bit w 49 }
    let s := s.followLane f
    let p := planeOfLane f
    if bit w 54 && s.fabLive then
      (if bits w 53 51 = p then done (s.goodBeacon p false) else done (s.inc (O.beaconMismatches p)))
    else done s
  else done (s.updLane f fun x => { x with good := 0, bad := min (x.bad + 1) 3, aligned := x.aligned && decide (x.bad < 2) })

/-- The meaning of SIDEBAND_BEACON (R396, R397). -/
def execSidebandBeacon (plane : Fin 6) (frame : BitVec 32) (s : State) : Host.Outcome State Fault Refusal :=
  let p := plane.val
  let w := frame.toNat
  if !s.fabLive || !s.sideWatched p || bits w 31 24 ≠ 0xE5 || bits w 7 0 ≠ crc8 ((beBytes 4 w).take 3) then done s
  else if bits w 23 21 = p then done (s.goodBeacon p true)
  else done (s.inc (O.beaconMismatches p))

/-- The meaning of BEACON_MISS (R397). -/
def execBeaconMiss (plane : Fin 6) (sideband : Bool) (s : State) : Host.Outcome State Fault Refusal :=
  let p := plane.val
  if !s.fabLive || (sideband && !s.sideWatched p) then done s
  else
    let s := s.inc (if sideband then O.sidebandMisses p else O.inbandMisses p)
    let s := s.updPlane p fun x =>
      if sideband then { x with missSide := min (x.missSide + 1) 6 } else { x with missIn := min (x.missIn + 1) 6 }
    done (s.followWatch p true)

/-- The framing that a lane transmits in a slot (R383): with a cell or empty, and the number of the beacon it carries. -/
def State.txFraming (s : State) (f : Nat) (cell : Bool) (beacon : Option Nat) : BitVec 64 :=
  let w := 0xB8 * 2 ^ 56 + b2n cell * 2 ^ 55 + b2n beacon.isSome * 2 ^ 54 + planeOfLane f * 2 ^ 51
    + b2n (s.flaneLocked f && (s.flane f).aligned) * 2 ^ 50 + b2n (s.fab.xoff.contains (groupOfLane f)) * 2 ^ 49
    + beacon.getD 0 % 65536 * 2 ^ 32
  BitVec.ofNat 64 (w + crc8 ((beBytes 8 w).take 7))

/-- The meaning of BEACON_SEND (R396). Log entry 63 (DEDUCED and DESIGN CHOICE). -/
def execBeaconSend (s : State) : Host.Outcome State Fault Refusal :=
  if !s.running .fab then done s
  else
    let s := s.updFab fun x => { x with beacons := (x.beacons + 1) % 65536 }
    done ((List.range 144).foldl (fun s f =>
      s.emitOn f (.beacon f (planeOfLane f) (s.flaneLocked f && (s.flane f).aligned) (s.fab.xoff.contains (groupOfLane f)) s.fab.beacons)) s)

/-- The meaning of REMOVAL_WINDOW_END: every gap still open is declared lost (R398). -/
def execRemovalWindowEnd (plane : Fin 6) (s : State) : Host.Outcome State Fault Refusal :=
  if (s.plane plane.val).window.isNone then done s
  else
    let s := s.updPlane plane.val fun x => { x with window := none }
    let s := s.fab.rx.foldl (fun s e => s.loseGaps (e.1 / 2048) (e.1 % 2048) 4097) s
    done ((List.range 8).foldl State.followReasm s)

/-- The meaning of WTR_EXPIRY (R400). Log entry 6 (DEDUCED and DESIGN CHOICE). -/
def execWtrExpiry (plane : Fin 6) (s : State) : Host.Outcome State Fault Refusal :=
  if s.rd (O.planeState plane.val) = 4 then done (s.planeUp plane.val) else done s

/-- The meaning of JOIN_COMPLETE (R401). -/
def execJoinComplete (plane : Fin 6) (s : State) : Host.Outcome State Fault Refusal :=
  if s.rd (O.planeState plane.val) = 1 && s.planeClean plane.val then done (s.planeUp plane.val) else done s

/-- WTR_LEFT of a plane. -/
def State.planeLeft (s : State) (p : Nat) : Nat :=
  match (s.plane p).waitEnd with
  | some e => e - s.pclk
  | none => 0

/-- A write of PLANE_ADMIN (R401). Log entry 64 (DEDUCED). -/
def cmdPlaneAdmin (p v : Nat) (s : State) : State × Status :=
  if v > 1 then (s, .range)
  else if s.rd (O.planeAdmin p) = v then (s, .ok)
  else
    let s := s.wr (O.planeAdmin p) v
    if !s.fabLive then (s, .ok)
    else if v = 1 then ((s.updPlane p fun x => { x with waitEnd := none }).setPlane p 5, .ok)
    else (s.setPlane p 1, .ok)

/-- The meaning of PLANE_ADMIN. -/
def execPlaneAdmin (p : Path) (plane : Fin 6) (value : BitVec 8) (s : State) : Host.Outcome State Fault Refusal :=
  done (access p (O.planeAdmin plane.val) (leBytes 1 value.toNat) (cmdPlaneAdmin plane.val value.toNat) s)

/-- Each PIPE cycle of XOFF, sent and received (R385, R404). -/
def State.fabTick (s : State) : State :=
  if !s.fabLive then s
  else (List.range 8).foldl (fun s g =>
    let s := s.followReasm g
    let s := if s.fab.xoff.contains g then s.inc (O.xoffSentCycles g) else s
    if (List.range 18).any (fun k => s.flaneLocked (rotationLane g k) && (s.flane (rotationLane g k)).xoff) then
      s.inc (O.xoffReceivedCycles g) else s) s

/-! ### Lifecycle (R405, R406) -/

/-- What START of FAB checks. -/
def State.fabCheckStart (s : State) : Status :=
  if s.rd O.myDevice = 0xFFFF then .range
  else if bits (s.rd O.phyPllLock) 15 8 ≠ 0xFF then .internal
  else .ok

/-- FAB reaches RUNNING: streams restart, lanes that are off start training, planes join. Log entry 64 (DEDUCED). -/
def State.fabUp (s : State) : State :=
  let s := s.updFab fun x => { x with me := s.rd O.myDevice, tx := [], rx := [], waiting := [], planes := [] }
  let s := (List.range 144).foldl (fun s f =>
    let s := s.takeLaneCfg (laneIdx f)
    if s.rd (O.laneState (laneIdx f)) = 0 then s.trainLane (laneIdx f) else s) s
  let s := (List.range 6).foldl (fun s p => (s.wr (O.planePaths p) 0).setPlane p (if s.rd (O.planeAdmin p) = 1 then 5 else 1)) s
  (List.range 8).foldl (fun s g => (s.followReasm g).fabTake g 64) s

/-- Cells to be sent, cells that a gap holds, and rebuilt packets that wait: FAB's work in hand (R406). -/
def State.fabHeld (s : State) : Nat :=
  (s.fab.waiting.map fun e => e.2.length).sum + (s.fab.lanes.map fun e => e.2.queue.length).sum
    + (s.fab.tx.filter fun e => !e.2.bytes.isEmpty).length + (s.fab.rx.map fun e => e.2.held.length + e.2.ready.length).sum

/-- FAB reaches STOPPED: what is incomplete is dropped, every plane reads DOWN. -/
def State.fabStopped (s : State) : State :=
  let s := s.fab.rx.foldl (fun s e => s.add (O.rxPacketsLost (e.1 / 2048)) e.2.dropCount) s
  let s := s.updFab fun x => { x with rx := [], planes := [], xoff := [] }
  let s := (List.range 8).foldl (fun s g => s.wr (O.reasmOccupancy g) 0) s
  (List.range 6).foldl (fun s p => (s.wr (O.planePaths p) 0).setPlane p 0) s

/-- What a forced stop leaves of a receiving stream. -/
def RxStream.cleared (x : RxStream) : RxStream := { expected := x.expected }

/-- A forced stop discards cells and rebuilt packets, and counts the packets. -/
def State.fabForced (s : State) : State :=
  let s := s.fab.rx.foldl (fun s e => s.add (O.rxPacketsLost (e.1 / 2048)) (e.2.ready.length + e.2.dropCount)) s
  s.updFab fun x => { x with
    waiting := [], tx := x.tx.map (fun e => (e.1, { e.2 with bytes := [] }))
    lanes := x.lanes.map fun e => (e.1, { e.2 with queue := [] }), rx := x.rx.map fun e => (e.1, e.2.cleared) }

/-- DISABLE switches the fabric lanes off. -/
def State.fabDisable (s : State) : State :=
  (List.range 144).foldl (fun s f => (s.wr (O.laneState (laneIdx f)) 0).fabLaneLost f)
    (s.updFab fun x => { me := x.me, beacons := x.beacons, lanes := x.lanes })

end Sys2Proof.Machine
end

