-- ==== Sys2Proof/Machine/Links.lean ====
section
/-!
DEFINITION. What line and fabric lanes, ports and pairs do to the other chapters (R139, R141, R145, R146, R190, R420).
-/

namespace Sys2Proof.Machine

/-! ### Pairs and ports (R139, R141) -/

/-- Did a port change its lanes or role between two states (R139, R420)? -/
def State.portChanged (old new : State) (p : Nat) : Bool :=
  portLanes (old.modeOf p) p != portLanes (new.modeOf p) p || old.rd (O.portRole p) != new.rd (O.portRole p)

/-- A reconfigured port: its protection mode returns to NONE (R420), and the order of its packets restarts (R198). -/
def State.portReconfigured (s : State) (p : Nat) : State :=
  let s := s.upk fun x => { x with
    baseIn := mset x.baseIn 0 p (mget x.seqIn 0 p), baseEg := mset x.baseEg 0 p (mget x.seqEg 0 p) }
  if s.rd (O.protMode p) = 0 then s else s.setProtMode p 0

/-- What a change of pairs does beyond LINE: groups lose ports that changed (R190), and those ports start afresh. Log entry 42 (DEDUCED). -/
def State.pairsChanged (old s : State) : State :=
  let ch := State.portChanged old s
  let s := (List.range 96).foldl (fun s p => if ch p then s.portReconfigured p else s) s
  (s.otnUnbind ch).losAll.protFollow

/-- PAIR_APPLY (R139). -/
def cmdPairApply (k : Nat) (s : State) : State × Status :=
  let r := s.pairApply k
  if r.2 = .ok then (s.pairsChanged r.1, .ok) else r

/-- The meaning of PAIR_APPLY. Log entry 42 (DEDUCED). -/
def execPairApply (p : Path) (k : Fin 4) (arg : BitVec 24) (s : State) : Host.Outcome State Fault Refusal :=
  done (access p (O.pairApply k.val) (cmdData 1 arg) (noArg arg (cmdPairApply k.val)) s)

/-- ADMIN_UP with what follows it in OTN (R170). -/
def cmdAdminUpAll (p : Nat) (up : Bool) (s : State) : State × Status :=
  let r := cmdAdminUp p up s
  (r.1.losAll, r.2)

/-- The meaning of ADMIN_UP. Log entry 41 (DEDUCED). -/
def execAdminUp (p : Path) (port : Fin 96) (up : Bool) (s : State) : Host.Outcome State Fault Refusal :=
  done (access p (O.adminUp port.val) (leBytes 1 (b2n up)) (cmdAdminUpAll port.val up) s)

/-! ### Lanes (R145, R146, R384) -/

/-- What follows a lane's change of state: its port, the SyncE outputs and OTN groups, or its fabric lane. -/
def State.laneFollow (s : State) (l : Nat) : State :=
  if l < 96 then
    match s.portOfLane l with
    | some p => (s.portRefresh p).synceAll.losAll
    | none => s.synceAll
  else s.followLane (l - 96)

/-- The meaning of LANE_LOCKED. -/
def execLaneLocked (lane : Fin 240) (taps : List Byte) (snr : Nat) (s : State) : Host.Outcome State Fault Refusal :=
  if s.rd (O.laneState lane.val) = 1 then done ((s.lockLane lane.val taps snr).laneFollow lane.val) else done s

/-- The meaning of LANE_TRAIN_FAILED. -/
def execLaneTrainFailed (lane : Fin 240) (snr : Nat) (s : State) : Host.Outcome State Fault Refusal :=
  if s.rd (O.laneState lane.val) = 1 then
    done ((s.failTraining lane.val snr (if lane.val < 96 then 0x04 else 0x0E)).laneFollow lane.val)
  else done s

/-- The meaning of LANE_TRAIN_RETRY: a lane that failed an attempt starts again. -/
def execLaneTrainRetry (lane : Fin 240) (s : State) : Host.Outcome State Fault Refusal :=
  if s.rd (O.laneState lane.val) = 3 then done ((s.trainLane lane.val).laneFollow lane.val) else done s

/-- The meaning of LANE_SIGNAL_LOSS: a LOCKED lane has no signal (`los`), or its receiver lost lock; it trains again. -/
def execLaneSignalLoss (lane : Fin 240) (los : Bool) (s : State) : Host.Outcome State Fault Refusal :=
  let l := lane.val
  if s.rd (O.laneState l) ≠ 2 then done s
  else if l < 96 then done (s.loseLane l los).synceAll.losAll
  else done (((s.inc (O.lockLosses l)).trainLane l).fabLaneLost (l - 96))

/-- The meaning of LINK_DOWN_HOLD_EXPIRY: LINK_DOWN_HOLD has passed and the port is still not UP. -/
def execLinkDownHoldExpiry (port : Fin 96) (s : State) : Host.Outcome State Fault Refusal :=
  match mfind s.line.held port.val with
  | some cause => done ({ s with line := { s.line with held := mdel s.line.held port.val } }.reportDown port.val cause)
  | none => done s

end Sys2Proof.Machine
end

