-- ==== Sys2Proof/Machine/Perf.lean ====
section
/-!
DEFINITION. Performance and statistics counters (chapter 17): freeze and snapshot, STAT_CMD, and the export of statistics pairs.
-/

namespace Sys2Proof.Machine

/-- Change PERF's state. -/
def State.updPerf (s : State) (f : PerfSt → PerfSt) : State := { s with perf := f s.perf }

/-! ### Freeze (R477, R479) -/

/-- FROZEN: a FREEZE command is in force, or the pin holds the counters while its mode is FREEZE. Log entry 71 (DEDUCED). -/
def State.followFreeze (s : State) : State :=
  s.wr O.frozen (b2n (s.perf.latch || (s.rd O.snapPinMode == 2 && s.perf.snapHigh)))

/-- FREEZE and UNFREEZE: refused while the pin governs. -/
def cmdFreeze (on : Bool) (s : State) : State × Status :=
  if s.rd O.snapPinMode = 2 then (s, .busy)
  else ((s.updPerf fun p => { p with latch := on }).followFreeze, .ok)

/-- The meaning of FREEZE. -/
def execFreeze (p : Path) (arg : BitVec 24) (s : State) : Host.Outcome State Fault Refusal :=
  done (access p O.perfCmd (cmdData 1 arg) (noArg arg (cmdFreeze true)) s)

/-- The meaning of UNFREEZE. -/
def execUnfreeze (p : Path) (arg : BitVec 24) (s : State) : Host.Outcome State Fault Refusal :=
  done (access p O.perfCmd (cmdData 2 arg) (noArg arg (cmdFreeze false)) s)

/-! ### Snapshot (R478, R479) -/

/-- Is a request made now merged into the previous snapshot: does it arrive within 16 XCLK cycles of that edge? Log entry 71 (DEDUCED). -/
def State.snapMerges (s : State) : Bool :=
  match s.perf.lastSnap with
  | some t => decide (s.ticks / 6 ≤ t / 6 + 16)
  | none => false

/-- Copy all 96 counters and count the snapshot. -/
def State.snapCopy (s : State) : State :=
  let s := (List.range 96).foldl (fun s n => s.wr (O.pcSnap n) (s.rd (O.pcValue n))) s
  (s.inc O.snapGen).updPerf fun p => { p with lastSnap := some s.ticks }

/-- A snapshot request. -/
def State.snapshot (s : State) : State := if s.snapMerges then s.inc O.snapMerged else s.snapCopy

/-- The meaning of SNAPSHOT. -/
def execSnapshot (p : Path) (arg : BitVec 24) (s : State) : Host.Outcome State Fault Refusal :=
  done (access p O.perfCmd (cmdData 3 arg) (noArg arg fun s => (s.snapshot, .ok)) s)

/-- The meaning of SNAP_PIN (R479): a level that the pin has held for 8 XCLK cycles is taken. -/
def execSnapPin (level : Bool) (s : State) : Host.Outcome State Fault Refusal :=
  let rise := level && !s.perf.snapHigh
  let s := (s.updPerf fun p => { p with snapHigh := level }).followFreeze
  done (if rise && s.rd O.snapPinMode == 1 then s.snapshot else s)

/-! ### STAT_CMD (R484, R485) -/

/-- The refusal of a STAT_CMD, if any: the reserved bit, a pair that does not exist, an interface that is not RUNNING. -/
def State.statRefused (s : State) (arg : BitVec 24) : Option Status :=
  let pr := arg.toNat % 8388608
  if arg.toNat ≥ 8388608 || pr = 0 || pr > 6291455 then some .range
  else if extPair pr && !s.qifUp (pairIf pr) then some .functionDisabled
  else none

/-- A STAT_CMD: STAT_RESULT takes its status. Log entry 72 (DEDUCED and DESIGN CHOICE). -/
def statCmd (arg : BitVec 24) (f : Nat → State → State) (s : State) : State × Status :=
  match s.statRefused arg with
  | some st => (s.wrSt O.statResult st, st)
  | none => ((f (arg.toNat % 8388608) s).wrSt O.statResult .ok, .ok)

/-- A read of pair `p` into STAT_BYTES and STAT_PACKETS by a master, with clear or without, and the errors it meets (R485, R448). -/
def State.statCapture (s : State) (master p : Nat) (clear : Bool) (read : PairRead) : State :=
  let s := s.pairCheck2 p read.parityBad read.ecc read.part.val
  let s := if extPair p then s.qdrTouch (pairIf p) p else s.pairSram p true clear (.by master)
  let v := s.pair p
  let s := (s.wr O.statBytes v.1).wr O.statPackets v.2
  if clear then s.setPair p (0, 0) else s

/-- The meaning of STAT_READ. -/
def execStatRead (p : Path) (arg : BitVec 24) (read : PairRead) (s : State) : Host.Outcome State Fault Refusal :=
  done (access p O.statCmd (cmdData 1 arg) (statCmd arg fun n s => s.statCapture (Path.master p) n false read) s)

/-- The meaning of STAT_READ_CLEAR. -/
def execStatReadClear (p : Path) (arg : BitVec 24) (read : PairRead) (s : State) : Host.Outcome State Fault Refusal :=
  done (access p O.statCmd (cmdData 2 arg) (statCmd arg fun n s => s.statCapture (Path.master p) n true read) s)

/-- A write of pair `n` from STAT_BYTES and STAT_PACKETS by a master. -/
def State.statStore (master n : Nat) (s : State) : State :=
  let s := if extPair n then s.qdrTouch (pairIf n) n else s.pairSram n false true (.by master)
  s.setPair n (s.rd O.statBytes, s.rd O.statPackets)

/-- The meaning of STAT_WRITE. -/
def execStatWrite (p : Path) (arg : BitVec 24) (s : State) : Host.Outcome State Fault Refusal :=
  done (access p O.statCmd (cmdData 3 arg) (statCmd arg (State.statStore (Path.master p))) s)

/-! ### Export (R486, R487) -/

/-- Does ring `n` serve export set `e`? -/
def State.serves (s : State) (e n : Nat) : Bool := s.rd (O.dringKind n) == 2 && s.rd (O.dringTarget n) == e

/-- The ring that serves set `e`: ARMED, or HALTING with descriptors in flight. Log entry 72 (DEDUCED and DESIGN CHOICE). -/
def State.exportRing (s : State) (e : Nat) : Option Nat :=
  (List.range 48).find? fun n => s.live n && s.serves e n

/-- The meaning of EXPORT_PERIOD: a multiple of EXP_PERIOD falls. -/
def execExportPeriod (e : Fin 16) (s : State) : Host.Outcome State Fault Refusal :=
  let e := e.val
  if !s.running .perf then done s
  else if (mfind s.perf.sweeps e).isSome then done (s.inc (O.expOverruns e))
  else if (List.range 48).any (fun n => s.armed n && s.serves e n) && s.rd (O.expCount e) != 0 then
    let s := s.inc (O.expSweeps e)
    let w : Sweep := { next := s.rd (O.expFirst e), left := s.rd (O.expCount e), sweep := s.rd (O.expSweeps e),
                       clear := s.rd (O.expClear e) == 1 }
    done (s.updPerf fun p => { p with sweeps := mput p.sweeps e w })
  else done s

/-- The record of a pair (R487). -/
def exportRecord (p sweep : Nat) (v : Nat × Nat) : List Byte :=
  leBytes 4 p ++ leBytes 4 sweep ++ leBytes 8 v.1 ++ leBytes 8 v.2

/-- What a sweep reads of pair `p`, after the errors that the read meets (R485, R448). While the interface of an extension
pair does not run, what it reads is open. Log entry 72 (DEDUCED and DESIGN CHOICE). -/
def State.exportRead (s : State) (p : Nat) (clear : Bool) (read : PairRead) : State × (Nat × Nat) :=
  if extPair p && !s.qifUp (pairIf p) then
    let a := s.open_
    let b := a.2.open_
    (b.2, (a.1.toNat, b.1.toNat))
  else
    let s := s.pairCheck2 p read.parityBad read.ecc read.part.val
    let s := if extPair p then s.qdrTouch (pairIf p) p else s.pairSram p true clear (.by 1)
    (if clear then s.setPair p (0, 0) else s, s.pair p)

/-- The descriptor in flight that holds records of a sweep completes with their number. -/
def State.exportEnd (s : State) (n : Nat) : State :=
  match (s.buffers n).head? with
  | some f => if f.length = 0 then s else s.tookEffect n f.slot .ok f.length (f.length / 24)
  | none => s

/-- Can the sweep of set `e` read now: does its ring hold a descriptor with room, and can its record be written? -/
def State.exportReady (s : State) (e : Nat) : Bool :=
  (mfind s.perf.sweeps e).isSome && s.running .perf && s.canSend &&
    (s.exportRing e).any fun n => (s.buffers n).head?.isSome && (s.dring n).waitPage.isNone

/-- The set whose turn a read is: sets that can read take turns (R486). Log entry 72 (DEDUCED and DESIGN CHOICE). -/
def State.exportTurn (s : State) : Option Nat := inTurn s.perf.turn ((List.range 16).filter s.exportReady)

/-- The meaning of EXPORT_PAIR_READ: the sweep of a set reads its next pair, once a posted descriptor has room and its turn has come. -/
def execExportPairRead (turn : ExportTurn) (s : State) : Host.Outcome State Fault Refusal :=
  let e := turn.set.val
  match mfind s.perf.sweeps e, s.exportRing e with
  | some w, some n =>
    match (s.buffers n).head? with
    | none => done s
    | some f =>
      if s.exportTurn != some e then done s
      else
      let s := s.fenceFirst n f
      if s.fenced n f then done s
      else match s.missingPage (f.desc.bufAddr + f.length) 24 with
        | some page => done (s.askPage n page f.slot)
        | none =>
          let r := s.exportRead w.next w.clear turn.read
          let s := r.1.writeBuffer (f.desc.bufAddr + f.length)
            (exportRecord w.next w.sweep r.2)
          let len := f.length + 24
          let s := s.updD n fun d => { d with flight := setFlight d.flight f.slot fun x => { x with length := len } }
          let last := decide (w.left ≤ 1)
          let s := if last || decide (len + 24 > f.desc.bufLength) then s.exportEnd n else s
          let w' : Sweep := { w with next := w.next + 1, left := w.left - 1 }
          done (s.updPerf fun p => { p with turn := (e + 1) % 16, sweeps := if last then mdel p.sweeps e else mput p.sweeps e w' })
  | _, _ => done s

/-! ### Lifecycle (R488) -/

/-- STOP ends every sweep; the descriptor that a sweep was filling completes. -/
def State.perfStopped (s : State) : State :=
  let s := s.perf.sweeps.foldl (fun s (w : Nat × Sweep) =>
    match s.exportRing w.1 with
    | some n => s.exportEnd n
    | none => s) s
  s.updPerf fun p => { p with sweeps := [] }

/-- DISABLE zeroes the counters and their copies, the on-chip pairs and the counts, and ends a freeze. -/
def State.perfDisable (s : State) : State :=
  let s := (List.range 96).foldl (fun s n => (s.wr (O.pcValue n) 0).wr (O.pcSnap n) 0) s
  let s := (((s.wr O.statUpdates 0).wr O.statSkipped 0).wr O.statExtStalls 0).wr O.statParityResets 0
  let s := ((s.wr O.statResult 0).wr O.snapMerged 0)
  let s := (List.range 16).foldl (fun s e => (s.wr (O.expSweeps e) 0).wr (O.expOverruns e) 0) s
  (s.updPerf fun p => { p with latch := false, sweeps := [], pairs := p.pairs.filter fun (e : Nat × (Nat × Nat)) => extPair e.1 }).followFreeze

/-- P1 gates PIPE and the clocks of ENG (R86): from the end of the transition into it to the end of the one out of it. Log entry 34 (DEDUCED). -/
def State.dim (s : State) : Bool := s.rd O.pstate == 1 || s.pwr.trans.any fun t => t.source == 1

/-- Counters of cycles (events 0x0001 and 0x0002, R475) at a root cycle that reach a clock which P1 does not gate.
Log entries 71 (DEDUCED), 76 (DEDUCED and DESIGN CHOICE). -/
def State.perfTick (s : State) : State :=
  let s := if bit s.pwr.released 1 && !s.dim && s.ticks % 4 == 0 then (s.perfEvent false 0x0001 1 {}).perfEvent true 0x0001 1 {} else s
  if bit s.pwr.released 0 && !s.dim && s.ticks % 3 == 0 then s.perfEvent false 0x0002 1 {} else s

end Sys2Proof.Machine
end

