-- ==== Sys2Proof/Machine/Power.lean ====
section
/-!
DEFINITION. Supply, wake-up and reset (R64 to R81, R516): what each reset level clears, the wake-up steps, the reverse power-down, and
the release of the domains.
-/

namespace Sys2Proof.Machine

/-- Change the power state. -/
def State.updPwr (s : State) (f : Power → Power) : State := { s with pwr := f s.pwr }

/-- The bit of a domain in DOMAIN_STABLE (R85). -/
def domBit : Dom → Nat
  | .pclk => 3 | .xclk => 2 | .pipe => 1 | .eng => 0

/-- Set a bit of FAULT_SOURCES (R80). -/
def State.fault (s : State) (b : Nat) (on : Bool) : State := s.wr O.faultSources (setBit (s.rd O.faultSources) b on)

/-- Set a bit of RESET_CAUSE (R76). -/
def State.cause (s : State) (b : Nat) : State := s.wr O.resetCause (setBit (s.rd O.resetCause) b true)

/-- FAULT_N is asserted (R71, R80): until the AON domain is ready, and while a source is set. -/
def State.faultN (s : State) : Bool := !s.pwr.aonUp || s.pwr.dark || s.rd O.faultSources != 0

/-- ALERT_N is asserted (R68). -/
def State.alertN (s : State) : Bool := s.rd O.thermalFlags != 0 || s.rd O.supplyFlags != 0

/-! ### What the resets clear (R75) -/

/-- Objects that outlive a SYS reset: those of the AON domain, and counts since POR (R75, R129, R471). Log entry 32 (DEDUCED). -/
def keptBySys (k : Nat) : Bool := k / 256 == 0x2500 || k == O.snapGen || k == O.settingsSaves

/-- Objects that outlive a POR: RESET_CAUSE and WAKE_STATUS are cleared (R75, R77). Log entry 32 (DEDUCED). -/
def keptByPor (k : Nat) : Bool := k == O.lastSupplyFault || k == O.faultSources

/-- Objects that only show what is measured, or the state of the root PLL and of the domains (R67, R85): they have no default to return to
while PCLK runs. -/
def monitorKey (k : Nat) : Bool :=
  k == O.vin12Mv || k == O.inputPower || (0x2010 ≤ k / 256 && k / 256 ≤ 0x2018 && k % 256 ≤ 2)
    || k == O.tjF || k == O.tjT || k == O.tjFMean || k == O.tjTMean || k == O.rootState || k == O.domainStable || k == O.clkUnstable

/-- Objects that outlive a CORE reset: the kept ranges, identity, HOST and MGMT, what the device measures, and what the controller knows of the boot and the Evrad
link. Log entry 32 (DEDUCED). -/
def keptOnCore (k : Nat) : Bool :=
  let i := k / 256
  keptByCore k || (0x1000 ≤ i && i < 0x1100) || i == 0x1101 || i == 0x1102 || monitorKey k || (i == 0xA002 && k != O.confirmWindow) || k == O.settingsFormat || k == O.settingsStore || k == O.settingsSaves
    || k == O.snapGen || (0xF010 ≤ i && i < 0xF022)

/-- The boot flash after a transfer in progress is lost (R469): its slot holds no verified image, unless ACTIVATE has named it. -/
def State.lostTransfer (s : State) : FwSt :=
  let f := { s.fw with buffers := [] }
  let t := s.rd O.fwTargetSlot
  if s.rd O.fwState = 0 || (s.rd O.fwKind = 1 && (f.trial = some t || f.confirmed = some t)) then f
  else { f with slots := mupd f.slots {} (if s.rd O.fwKind = 1 then t else 2 + t) fun x => { x with good := false } }

/-- The copy of the boot record written last, as the flash holds it: its CRC-32C is not right before its write has ended (R453). -/
def FwSt.written (f : FwSt) : RecordCopy :=
  { seq := f.records, good := !f.writing
    body := { confirmed := f.confirmed, engSlot := f.engSlot, store := f.store, trial := f.trial, booted := f.booted } }

/-- The boot record after a loss of power or a SYS reset: the valid copy with the higher sequence number is in force (R453, R469). -/
def FwSt.recovered (f : FwSt) : FwSt :=
  let c := f.other
  if f.written.good || !c.good then { f with writing := false }
  else { f with
    confirmed := c.body.confirmed, engSlot := c.body.engSlot, store := c.body.store, trial := c.body.trial, booted := c.body.booted
    records := c.seq, writing := false, other := f.written }

/-- The write of the boot record ends: at the next clock cycle, or before a reset that the device was told to make, which the manual starts
after the write (R461). The manual does not say how long a write takes. Log entry 68 (DEDUCED and DESIGN CHOICE). -/
def State.recordWritten (s : State) : State := { s with fw := { s.fw with writing := false } }

/-- A SYS reset or a loss of power finds the boot record: a write in progress leaves the former record in force (R453, R469), and a boot that
it ends otherwise than by the watchdog breaks a run of watchdog boots (R462). -/
def State.resetRecord (s : State) (watchdog : Bool) : State :=
  { s with fw := { s.fw.recovered with cut := s.fw.cut || (s.alive && s.mcState == 0 && !watchdog) } }

/-- Everything outside the AON domain, the boot flash and OTP returns to its default; kept objects stay. Log entry 32 (DEDUCED). -/
def State.cleared (s : State) (keep : Nat → Bool) : State :=
  { pending := s.pending, ticks := s.ticks, free := s.free, draws := s.draws, out := s.out,
    objs := s.objs.filter fun e => keep e.1, pwr := s.pwr, fw := s.lostTransfer, tap := s.tap }

/-- The functions that a CORE reset or P2 takes away: all but HOST, MGMT and the controller. Log entry 32 (DEDUCED). -/
def State.clearedCore (s : State) (keep : Nat → Bool) : State :=
  { s.cleared keep with
    mcState := s.mcState, failReason := s.failReason, ev := s.ev, host := s.host
    svc := { s.svc with staging := s.svc.staging.filter fun e => keep e.1 }
    fns := s.fns.filter fun e => e.1 ≤ 2 }

/-! ### Reset (R74, R75) -/

/-- The rank of a reset level. -/
def ResetLevel.rank : ResetLevel → Nat
  | .core => 1 | .sys => 2 | .por => 3

/-- Is the device held down (R516), or its failed return from P2 latched (R95)? Log entry 31 (DEDUCED). -/
def State.heldDown (s : State) : Bool := s.pwr.latched.isSome || s.pwr.thermalHold

/-- The wake-up step that a reset finds: the step in progress, or the one from which a failed wake-up would go on. -/
def State.reached (s : State) : Option Nat :=
  if s.pwr.step != 0 then some s.pwr.step
  else match s.pwr.failCode with
    | some c => some (if c = 2 then 2 else 3)
    | none => s.pwr.retryFrom

/-- The regulator being brought up, in step 4 or on the return from P2: until it is power-good only a timeout governs it (R66, R70, R95). -/
def Power.rising (p : Power) : Option Nat :=
  if p.step = 4 || (p.returning && p.down.isNone && p.retryFrom.isNone && p.released == 8 && decide (p.regulator < 9)) then some p.regulator
  else none

/-- The regulators that stay on through a reset (R75). The manual does not say what becomes of one whose bring-up the reset aborts: it is off,
and wake-up brings it up again. Log entry 31 (DESIGN CHOICE). -/
def Power.kept (p : Power) : Nat :=
  match p.rising with
  | some n => setBit p.regsOn n false
  | none => p.regsOn

/-- A regulator is brought up: the lowest that is off; when none is left, the step that follows, the trim load where it is
still due (R73). Log entry 31 (DEDUCED). -/
def State.nextRegulator (s : State) : State :=
  match (List.range 9).find? fun n => !bit s.pwr.regsOn n with
  | some n => s.updPwr fun p => { p with step := 4, regulator := n, regsOn := setBit p.regsOn n true }
  | none => s.updPwr fun p => { p with step := if p.regsFirst then 3 else 5, trimValid := p.trimValid && !p.regsFirst, regsFirst := false }

/-- Wake-up goes on at a step. The valid flag of the trim load is clear from the start of step 3 until the load ends (R73). -/
def State.wakeAt (s : State) (n : Nat) : State :=
  match n with
  | 3 => s.updPwr fun p => { p with step := 3, trimValid := false }
  | 4 => s.nextRegulator
  | 6 => (s.wr O.rootState 1).updPwr fun p => { p with step := 6 }
  | _ => s.updPwr fun p => { p with step := n }

/-- The reason that a trial's fall-back will name (R463): what ended the trial, and nothing that comes after its end. -/
def State.resetReason (s : State) (reason : Nat) : Nat :=
  if s.alive && !(s.mcState == 0 && s.fw.trial.isSome && s.fw.booted) then reason else s.fw.reason

/-- A POR or SYS reset is asserted with its cause bit; `reason` is what a trial's fall-back will name (R463). -/
def State.assertReset (s : State) (l : ResetLevel) (b reason : Nat) : State :=
  let aborted := s.pwr.step == 3
  let from_ := if s.pwr.resetting.isSome then s.reached else none
  let s := s.resetRecord (b == 4)
  let s := { s with fw := { s.fw with reason := s.resetReason reason } }
  let s := if l = .por then { s.cleared keptByPor with ticks := 0 } else s.cleared keptBySys
  let s := s.wr O.faultSources (s.rd O.faultSources &&& 0x11)
  let s := (s.wr O.domainStable 0).wr O.rootState (if l = .por then 0 else 1)
  let s := s.cause b
  let s := if aborted then s.cause 8 else s
  let p2 := l = .sys && s.pwr.kept != 0x1FF && (from_.isNone || s.pwr.regsFirst)
  let s := s.updPwr fun p => {
    regsOn := if l = .por then 0 else p.kept, pipeOff := if l = .por then 0 else p.pipeOff, regsFirst := p2, retried := l = .sys && p.resetting.isSome && p.retried
    excursion := if l = .por then 0 else p.excursion, trimValid := p2 && p.trimValid, aonUp := p.aonUp, vinGood := p.vinGood
    mgmtEn := p.mgmtEn, released := 0, diodeF := p.diodeF, diodeT := p.diodeT
    resetting := some l }
  let s := if l = .por then { s with fw := { s.fw with wdt := [], cut := false }, tap := {} } else s
  let first := if l = .por then 1 else min 3 (from_.getD 3)
  s.wakeAt (if p2 then 4 else first)

/-- A POR or SYS reset is requested: a reset of smaller or equal reach is absorbed while the wake-up steps of the one in force have not
begun (R75). The manual does not say what becomes of a reverse power-down of R72 that a SYS reset meets: a wake-up step has failed, so that
wake-up steps run, the reset is not absorbed, and what is left of the power-down is abandoned with its step code, its attempt and its
WAKE_FAIL record. Log entries 31 (DEDUCED and DESIGN CHOICE), 35 (DEDUCED). -/
def State.requestReset (s : State) (l : ResetLevel) (b reason : Nat) : State :=
  match s.pwr.resetting with
  | some cur =>
    if l.rank ≤ cur.rank && s.pwr.down.isSome && s.pwr.failCode.isNone then s.cause b else s.assertReset l b reason
  | none => s.assertReset l b reason

/-- The forward body bias for a mean temperature (R87), in whole mV, rounded down. Log entry 33 (DEDUCED and DESIGN CHOICE). -/
def biasTarget (t : Int) : Int := max 0 (min 200 (200 * (10500 - t) / 12500))

/-- Both dies take the bias of R87 at once. Log entry 33 (DEDUCED and DESIGN CHOICE). -/
def State.biasSettle (s : State) : State :=
  (s.wrS O.biasFMv (biasTarget (s.rdS O.tjFMean))).wrS O.biasTMv (biasTarget (s.rdS O.tjTMean))

/-- Everything in flight on the DMA rings at a CORE reset (R125): statuses written at once, rings HALTED with CORE_RESET. -/
def State.coreRings (s : State) : State := s.orphanAll.eachRing fun s n =>
  if s.live n then ((s.add (O.dringAborted n) (unaffected (s.dring n).flight)).payFlight n).haltRing n 3 else s

/-- A CORE reset is asserted: XCLK, PIPE and ENG are held (R74, R75), and the dies leave it with the bias of P0 (R87); HOST, which P2 had taken
down, returns at the release. -/
def State.assertCore (s : State) : State :=
  if s.pwr.resetting.isSome then s.cause 5
  else
    let s := s.coreRings.clearedCore keptOnCore
    let s := (((s.cause 5).wr O.pstate 0).wr O.sramAssist 1).biasSettle
    s.updPwr fun p => { p with
      released := p.released &&& 8, regsOn := p.kept, resetting := some .core, hostDue := p.store.isSome, trans := none, returning := false, crossed := 0, store := none, plls := 0
      down := none, failCode := none, retryFrom := none }

/-- The power-down of a held device: every regulator off, no step running. -/
def State.holdDownNow (s : State) : State :=
  s.updPwr fun p => { p with step := 0, regsOn := 0, down := none, excursion := p.excursion &&& 0x200 }

/-! ### The reverse power-down (R66, R72) -/

/-- The highest regulator that a power-down turns off: VIO stays on in P2 (R86). -/
def State.highestOn (s : State) : Option Nat :=
  [8, 7, 6, 5, 4, 3, 2, 1, 0].find? fun n => bit s.pwr.regsOn n && !(s.pwr.returning && n == 4)

/-- The reverse power-down has ended (R66, R72, R95): a supply fault's wake-up starts; a failure is recorded, and retried once or latched. -/
def State.powerDownEnd (s : State) : State :=
  match s.pwr.failCode with
  | none => (s.updPwr fun p => { p with down := none }).wakeAt 1
  | some code =>
    let again := if code = 2 then 2 else 3
    let s := ((s.wr O.wakeFailStep code).wr O.wakeAttempts (if s.pwr.retried then 2 else 1)).cause 7
    if s.pwr.retried then
      let s := s.updPwr fun p => { p with down := none, failCode := none, latched := some again }
      if s.pwr.returning then
        let s := (s.updPwr fun p => { p with returning := false, returnFailed := true, trans := none }).wr O.pstate 2
        (s.wrSt O.pstateStatus .internal).raise 10 0x0A04 0 ERROR 2 2 Status.internal.code
      else s
    else s.updPwr fun p => { p with down := none, failCode := none, retryFrom := some again }

/-- The next regulator of a reverse power-down is disabled, and watched no more (R66), or the power-down ends. Log entry 31 (DEDUCED). -/
def State.powerDownNext (s : State) : State :=
  match s.highestOn with
  | some n => s.updPwr fun p => { p with
      regsOn := setBit p.regsOn n false, down := some n, excursion := setBit p.excursion n false }
  | none => s.powerDownEnd

/-- A wake-up step, or a return from P2, has timed out with a step code (R72). Log entry 31 (DEDUCED). -/
def State.wakeFails (s : State) (code : Nat) : State :=
  ((s.fault 0 true).updPwr fun p => { p with step := 0, failCode := some code, regsFirst := false }).powerDownNext

/-- The meaning of RAIL_OFF: the rail that falls is below 10 %, or its 100 µs have passed. Log entry 31 (DEDUCED). -/
def execRailOff (s : State) : Host.Outcome State Fault Refusal :=
  if s.pwr.down.isSome then done s.powerDownNext else done s

/-- The meaning of WAKE_STEP_TIMEOUT. In step 2, `ldoOk` tells whether the AON LDO is in regulation; if it is not, the device stays dark
(R71). -/
def execWakeStepTimeout (ldoOk : Bool) (s : State) : Host.Outcome State Fault Refusal :=
  if s.pwr.returning && s.pwr.rising.isSome then done (s.wakeFails (0x10 + s.pwr.regulator))
  else match s.pwr.step with
    | 2 =>
      if ldoOk then done ((s.updPwr fun p => { p with aonUp := true }).wakeFails 2)
      else done (s.updPwr fun p => { p with step := 0, dark := true, aonUp := false })
    | 3 => done (s.wakeFails 3)
    | 4 => done (s.wakeFails (0x10 + s.pwr.regulator))
    | 5 => done (s.wakeFails 5)
    | 6 => done (s.wakeFails 6)
    | _ => done s

/-- A return from P2 brings up its next regulator; when all are on, the domains that are not held are released (R78, R94). -/
def State.returnRegulator (s : State) : State :=
  match (List.range 9).find? fun n => !bit s.pwr.regsOn n with
  | some n => s.updPwr fun p => { p with regulator := n, regsOn := setBit p.regsOn n true }
  | none => s.updPwr fun p => { p with regulator := 9, released := 0xF ^^^ s.rd O.clkUnstable % 16, pipeStart := s.pipe }

/-- The meaning of WAKE_RETRY_TIMER: 10.0 ms after a failed wake-up, the one automatic retry starts (R72, R95). -/
def execWakeRetryTimer (s : State) : Host.Outcome State Fault Refusal :=
  match s.pwr.retryFrom with
  | some n =>
    let s := s.updPwr fun p => { p with retryFrom := none, retried := true }
    done (if s.pwr.returning then s.returnRegulator else s.wakeAt n)
  | none => done s

/-! ### Samples (R67, R87) -/

/-- One threshold of one die at a sample: the flag bit and whether it is crossed anew or re-armed (R67).
Log entry 33 (DEDUCED and DESIGN CHOICE). -/
def State.threshold (s : State) (b die type sev : Nat) (tj thr : Int) : State :=
  if bit s.pwr.crossed b then
    if tj ≤ thr - 300 then s.updPwr fun p => { p with crossed := setBit p.crossed b false } else s
  else if tj ≥ thr then
    let s := s.updPwr fun p => { p with crossed := setBit p.crossed b true }
    (s.wr O.thermalFlags (setBit (s.rd O.thermalFlags) b true)).raise 10 type 0 sev die (ofS32 tj) (ofS32 thr)
  else s

/-- A sample of the die sensors; in P2 the diodes stand for them. -/
def State.thermalRead (s : State) (tjF tjT meanF meanT : Int) : State :=
  let s := (((s.wrS O.tjF tjF).wrS O.tjT tjT).wrS O.tjFMean meanF).wrS O.tjTMean meanT
  let s := (s.threshold 0 0 0x0A01 WARNING tjF (s.rdS O.tjWarn)).threshold 1 1 0x0A01 WARNING tjT (s.rdS O.tjWarn)
  let s := (s.threshold 2 0 0x0A02 ERROR tjF (s.rdS O.tjCrit)).threshold 3 1 0x0A02 ERROR tjT (s.rdS O.tjCrit)
  s.protFollow

/-- The meaning of THERMAL_SAMPLE. Log entry 33 (DEDUCED and DESIGN CHOICE). -/
def execThermalSample (tjF tjT meanF meanT diodeF diodeT : Int) (s : State) : Host.Outcome State Fault Refusal :=
  let s := s.updPwr fun p => { p with diodeF := diodeF, diodeT := diodeT }
  if !s.alive then done s
  else if s.rd O.pstate = 2 then done (s.thermalRead diodeF diodeT diodeF diodeT)
  else done (s.thermalRead tjF tjT meanF meanT)

/-- A sample of the supply: a rail that is off reads 0. -/
def State.supplyRead (s : State) (vinMv powerDw : Nat) (railMv railMa : Nat → Nat) : State :=
  let s := (s.wr O.vin12Mv (min vinMv 0xFFFF)).wr O.inputPower (min powerDw 0xFFFF)
  let s := s.wr O.inputPowerPeak (max (s.rd O.inputPowerPeak) (min powerDw 0xFFFF))
  (List.range 9).foldl (fun s n =>
    let on := bit s.pwr.regsOn n
    (s.wr (O.railMv n) (if on then min (railMv n) 0xFFFF else 0)).wr (O.railMa n) (if on then min (railMa n) 0xFFFFFFFF else 0)) s

/-- The meaning of SUPPLY_SAMPLE. Log entry 33 (DEDUCED and DESIGN CHOICE). -/
def execSupplySample (vinMv powerDw : Nat) (railMv railMa : List Nat) (s : State) : Host.Outcome State Fault Refusal :=
  if s.alive then done (s.supplyRead vinMv powerDw (fun n => railMv.getD n 0) (fun n => railMa.getD n 0)) else done s

/-- One step of at most 10 mV towards a target. -/
def biasStep (now target : Int) : Int := if now < target then min (now + 10) target else max (now - 10) target

/-- The meaning of BIAS_UPDATE (R87): in P0 each die moves towards its bias. Log entry 33 (DEDUCED and DESIGN CHOICE). -/
def execBiasUpdate (s : State) : Host.Outcome State Fault Refusal :=
  if s.alive && s.rd O.pstate == 0 then
    let s := s.wrS O.biasFMv (biasStep (s.rdS O.biasFMv) (biasTarget (s.rdS O.tjFMean)))
    done (s.wrS O.biasTMv (biasStep (s.rdS O.biasTMv) (biasTarget (s.rdS O.tjTMean))))
  else done s

/-- The n-th open value from here on. -/
def State.peek (s : State) (n : Nat) : Nat := (Config.freeValue (s.free + n)).toNat

/-- Measured objects take a first sample, whose values are open (R67). Log entry 5 (DEDUCED and DESIGN CHOICE). -/
def State.sampleOpen (s : State) : State :=
  let v := s.peek
  let tj := fun n => toS32 (v n % 4294967296)
  let s := { s with free := s.free + 24 }
  (((s.supplyRead (v 0) (v 1) (fun n => v (2 + n)) (fun n => v (11 + n))).thermalRead (tj 20) (tj 21) (tj 22) (tj 23))).biasSettle

/-! ### Wake-up steps (R70 to R78) -/

/-- The meaning of VIN_GOOD: VIN12 has been good for the 100 µs of step 1. A VIN12 cycle ends the dark state of R71, and a thermal hold once
both diodes are cool (R69). -/
def execVinGood (s : State) : Host.Outcome State Fault Refusal :=
  let was := s.pwr.vinGood
  let s := s.updPwr fun p => { p with vinGood := true }
  if s.pwr.step = 1 then done (s.wakeAt 2)
  else if s.pwr.dark && !was then done ((s.updPwr fun p => { p with dark := false }).wakeAt 1)
  else if s.pwr.thermalHold && !was && decide (max s.pwr.diodeF s.pwr.diodeT ≤ 12500) then
    done (((s.fault 4 false).updPwr fun p => { p with thermalHold := false }).wakeAt 1)
  else done s

/-- The meaning of AON_READY: step 2 ends. -/
def execAonReady (s : State) : Host.Outcome State Fault Refusal :=
  if s.pwr.step = 2 then done ((s.updPwr fun p => { p with aonUp := true }).wakeAt 3) else done s

/-- The meaning of TRIM_LOAD_DONE: step 3 ends and MGMT_EN is sampled; a SYS reset, whose regulators are on, goes on at step 5. -/
def execTrimLoadDone (mgmtEn : Bool) (s : State) : Host.Outcome State Fault Refusal :=
  if s.pwr.step = 3 then done ((s.updPwr fun p => { p with trimValid := true, mgmtEn := mgmtEn }).wakeAt 4) else done s

/-- The meaning of REG_POWER_GOOD: the regulator being brought up is power-good, in step 4 or on the return from P2. -/
def execRegPowerGood (n : Fin 9) (s : State) : Host.Outcome State Fault Refusal :=
  if s.pwr.step = 4 && s.pwr.regulator = n.val then done s.nextRegulator
  else if s.pwr.returning && s.pwr.rising = some n.val then done s.returnRegulator
  else done s

/-- The meaning of REFCLK_PRESENT: step 5 ends. -/
def execRefclkPresent (s : State) : Host.Outcome State Fault Refusal :=
  if s.pwr.step = 5 then done (s.wakeAt 6) else done s

/-- The meaning of ROOT_LOCK: step 6 ends. -/
def execRootLock (s : State) : Host.Outcome State Fault Refusal :=
  if s.pwr.step = 6 then done ((s.wr O.rootState 2).wakeAt 7) else done s

/-- The meaning of DOMAIN_STABLE: a domain's monitor reports stable in step 7. -/
def execDomainStable (d : Dom) (s : State) : Host.Outcome State Fault Refusal :=
  if (s.pwr.step = 7 || s.pwr.step = 8) && !bit (s.rd O.clkUnstable) (domBit d) then
    done (s.wr O.domainStable (setBit (s.rd O.domainStable) (domBit d) true))
  else done s

/-- Wake-up ends once every domain is released or held (R78, R80). -/
def State.wakeEnd (s : State) : State :=
  if (s.pwr.released ||| s.rd O.clkUnstable) = 0xF then
    ((s.fault 0 false).wr O.wakeAttempts (if s.pwr.retried then 2 else 1)).updPwr fun p => { p with
      step := 0, resetting := none, retried := false }
  else s

/-- PCLK is released: HOST and MGMT take their states, the dictionary service answers, and measured objects are sampled (R67, R79). -/
def State.pclkReleased (s : State) : State :=
  ((s.setFn .mgmt (if s.pwr.mgmtEn then RUNNING else DISABLED)).sampleOpen)

/-- The meaning of DOMAIN_RELEASE: a stable domain whose earlier domains are released or held is released (R77, R78). -/
def execDomainRelease (d : Dom) (s : State) : Host.Outcome State Fault Refusal :=
  let b := domBit d
  let past := s.pwr.released ||| s.rd O.clkUnstable
  if (s.pwr.step = 7 || s.pwr.step = 8) && bit (s.rd O.domainStable) b && !bit past b
      && past / 2 ^ (b + 1) == 0xF / 2 ^ (b + 1) then
    let s := s.updPwr fun p =>
      { p with step := 8, released := setBit p.released b true, pipeStart := if b = 1 then s.pipe else p.pipeStart }
    done (if d = .pclk then s.pclkReleased else s).wakeEnd
  else done s

/-- The meaning of CLK_STABLE_TIMEOUT: a domain that is not stable in time stays held (R78). -/
def execClkStableTimeout (d : Dom) (s : State) : Host.Outcome State Fault Refusal :=
  let b := domBit d
  if (s.pwr.step = 7 || s.pwr.step = 8) && !bit (s.rd O.domainStable) b then
    let s := (s.wr O.clkUnstable (setBit (s.rd O.clkUnstable) b true)).fault 1 true
    done (if d = .pclk then s.setFn .host DISABLED else s).wakeEnd
  else done s

/-! ### Supply, trip and AON (R64, R66, R69) -/

/-- Is a rail (9: VIN12) watched (R66)? VIN12 is from the end of step 1, so that the power-down of a POR does not watch it; a rail is from its
power-good until it is turned off, in a power-down too. Log entry 31 (DEDUCED). -/
def State.watched (s : State) (rail : Nat) : Bool :=
  !s.pwr.dark && s.pwr.step != 1
    && (if rail = 9 then s.pwr.failCode.isSome || s.pwr.down.isNone else bit s.pwr.regsOn rail && s.pwr.rising != some rail)

/-- The rail number that records carry: 0x10 for VIN12. -/
def railCode (rail : Nat) : Nat := if rail = 9 then 0x10 else rail

/-- The meaning of SUPPLY_FAULT: a POR, with the regulators powered down in reverse order first. A device that is held down only records
it, as does one whose POR powers down already, and one in the dark state of R71 records nothing. A power-down of R72 goes on as that of the POR.
Log entry 31 (DEDUCED). -/
def execSupplyFault (rail : Fin 10) (s : State) : Host.Outcome State Fault Refusal :=
  if s.pwr.dark && rail.val = 9 then done (s.updPwr fun p => { p with vinGood := false })
  else if !s.watched rail.val then done s
  else
    let s := (s.wr O.lastSupplyFault (railCode rail.val)).updPwr fun p => { p with
      vinGood := p.vinGood && rail.val != 9, excursion := setBit p.excursion rail.val false }
    if s.heldDown || (s.pwr.down.isSome && s.pwr.failCode.isNone) then done (s.cause 1)
    else
      let on := s.pwr.kept
      let falling := s.pwr.down
      let s := (s.assertReset .por 1 2).updPwr fun p => { p with step := 0, regsOn := on, down := falling }
      done (if falling.isSome then s else s.powerDownNext)

/-- The meaning of AON_LOSS: VIN12 is below 6.0 V and the AON domain loses its contents; what follows is a cold start (R64, R76). -/
def execAonLoss (s : State) : Host.Outcome State Fault Refusal :=
  let s := s.resetRecord false
  let s := { s.cleared (fun _ => false) with
    ticks := 0, fw := { s.lostTransfer with reason := s.resetReason 2, wdt := [], cut := false }, tap := {} }
  let s := (s.wr O.domainStable 0).wr O.rootState 0
  done (s.updPwr fun _ => { step := 1, regsOn := 0, trimValid := false, aonUp := false, vinGood := false, released := 0,
                            resetting := some .por })

/-- The meaning of RAIL_EXCURSION_START: a watched rail has been outside ±3 %, or VIN12 below 11.4 V, for 20 AON cycles. -/
def execRailExcursionStart (rail : Fin 10) (s : State) : Host.Outcome State Fault Refusal :=
  let n := rail.val
  if s.watched n && !bit s.pwr.excursion n then
    let s := s.updPwr fun p => { p with excursion := setBit p.excursion n true }
    let s := s.wr O.supplyFlags (setBit (s.rd O.supplyFlags) n true)
    done (if n < 9 then s.inc (O.railWarnings n) else s)
  else done s

/-- The meaning of RAIL_EXCURSION_END: extreme voltage and whole duration of the warned excursion that ends. -/
def execRailExcursionEnd (rail : Fin 10) (extremeMv durationAon : Nat) (s : State) : Host.Outcome State Fault Refusal :=
  if bit s.pwr.excursion rail.val then
    let s := s.updPwr fun p => { p with excursion := setBit p.excursion rail.val false }
    done (if s.alive then s.raise 10 0x0A03 0 WARNING (railCode rail.val) extremeMv durationAon else s)
  else done s

/-- The meaning of THERMAL_TRIP: a diode has read 158.00 °C in 16 samples, while the AON domain runs; a POR, then held down. -/
def execThermalTrip (diodeF diodeT : Int) (s : State) : Host.Outcome State Fault Refusal :=
  if s.pwr.dark || !s.pwr.aonUp || s.pwr.thermalHold || decide (max diodeF diodeT < 15800) then done s
  else
    let s := s.assertReset .por 6 2
    let s := (s.fault 4 true).holdDownNow
    done (s.updPwr fun p => { p with thermalHold := true, diodeF := diodeF, diodeT := diodeT })

/-! ### Reset sources (R74, R80, R81, R516) -/

/-- The meaning of PORST_N. Log entry 31 (DEDUCED). -/
def execPorstN (s : State) : Host.Outcome State Fault Refusal :=
  if s.pwr.dark then done s
  else if s.pwr.thermalHold then
    if decide (max s.pwr.diodeF s.pwr.diodeT ≤ 12500) then done ((s.fault 4 false).assertReset .por 0 2)
    else done (s.cause 0)
  else done (if s.pwr.latched.isSome then s.assertReset .por 0 2 else s.requestReset .por 0 2)

/-- The meaning of SRST_N. Log entry 31 (DEDUCED). -/
def execSrstN (s : State) : Host.Outcome State Fault Refusal :=
  if s.pwr.dark then done s else if s.heldDown then done (s.cause 2) else done (s.requestReset .sys 2 2)

/-- Does a reset written through KDP or the mailbox replace the one that already waits? The greater reach stays. Log entry 35 (DEDUCED). -/
def laterReset (now : Option ResetLevel) (l : ResetLevel) : Option ResetLevel :=
  match now with
  | some n => if n.rank ≤ l.rank then some l else some n
  | none => some l

/-- A command that resets the device once its path is answered (R81). Log entry 35 (DEDUCED). -/
def State.askReset (s : State) (l : ResetLevel) : State := { s with svc := { s.svc with reset := laterReset s.svc.reset l } }

/-- SYS_RESET. -/
def cmdSysReset (arg : BitVec 24) (s : State) : State × Status := if arg = 0x5359 then (s.askReset .sys, .ok) else (s, .range)

/-- CORE_RESET. -/
def cmdCoreReset (arg : BitVec 24) (s : State) : State × Status := if arg = 0x434F then (s.askReset .core, .ok) else (s, .range)

/-- Perform a commanded reset. It cannot act while the device is held down (R516). -/
def State.commandedReset (s : State) (l : ResetLevel) : State :=
  if s.heldDown then s else if l = .core then s.assertCore else s.recordWritten.requestReset .sys 3 s.fw.reason

/-- The waiting reset of R81. -/
def State.withReset (s : State) (r : Option ResetLevel) : State := { s with svc := { s.svc with reset := r } }

/-- An access whose command may reset the device (R81): through the window, a SYS reset starts without a completion, and a CORE reset as
soon as the access has completed; a reset that another path was promised still waits. Log entries 17 (DEDUCED), 35 (DEDUCED). -/
def accessReset (p : Path) (k : Nat) (data : List Byte) (f : State → State × Status) (s : State) : State :=
  if p = .window && s.gate p k == .pass then
    let r := f (s.dropHalves.withReset none)
    let t := r.1.withReset s.svc.reset
    match r.1.svc.reset with
    | some .core => (t.finish p k data.length r.2).commandedReset .core
    | some l => t.commandedReset l
    | none => t.finish p k data.length r.2
  else access p k data f s

/-- The meaning of SYS_RESET. -/
def execSysReset (p : Path) (arg : BitVec 24) (s : State) : Host.Outcome State Fault Refusal :=
  done (accessReset p O.sysReset (cmdData 1 arg) (cmdSysReset arg) s)

/-- The meaning of CORE_RESET. -/
def execCoreReset (p : Path) (arg : BitVec 24) (s : State) : Host.Outcome State Fault Refusal :=
  done (accessReset p O.coreReset (cmdData 1 arg) (cmdCoreReset arg) s)

/-- The meaning of COMMANDED_RESET_START: 10.0 µs after its answer, a commanded reset starts. Log entry 35 (DEDUCED). -/
def execCommandedResetStart (s : State) : Host.Outcome State Fault Refusal :=
  match s.svc.reset with
  | some l => if s.alive then done ((s.withReset none).commandedReset l) else done s
  | none => done s

/-- The meaning of CORE_RESET_RELEASE: the domains that are not held are released (R74, R78). -/
def execCoreResetRelease (s : State) : Host.Outcome State Fault Refusal :=
  if s.pwr.resetting = some .core then
    done ((if s.pwr.hostDue then s.setFn .host s.pwr.hostState else s).updPwr fun p =>
      { p with released := 0xF ^^^ s.rd O.clkUnstable % 16, resetting := none, regsOn := 0x1FF, pipeStart := s.pipe, hostDue := false })
  else done s

/-! ### Clocks (R82 to R84) -/

/-- Does the device run, so that a loss of the root clock counts (R83)? Some domain is released, or wake-up ended with every one held.
Log entry 78 (DEDUCED). -/
def State.deviceRuns (s : State) : Bool :=
  s.pwr.released != 0 || (s.pwr.resetting.isNone && s.rd O.rootState == 2)

/-- The meaning of ROOT_CLOCK_LOST: every domain is held until a SYS reset or POR (R83). Log entry 78 (DEDUCED). -/
def execRootClockLost (s : State) : Host.Outcome State Fault Refusal :=
  if s.deviceRuns then
    let s := s.cleared keptBySys
    let s := (((s.wr O.rootState 3).wr O.clkUnstable 0xF).fault 2 true).fault 1 true
    done (s.updPwr fun p => { p with
      step := 0, released := 0, regsOn := p.kept, resetting := none, trans := none, returning := false, store := none, hostDue := false, plls := 0
      crossed := 0, down := none, failCode := none, retryFrom := none })
  else done s

/-- The meaning of MON_EXCURSION: a monitor window of a released domain is outside ±0.5 % (R82). Log entry 78 (DEDUCED). -/
def execMonExcursion (d : Dom) (s : State) : Host.Outcome State Fault Refusal :=
  if s.alive && bit s.pwr.released (domBit d) then
    let s := s.inc O.monExcursions
    done (s.raise 10 0x0A05 0x03 WARNING (2 ^ (domBit d)) (s.rd O.monExcursions) 0)
  else done s

/-- The meaning of PHY_PLL_LOCKED: a powered PHY PLL locks. -/
def execPhyPllLocked (n : Fin 24) (s : State) : Host.Outcome State Fault Refusal :=
  if bit s.pwr.plls n.val then done (s.wr O.phyPllLock (setBit (s.rd O.phyPllLock) n.val true)) else done s

/-- The meaning of PHY_PLL_UNLOCK: counted and reported while CLK is RUNNING (R84). Log entry 41 (DEDUCED). -/
def execPhyPllUnlock (n : Fin 24) (s : State) : Host.Outcome State Fault Refusal :=
  if bit (s.rd O.phyPllLock) n.val then
    let s := s.wr O.phyPllLock (setBit (s.rd O.phyPllLock) n.val false)
    if s.running .clk then
      let s := s.inc O.phyPllUnlocks
      done (s.raise 10 0x0A06 0x03 WARNING (2 ^ n.val) (s.rd O.phyPllUnlocks) 0)
    else done s
  else done s

end Sys2Proof.Machine
end

