-- ==== Sys2Proof/Machine/Fwup.lean ====
section
/-!
DEFINITION. Firmware update (chapter 16): images and their verification, the transfer, activation, confirmation, and key revocation.
-/

namespace Sys2Proof.Machine

/-- Change the flash and OTP state. -/
def State.updFw (s : State) (f : FwSt → FwSt) : State := { s with fw := f s.fw }

/-- Write the boot record: the copy that is not in force takes the next sequence number, and the one in force stays as it is (R453). -/
def State.writeBootRecord (s : State) (f : FwSt → FwSt) : State :=
  s.updFw fun x => { f x with records := x.records + 1, writing := true, other := { x.written with good := true } }

/-- The place in flash of the copy of the boot record in force: the two copies alternate (R453). -/
def State.recordCopy (s : State) : Nat := (Config.flashRecord.toNat + s.fw.records) % 2

/-! ### The flash (R453, R454, R456) -/

/-- FW_STATE values (R470). -/
abbrev FW_IDLE : Nat := 0
abbrev FW_ERASING : Nat := 1
abbrev FW_RECEIVING : Nat := 2
abbrev FW_VERIFYING : Nat := 3
abbrev FW_VERIFIED : Nat := 4
abbrev FW_STAGED : Nat := 5

/-- The confirmed MC slot of the boot record. -/
def State.mcConfirmed (s : State) : Nat := s.fw.confirmed.getD Config.flashMcSlot.toNat

/-- The engine boot slot of the boot record, 0xFF when there is none. -/
def State.engBoot (s : State) : Nat :=
  match s.fw.engSlot with
  | some n => n
  | none => if Config.flashEngSlot.toNat < 2 then Config.flashEngSlot.toNat else 0xFF

/-- The security floor of a kind (R456). -/
def State.secFloor (s : State) (kind : Nat) : Nat :=
  max (Config.otpFloor kind).toNat (if kind = 1 then s.fw.floorMc else s.fw.floorEng)

/-- The revoke bits (R456). -/
def State.revokeBits (s : State) : Nat := Config.otpRevoked.toNat ||| s.fw.revoked

/-- The slot of the flash by kind and A or B: 0 and 1 are the MC slots, 2 and 3 the engine slots. -/
def slotIndex (kind ab : Nat) : Nat := if kind = 1 then ab else 2 + ab

/-- The size of a slot (R453). -/
def slotSize (kind : Nat) : Nat := if kind = 1 then 33554432 else 1048576

/-- `n` bytes read from flash: what a string does not cover reads as erased. -/
def readFlash (l : List Byte) (n : Nat) : List Byte := (l ++ List.replicate n Config.erasedByte).take n

/-- The bytes of a slot, as written or as delivered. -/
def State.slotImage (s : State) (i : Nat) : List Byte :=
  match mfind s.fw.slots i with
  | some x => (List.range ((x.length + 4095) / 4096)).flatMap fun j => readFlash (mget x.blocks [] (4096 * j)) 4096
  | none => Config.flashImage i

/-- The body of an image (R454). -/
def imageBody (img : List Byte) : List Byte := readFlash (img.drop 256) (le img 12 4)

/-- Check 1 of R455: header fields and reserved bytes, and the image fits its slot. Log entry 68 (DEDUCED). -/
def headerGood (kind : Nat) (img : List Byte) : Bool :=
  be img 0 4 == 0x4B4E4657 && le img 4 1 == kind && le img 20 2 == 0x9A20 && le img 7 1 == 0 && le img 22 2 == 0 && le img 216 40 == 0
    && decide (le img 12 4 ≤ if kind = 1 then 33554176 else 69632)

/-- Check 2 of R455: the key hash of the image's key slot. Log entry 68 (DEDUCED). -/
def keyKnown (img : List Byte) : Bool := decide (le img 5 1 < 4) && Config.sha384 (slice img 24 96) == Config.otpKeyHash (le img 5 1)

/-- Check 5 of R455: the signature over header bytes 0 to 119 and the body. -/
def signatureGood (img : List Byte) : Bool :=
  Config.ecdsaP384 (slice img 24 96) (Config.sha384 (img.take 120 ++ imageBody img)) (slice img 120 96)

/-- The verification error of an image, in the order of R455; 0 when it verifies. `format` asks for check 6. Log entry 68 (DEDUCED). -/
def State.verifyError (s : State) (kind : Nat) (format : Bool) (img : List Byte) : Nat :=
  if !headerGood kind img then 2
  else if !keyKnown img then 3
  else if bit s.revokeBits (le img 5 1) then 4
  else if le img 6 1 < s.secFloor kind then 5
  else if !signatureGood img then 6
  else if format && kind == 1 && decide ((s.setStore s.storeInForce).format < le img 18 2) then 7
  else 0

/-- Does a slot hold a verified image (R471)? A delivered slot does where its image passes the checks that OTP cannot change.
Log entry 14 (DEDUCED and DESIGN CHOICE). -/
def State.slotGood (s : State) (kind ab : Nat) : Bool :=
  match mfind s.fw.slots (slotIndex kind ab) with
  | some x => x.good
  | none =>
    let img := Config.flashImage (slotIndex kind ab)
    headerGood kind img && keyKnown img && signatureGood img

/-- VERSION of the image in a slot; 0 for a slot without a verified image (R471). -/
def State.slotVersion (s : State) (kind ab : Nat) : Nat :=
  if s.slotGood kind ab then le (s.slotImage (slotIndex kind ab)) 8 4 else 0

/-- The bundle that an engine slot holds (R230, R454). -/
def imageBundle (img : List Byte) : Bundle := { version := le img 8 4, catalogue := leNat (fit (imageBody img) 4096) }

/-! ### The transfer (R457 to R460) -/

/-- Is FWUP able to take commands (R457, R468)? -/
def State.fwReady (s : State) : Bool := s.running .fwup || s.mcState == 2

/-- A FW_CMD that needs FWUP: FW_RESULT takes the status (R457, R470). -/
def cmdFw (f : State → State × Status) (s : State) : State × Status :=
  let r := if s.fwReady then f s else (s, Status.functionDisabled)
  (r.1.wrSt O.fwResult r.2, r.2)

/-- The flash slot of the transfer in hand. -/
def State.fwSlot (s : State) : Nat := slotIndex (s.rd O.fwKind) (s.rd O.fwTargetSlot)

/-- The transfer ends in IDLE. Log entry 68 (DEDUCED). -/
def State.fwEnd (s : State) : State :=
  (((s.wr O.fwState FW_IDLE).wr O.fwKind 0).wr O.fwTargetSlot 0xFF).updFw fun x => { x with buffers := [] }

/-- The target of a new transfer: the slot of its kind that is not in use (R457, R468). Log entry 69 (DEDUCED and DESIGN CHOICE). -/
def State.fwTarget (s : State) (kind : Nat) : Nat :=
  if kind = 1 then
    if s.mcState = 2 then (if s.verifyError 1 false (s.slotImage 0) = 0 && s.verifyError 1 false (s.slotImage 1) ≠ 0 then 1 else 0)
    else 1 - s.mcConfirmed
  else if s.engBoot = 0 then 1 else 0

/-- BEGIN (R458). Log entry 68 (DEDUCED). -/
def cmdFwBegin (arg : BitVec 24) (s : State) : State × Status :=
  let kind := arg.toNat
  let len := s.rd O.fwLength
  if s.rd O.fwState ≠ FW_IDLE then (s, .busy)
  else if kind ≠ 1 && kind ≠ 2 then (s, .range)
  else if kind = 2 && s.mcState = 2 then (s, .functionDisabled)
  else if len < 256 || len > slotSize kind then (s, .range)
  else if kind = 1 && s.rd O.bootState = 1 then (s, .busy)
  else
    let t := s.fwTarget kind
    let s := ((((s.wr O.fwState FW_ERASING).wr O.fwKind kind).wr O.fwTargetSlot t).wr O.fwReceived 0).wr O.fwVerifyError 0
    ((s.wr O.fwImageVersion 0).updFw fun x => { x with slots := mput x.slots (slotIndex kind t) { length := len }, buffers := [] }, .ok)

/-- The meaning of FW_BEGIN. -/
def execFwBegin (p : Path) (arg : BitVec 24) (s : State) : Host.Outcome State Fault Refusal :=
  done (access p O.fwCmd (cmdData 1 arg) (cmdFw (cmdFwBegin arg)) s)

/-- The meaning of ERASE_DONE. -/
def execEraseDone (s : State) : Host.Outcome State Fault Refusal :=
  if s.alive && s.rd O.fwState == FW_ERASING then done ((s.wr O.fwState FW_RECEIVING).wrSt O.fwResult .ok) else done s

/-- The meaning of ERASE_TIMEOUT. -/
def execEraseTimeout (s : State) : Host.Outcome State Fault Refusal :=
  if s.alive && s.rd O.fwState == FW_ERASING then done (s.fwEnd.wrSt O.fwResult .internal) else done s

/-- WRITE in RECEIVING (R459). Log entry 68 (DEDUCED). -/
def State.writeBlock (s : State) : State × Status :=
  let o := s.rd O.fwBlockOffset
  let n := s.rd O.fwBlockLength
  let x := mget s.fw.slots {} s.fwSlot
  let data := (s.rdB O.fwBlock 4096).take n
  if crc32c data ≠ s.rd O.fwBlockCrc then (s.inc O.fwBlockRejects, .integrity)
  else if o % 4096 ≠ 0 || o + n > x.length || (n ≠ 4096 && o + n ≠ x.length) then (s, .range)
  else match mfind (x.blocks ++ s.fw.buffers) o with
    | some old => (s, if old.length = n && crc32c old = crc32c data then .ok else .range)
    | none =>
      if s.fw.buffers.length ≥ 2 then (s, .busy) else (s.updFw fun w => { w with buffers := w.buffers ++ [(o, data)] }, .ok)

/-- WRITE (R457). -/
def cmdFwWrite (s : State) : State × Status :=
  match s.rd O.fwState with
  | 1 | 3 => (s, .busy)
  | 2 => s.writeBlock
  | _ => (s, .range)

/-- The meaning of FW_WRITE. -/
def execFwWrite (p : Path) (arg : BitVec 24) (s : State) : Host.Outcome State Fault Refusal :=
  done (access p O.fwCmd (cmdData 2 arg) (cmdFw (noArg arg cmdFwWrite)) s)

/-- The meaning of BLOCK_PROGRAMMED: the older buffered block is in flash. -/
def execBlockProgrammed (s : State) : Host.Outcome State Fault Refusal :=
  match s.fw.buffers with
  | [] => done s
  | (o, d) :: rest =>
    let i := s.fwSlot
    let s := s.updFw fun w => { w with buffers := rest, slots := mupd w.slots {} i fun x => { x with blocks := mput x.blocks o d } }
    done ((s.inc O.fwReceived).wrSt O.fwResult .ok)

/-- A verification fails: the error, its status, and FW_VERIFY_FAILED (R460, R472, R473). -/
def State.verifyFails (s : State) (code : Nat) : State :=
  let st : Status := if 3 ≤ code && code ≤ 6 then .signature else .integrity
  let s := ((s.wr O.fwState FW_RECEIVING).wr O.fwVerifyError code).wrSt O.fwResult st
  s.raise 9 0x0902 0x12 ERROR (s.rd O.fwKind) code (s.rd O.fwTargetSlot)

/-- Has every block of the image been programmed? -/
def FlashSlot.complete (x : FlashSlot) : Bool :=
  (List.range ((x.length + 4095) / 4096)).all fun j => (mfind x.blocks (4096 * j)).isSome

/-- VERIFY (R457, R460): a missing block ends it at once. -/
def cmdFwVerify (s : State) : State × Status :=
  match s.rd O.fwState with
  | 0 => (s, .range)
  | 1 => (s, .busy)
  | 2 => (((s.wr O.fwState FW_VERIFYING).wr O.fwVerifyError 0).wrSt O.fwResult .ok, .ok)
  | _ => (s, .ok)

/-- The end of an access that wrote VERIFY: an image with a missing block fails (R460). -/
def State.verifyMissing (s : State) : State :=
  if s.rd O.fwState == FW_VERIFYING && !(mget s.fw.slots {} s.fwSlot).complete then s.verifyFails 1 else s

/-- VERIFY with its immediate end. -/
def fwVerify (s : State) : State × Status :=
  let r := cmdFw cmdFwVerify s
  if r.2 = .ok then (r.1.verifyMissing, r.2) else r

/-- The meaning of FW_VERIFY. -/
def execFwVerify (p : Path) (arg : BitVec 24) (s : State) : Host.Outcome State Fault Refusal :=
  done (access p O.fwCmd (cmdData 3 arg) (if arg = 0 then fwVerify else cmdFw fun s => (s, .range)) s)

/-- The meaning of VERIFY_DONE: `readBack` tells whether the part completed the read-back (R472).
Log entries 6 (DEDUCED and DESIGN CHOICE), 68 (DEDUCED). -/
def execVerifyDone (readBack : Bool) (s : State) : Host.Outcome State Fault Refusal :=
  if s.alive && s.rd O.fwState == FW_VERIFYING then
    let kind := s.rd O.fwKind
    let i := s.fwSlot
    let img := s.slotImage i
    let code := if readBack then s.verifyError kind true img else 8
    if code ≠ 0 then done (s.verifyFails code)
    else
      let s := s.updFw fun w => { w with slots := mupd w.slots {} i fun x => { x with good := true } }
      let s := ((s.wr O.fwState FW_VERIFIED).wr O.fwImageVersion (le img 8 4)).wrSt O.fwResult .ok
      done (s.raise 9 0x0901 0x12 NOTICE kind (le img 8 4) (s.rd O.fwTargetSlot))
  else done s

/-! ### Activation and confirmation (R461, R463, R467, R468) -/

/-- ACTIVATE of a verified MC image: the boot record names the trial, or in RECOVERY the confirmed slot; then a SYS reset. -/
def State.activateMc (s : State) : State × Status :=
  let t := s.rd O.fwTargetSlot
  if s.mcState = 2 then ((s.writeBootRecord fun x => { x with confirmed := some t, trial := none }).askReset .sys, .ok)
  else if s.rd O.bootState = 1 then (s, .busy)
  else ((s.writeBootRecord fun x => { x with trial := some t, booted := false }).askReset .sys, .ok)

/-- ACTIVATE of a verified ENGINE image: the staging half takes it (R467). -/
def State.activateEng (s : State) : State × Status :=
  let img := s.slotImage s.fwSlot
  if !s.running .eng then (s, .functionDisabled)
  else if s.mcodeBusy then (s, .busy)
  else if !signatureGood img then (s, .signature)
  else (((s.upk fun x => { x with staged := some (imageBundle img) }).showBundles).wr O.fwState FW_STAGED, .ok)

/-- ACTIVATE (R457). -/
def cmdFwActivate (s : State) : State × Status :=
  match s.rd O.fwState with
  | 1 | 3 => (s, .busy)
  | 4 => if s.rd O.fwKind = 1 then s.activateMc else s.activateEng
  | _ => (s, .range)

/-- The meaning of FW_ACTIVATE: on each path a SYS reset acts as SYS_RESET does (R81). -/
def execFwActivate (p : Path) (arg : BitVec 24) (s : State) : Host.Outcome State Fault Refusal :=
  done (accessReset p O.fwCmd (cmdData 4 arg) (cmdFw (noArg arg cmdFwActivate)) s)

/-- The trial is confirmed (R463). -/
def State.confirmTrial (s : State) : State :=
  let t := s.rd O.bootSlot
  let img := s.slotImage (slotIndex 1 t)
  let other := 1 - s.storeInForce
  let s := s.writeBootRecord fun x => { x with
    confirmed := some t, trial := none, booted := false, store := some other, floorMc := max x.floorMc (le img 6 1) }
  let s := (s.wr O.bootState 0).wr O.confirmLeft 0
  s.raise 9 0x0904 0x12 NOTICE 1 (le img 8 4) (s.secFloor 1)

/-- The engine image of the transfer is confirmed (R467). -/
def State.confirmEng (s : State) : State :=
  let img := s.slotImage s.fwSlot
  let t := s.rd O.fwTargetSlot
  let s := (s.writeBootRecord fun x => { x with engSlot := some t, floorEng := max x.floorEng (le img 6 1) }).fwEnd
  s.raise 9 0x0904 0x12 NOTICE 2 (le img 8 4) (s.secFloor 2)

/-- CONFIRM (R457). -/
def cmdFwConfirm (s : State) : State × Status :=
  match s.rd O.fwState with
  | 0 => if s.rd O.bootState = 1 then (s.confirmTrial, .ok) else (s, .ok)
  | 4 => if s.rd O.fwKind = 2 then (s.confirmEng, .ok) else (s, .range)
  | 5 => (s.confirmEng, .ok)
  | _ => (s, .busy)

/-- The meaning of FW_CONFIRM. -/
def execFwConfirm (p : Path) (arg : BitVec 24) (s : State) : Host.Outcome State Fault Refusal :=
  done (access p O.fwCmd (cmdData 5 arg) (cmdFw (noArg arg cmdFwConfirm)) s)

/-- ABORT (R457): accepted in every state of FWUP. Log entry 68 (DEDUCED). -/
def cmdFwAbort (s : State) : State × Status :=
  ((if s.rd O.fwState = FW_IDLE then s else s.fwEnd).wrSt O.fwResult .ok, .ok)

/-- ABORT with a bad argument is refused. -/
def fwAbort (arg : BitVec 24) (s : State) : State × Status :=
  if arg = 0 then cmdFwAbort s else (s.wrSt O.fwResult .range, .range)

/-- The meaning of FW_ABORT. -/
def execFwAbort (p : Path) (arg : BitVec 24) (s : State) : Host.Outcome State Fault Refusal := done (access p O.fwCmd (cmdData 6 arg) (fwAbort arg) s)

/-- REVERT (R457, R463). -/
def cmdFwRevert (s : State) : State × Status :=
  match s.rd O.fwState with
  | 0 | 4 | 5 => if s.rd O.bootState = 1 then ((s.updFw fun x => { x with reason := 3 }).askReset .sys, .ok) else (s, .range)
  | _ => (s, .busy)

/-- The meaning of FW_REVERT. -/
def execFwRevert (p : Path) (arg : BitVec 24) (s : State) : Host.Outcome State Fault Refusal :=
  done (accessReset p O.fwCmd (cmdData 7 arg) (cmdFw (noArg arg cmdFwRevert)) s)

/-- The meaning of CONFIRM_WINDOW_EXPIRY: CONFIRM_LEFT reaches 0 during a trial (R463); a device that is held down does not reset (R516). -/
def execConfirmWindowExpiry (s : State) : Host.Outcome State Fault Refusal :=
  if s.alive && s.mcState = 1 && s.rd O.bootState = 1 && !s.heldDown then done ((s.wr O.confirmLeft 0).requestReset .sys 3 1) else done s

/-! ### Keys (R456) -/

/-- KEY_REVOKE: argument [9:8] of the value names the slot, [31:16] carries 0x4B52. -/
def cmdKeyRevoke (arg : BitVec 24) (s : State) : State × Status :=
  let a := arg.toNat
  let slot := a % 256
  let after := setBit s.revokeBits slot true
  let running := s.mcState = 1 && le (s.slotImage (slotIndex 1 (s.rd O.bootSlot))) 5 1 == slot
  if a / 256 ≠ 0x4B52 || slot > 3 then (s, .range)
  else if running || after % 16 = 0xF then (s, .range)
  else (s.updFw fun x => { x with revoked := setBit x.revoked slot true }, .ok)

/-- The meaning of KEY_REVOKE. Log entry 79 (DEDUCED). -/
def execKeyRevoke (p : Path) (arg : BitVec 24) (s : State) : Host.Outcome State Fault Refusal :=
  done (access p O.keyRevoke (cmdData 1 arg) (cmdKeyRevoke arg) s)

/-! ### Lifecycle (R469) -/

/-- A forced stop abandons a verification and the blocks not yet programmed. -/
def State.fwForced (s : State) : State :=
  (if s.rd O.fwState = FW_VERIFYING then s.wr O.fwState FW_RECEIVING else s).updFw fun x => { x with buffers := [] }

/-- Is no block being programmed and no verification in progress? -/
def State.fwHeld (s : State) : Nat := s.fw.buffers.length + (if s.rd O.fwState = FW_VERIFYING then 1 else 0)

/-- DISABLE ends a transfer, whose slot then holds no verified image. -/
def State.fwDisable (s : State) : State :=
  if s.rd O.fwState = FW_IDLE then s
  else
    let i := s.fwSlot
    s.fwEnd.updFw fun w => { w with slots := mupd w.slots {} i fun x => { x with good := false } }

end Sys2Proof.Machine
end

