-- ==== Sys2Proof/Machine/Hbm.lean ====
section
/-!
DEFINITION. External memory (chapter 15): HBM3E channels, their training, commands, temperature, errors and freezes, the pattern helper;
and the QDR-IV interfaces.
-/

namespace Sys2Proof.Machine

/-- Change HBM's own state. -/
def State.updHbm (s : State) (f : HbmSt → HbmSt) : State := { s with hbm := f s.hbm }

/-! ### Channel states (R427, R431, R441) -/

/-- Segments held on a channel. -/
def State.chUsed (s : State) (c : Nat) : Nat :=
  (s.buf.queues.map fun e => (e.2.segs.filter fun g => g.channel == c).length).sum

/-- A channel takes a state (R426, R434, R441): CHANNELS_IN_SERVICE and SEGMENTS_FREE follow. -/
def State.setCh (s : State) (c v : Nat) : State :=
  let old := s.rd (O.chState c)
  if old = v then s
  else
    let before := s.segFree
    let s := s.wr (O.chState c) v
    let s := s.wr O.channelsInService s.inService.length
    (s.raise 7 0x0791 0x10 NOTICE c (old * 256 + v) (s.rd O.channelsInService)).exhausted before

/-- A DRAINING channel that holds no segment becomes OUT (R427). -/
def State.drainEnd (s : State) (c : Nat) : State :=
  if s.rd (O.chState c) = 3 && s.chUsed c = 0 then s.setCh c 4 else s

/-- Every channel. -/
def State.drainEnds (s : State) : State := (List.range 64).foldl State.drainEnd s

/-- A channel enters a state in which it would serve; on a hot stack it becomes HOT (R431). Log entry 66 (DEDUCED and DESIGN CHOICE). -/
def State.enterCh (s : State) (c v : Nat) : State :=
  if (v = 2 || v = 3) && s.rd (O.stackHot (c / 16)) = 1 then (s.updHbm fun x => { x with former := mput x.former c v }).setCh c 7
  else (s.setCh c v).drainEnd c

/-! ### Errors and freezes (R432, R433, R439, R441) -/

/-- CH_CAPTURE. -/
def State.capture (s : State) (kind : Nat) (e : HbmErr) : List Byte :=
  leBytes 8 s.pclk ++ leBytes 1 kind ++ leBytes 1 e.pc ++ leBytes 1 e.bank ++ leBytes 1 e.column ++ leBytes 2 e.row ++ leBytes 1 e.lanes
    ++ zeros 1 ++ leBytes 4 (e.segment % 67108864) ++ leBytes 4 (if kind = 3 then 0 else e.syndrome) ++ leBytes 4 e.command ++ zeros 4

/-- Pseudo-channel and column of burst `j` of a segment (R425). -/
def burstPlace (j : Nat) : Nat × Nat := (j % 2, j / 2)

/-- The burst of a segment at a pseudo-channel and column. -/
def burstAt (pc column : Nat) : Nat := (2 * column + pc % 2) % 64

/-- What a controller reports of an error in a segment: bank and row are the segment's, pseudo-channel and column those of one of its 64 bursts
(R425, R439). -/
def errIn (e : HbmErr) (segment : Nat) : HbmErr :=
  let b := burstPlace (burstAt e.pc e.column)
  { e with pc := b.1, column := b.2, segment := segment, bank := segment % 1048576 % 48, row := segment % 1048576 / 48 }

/-- May errors freeze a channel: does it serve? -/
def State.chLive (s : State) (c : Nat) : Bool := s.channelReads c

/-- A channel freezes (R433): its segments are lost, its capture written. -/
def State.freeze (s : State) (c kind : Nat) (e : HbmErr) : State :=
  let s := (s.wrB (O.chCapture c) (s.capture kind e)).wr (O.chFreezeCause c) kind
  let s := (s.updHbm fun x => { x with former := mdel x.former c }).setCh c 5
  let r := s.loseChannel c
  let s := (r.1.inc O.hbmFreezes).add (O.chSegmentsLost c) r.2
  s.raise 7 0x0790 0x10 ERROR c kind r.2

/-- A corrected error (R432, R441). -/
def State.corrected (s : State) (c : Nat) : State :=
  let s := s.inc (O.chCe c)
  s.raiseCounted (0x0793 * 65536 + c) 250000 7 0x0793 0x10 NOTICE c (s.rd (O.chCe c))

/-- The meaning of SEGMENT_READ_DONE (R320, R321, R432, R433): the segment joins HEAD in order, or its channel freezes. -/
def execSegmentReadDone (q segment : Nat) (ecc : Ecc) (err : HbmErr) (s : State) : Host.Outcome State Fault Refusal :=
  let c := segment / 1048576
  if (s.queue q).segs.any fun g => g.id == segment && g.phase == .reading then
    match ecc with
    | .uncorrectable => done (s.freeze c 1 (errIn err segment))
    | .corrected => done (((s.corrected c).segRead q segment).drainEnds)
    | .clean => done ((s.segRead q segment).drainEnds)
  else done s

/-- The meaning of HBM_SCRUB: the scrubber reads the channel's next segment in address order, and writes back one that it corrects (R432, R433).
Log entry 66 (DEDUCED and DESIGN CHOICE). -/
def execHbmScrub (ch : Fin 64) (ecc : Ecc) (err : HbmErr) (s : State) : Host.Outcome State Fault Refusal :=
  if !s.running .hbm || s.rd O.scrubInterval = 0 || !s.chLive ch.val then done s
  else
    let n := mget s.hbm.scrub 0 ch.val
    let g := ch.val * 1048576 + n
    let s := s.updHbm fun x => { x with scrub := mset x.scrub 0 ch.val ((n + 1) % 786432) }
    let s := s.perfEvent true 0x0103 1 { addr := g * 2048 }
    match ecc with
    | .clean => done s
    | .corrected => done ((s.corrected ch.val).perfEvent true 0x0102 1 { addr := g * 2048 })
    | .uncorrectable => done (s.freeze ch.val 2 (errIn err g))

/-- The meaning of HBM_COMMAND_PARITY (R433): the place in the capture is one of the channel's. -/
def execHbmCommandParity (ch : Fin 64) (err : HbmErr) (s : State) : Host.Outcome State Fault Refusal :=
  if s.chLive ch.val then done (s.freeze ch.val 3 (errIn err (ch.val * 1048576 + err.segment % 786432))) else done s

/-! ### Training (R428, R430, R434) -/

/-- A channel starts to train towards a state; it comes back with every segment free. -/
def State.retrain (s : State) (c goal : Nat) : State :=
  let s := (s.wr (O.chCapture c) 0).wr (O.chFreezeCause c) 0
  let s := (s.freshChannel c).updHbm fun x => { x with goal := mput x.goal c goal }
  s.setCh c 1

/-- The error-free runs among the `n` steps of a sweep from `lo` on, each with its first step and its length: a failing step ends one and begins the
next. -/
def goodRuns (bad : List Nat) (lo n : Nat) : List (Nat × Nat) :=
  (List.range n).foldl (fun l i =>
    if bad.contains (lo + i) then (lo + i + 1, 0) :: l
    else match l with
      | [] => [(lo + i, 1)]
      | (first, m) :: t => (first, m + 1) :: t) [(lo, 0)]

/-- The eye of a sweep over the `n` steps from `lo` on: the length of its longest error-free run. -/
def eyeOf (bad : List Nat) (lo n : Nat) : Nat := ((goodRuns bad lo n).map fun r => r.2).foldl max 0

/-- The centres of the longest error-free runs of a sweep; every step, where each one fails. Log entry 66 (DEDUCED and DESIGN CHOICE). -/
def centresOf (bad : List Nat) (lo n : Nat) : List Nat :=
  let e := eyeOf bad lo n
  if e = 0 then (List.range n).map fun i => lo + i
  else (((goodRuns bad lo n).filter fun r => r.2 == e).flatMap fun r => [r.1 + (e - 1) / 2, r.1 + e / 2]).eraseDups

/-- Centre a delay: the delay and its eye. Which centre of a run of even length, or of several runs equally long, is open.
Log entry 66 (DEDUCED and DESIGN CHOICE). -/
def State.centre (s : State) (bad : List Nat) (lo n : Nat) : (Nat × Nat) × State :=
  let r := s.oneOf (centresOf bad lo n)
  ((r.1, eyeOf bad lo n), r.2)

/-- Centre each delay of a list of sweeps, each with its failing steps, first step and number of steps. -/
def State.centreAll (s : State) : List (List Nat × Nat × Nat) → List (Nat × Nat) × State
  | [] => ([], s)
  | x :: t =>
    let r := s.centre x.1 x.2.1 x.2.2
    let q := State.centreAll r.2 t
    (r.1 :: q.1, q.2)

/-- The sweeps of steps 3 and 4 of R428: all 128 steps of each lane and direction. -/
def fullSweeps (swept : List (List Nat)) : List (List Nat × Nat × Nat) := (List.range 16).map fun i => (swept.getD i [], 0, 128)

/-- The sweeps of step 5 of R428: the 16 steps to either side of each trained delay. -/
def fineSweeps (refined : List (List Nat)) (d : List (Nat × Nat)) : List (List Nat × Nat × Nat) :=
  (List.range 16).map fun i =>
    let x := (d.getD i (0, 0)).1
    (refined.getD i [], x - 16, min (x + 16) 127 + 1 - (x - 16))

/-- The narrowest of some eyes. -/
def narrowest (l : List Byte) : Nat := (l.map fun b => b.toNat).foldl min 255

/-- The meaning of CHANNEL_TRAINED (R428): each delay is centred in its sweep, and once more in the refinement if HBM_REFINE asks for it;
delays and eyes are recorded, and the narrowest eye decides. Log entries 6 (DEDUCED and DESIGN CHOICE), 66 (DEDUCED and DESIGN CHOICE). -/
def execChannelTrained (ch : Fin 64) (swept refined : List (List Nat)) (s : State) : Host.Outcome State Fault Refusal :=
  let c := ch.val
  if s.rd (O.chState c) ≠ 1 then done s
  else
    let r := s.centreAll (fullSweeps swept)
    let r := if s.rd O.hbmRefine = 1 then r.2.centreAll (fineSweeps refined r.1) else r
    let e := r.1.map fun x => BitVec.ofNat 8 x.2
    let narrow := narrowest e
    let s := ((r.2.wrB (O.chDelays c) (r.1.map fun x => BitVec.ofNat 8 x.1)).wrB (O.chEyes c) e).wr (O.chEyeMin c) narrow
    let goal := mget s.hbm.goal 2 c
    let s := s.updHbm fun x => { x with goal := mdel x.goal c }
    done (if narrow < s.rd O.hbmEyeMin then s.setCh c 6 else s.enterCh c goal)

/-- A delay after a re-test of its sides. -/
def tracked (d : Nat) (t : Bool × Bool) : Nat :=
  if t.1 && !t.2 then d - 1 else if t.2 && !t.1 then min (d + 1) 127 else d

/-- The meaning of HBM_TRACK (R430): each byte lane's read delay moves towards the one side that passes. -/
def execHbmTrack (ch : Fin 64) (tests : List (Bool × Bool)) (s : State) : Host.Outcome State Fault Refusal :=
  let c := ch.val
  if s.running .hbm && (s.rd (O.chState c) = 2 || s.rd (O.chState c) = 7) then
    let d := s.rdB (O.chDelays c) 16
    let d := (List.range 16).map fun i =>
      let b := d.getD i 0
      if i % 2 = 0 then BitVec.ofNat 8 (tracked b.toNat (tests.getD (i / 2) (true, true))) else b
    done (s.wrB (O.chDelays c) d)
  else done s

/-! ### Temperature (R431) -/

/-- The meaning of STACK_TEMP_SAMPLE. Log entry 66 (DEDUCED and DESIGN CHOICE). -/
def execStackTempSample (k : Fin 4) (temp : Int) (s : State) : Host.Outcome State Fault Refusal :=
  let k := k.val
  if s.fnState .hbm = DISABLED then done s
  else
    let s := (s.wrS (O.stackTemp k) temp).wr (O.stackRefreshX2 k) (b2n (decide (8500 ≤ temp)))
    let crit := s.rdS O.hbmTempCrit
    let chs := (List.range 16).map fun i => 16 * k + i
    if s.rd (O.stackHot k) = 0 && crit ≤ temp then
      let s := s.wr (O.stackHot k) 1
      let s := chs.foldl (fun s c =>
        let v := s.rd (O.chState c)
        if v = 2 || v = 3 then (s.updHbm fun x => { x with former := mput x.former c v }).setCh c 7 else s) s
      done (s.raise 7 0x0792 0x10 WARNING k (ofS32 temp) 1)
    else if s.rd (O.stackHot k) = 1 && temp ≤ crit - 300 then
      let s := s.wr (O.stackHot k) 0
      let s := chs.foldl (fun s c =>
        if s.rd (O.chState c) = 7 then
          let v := mget s.hbm.former 2 c
          ((s.updHbm fun x => { x with former := mdel x.former c }).setCh c v).drainEnd c
        else s) s
      done (s.raise 7 0x0792 0x10 WARNING k (ofS32 temp) 0)
    else done s

/-! ### Channel commands (R434) -/

/-- A CH_CMD: refused while HBM is not RUNNING; its status in CH_RESULT. -/
def chCmd (c : Nat) (f : Nat → State → State × Status) (s : State) : State × Status :=
  let r := if s.running .hbm then f (s.rd (O.chState c)) s else (s, Status.functionDisabled)
  (r.1.wrSt (O.chResult c) r.2, r.2)

/-- DRAIN. -/
def chDrain (c st : Nat) (s : State) : State × Status :=
  match st with
  | 2 => ((s.setCh c 3).drainEnd c, .ok)
  | 3 | 4 => (s, .ok)
  | 5 | 6 => (s, .range)
  | _ => (s, .busy)

/-- RELEASE to service. -/
def chToService (c st : Nat) (s : State) : State × Status :=
  match st with
  | 2 => (s, .ok)
  | 3 | 4 => (s.enterCh c 2, .ok)
  | 5 | 6 => (s.retrain c 2, .ok)
  | _ => (s, .busy)

/-- RELEASE to OUT. -/
def chToOut (c st : Nat) (s : State) : State × Status :=
  match st with
  | 2 | 3 => (s, .range)
  | 4 => (s, .ok)
  | 5 | 6 => (s.retrain c 4, .ok)
  | _ => (s, .busy)

/-- RETRAIN. -/
def chRetrain (c st : Nat) (s : State) : State × Status :=
  match st with
  | 4 => (s.retrain c 4, .ok)
  | 2 | 3 | 5 | 6 => (s, .range)
  | _ => (s, .busy)

/-- The meaning of CH_DRAIN. -/
def execChDrain (p : Path) (ch : Fin 64) (arg : BitVec 24) (s : State) : Host.Outcome State Fault Refusal :=
  done (access p (O.chCmd ch.val) (cmdData 1 arg) (chCmd ch.val fun st => noArg arg (chDrain ch.val st)) s)

/-- The meaning of CH_RELEASE_SERVICE: CH_CMD RELEASE with argument bit [8] 0. -/
def execChReleaseService (p : Path) (ch : Fin 64) (arg : BitVec 24) (s : State) : Host.Outcome State Fault Refusal :=
  done (access p (O.chCmd ch.val) (cmdData 2 arg) (chCmd ch.val fun st => noArg arg (chToService ch.val st)) s)

/-- The meaning of CH_RELEASE_OUT: CH_CMD RELEASE with argument bit [8] 1. -/
def execChReleaseOut (p : Path) (ch : Fin 64) (arg : BitVec 24) (s : State) : Host.Outcome State Fault Refusal :=
  done (access p (O.chCmd ch.val) (cmdData 2 arg) (chCmd ch.val fun st => noArg (arg - 1) (chToOut ch.val st)) s)

/-- The meaning of CH_RETRAIN. -/
def execChRetrain (p : Path) (ch : Fin 64) (arg : BitVec 24) (s : State) : Host.Outcome State Fault Refusal :=
  done (access p (O.chCmd ch.val) (cmdData 3 arg) (chCmd ch.val fun st => noArg arg (chRetrain ch.val st)) s)

/-! ### The pattern helper (R429, R440) -/

/-- PAT_CMD RUN. -/
def patRun (arg : BitVec 24) (s : State) : State × Status :=
  let c := arg.toNat
  if s.rd O.patState = 1 then (s, .busy)
  else if c ≥ 64 then (s, .range)
  else if s.rd (O.chState c) ≠ 4 then (s, .notStopped)
  else ((s.updHbm fun x => { x with pattern := some c }).wr O.patState 1, .ok)

/-- The meaning of PATTERN_RUN. -/
def execPatternRun (p : Path) (arg : BitVec 24) (s : State) : Host.Outcome State Fault Refusal :=
  done (access p O.patCmd (cmdData 1 arg) (patRun arg) s)

/-- Take the bytes of one direction of a sweep: even bytes for reads, odd ones for writes. -/
def sweptBytes (write : Bool) (old new : List Byte) : List Byte :=
  (List.range 16).map fun i => if decide (i % 2 = 1) == write then new.getD i 0 else old.getD i 0

/-- Is a step of byte lane `b` tested: with a sweep, one from its first to its last step; without, the current read delay (R429)? -/
def State.stepTested (s : State) (c b step : Nat) : Bool :=
  let w := s.rd O.patSweep
  if bits w 1 0 = 0 then ((s.rdB (O.chDelays c) 16).getD (2 * b) 0).toNat == step
  else decide (bits w 14 8 ≤ step) && decide (step ≤ bits w 22 16)

/-- The errors of a run, of the steps that it tests. -/
def State.testedErrors (s : State) (c : Nat) (errors : List Byte) : List Byte :=
  (List.range 1024).map fun i => if s.stepTested c (i / 128) (i % 128) then errors.getD i 0 else 0

/-- The meaning of PATTERN_DONE: the errors of the steps tested, and the delays and eyes of a sweep unless it leaves them, are recorded.
Log entry 66 (DEDUCED and DESIGN CHOICE). -/
def execPatternDone (errors delays eyes : List Byte) (s : State) : Host.Outcome State Fault Refusal :=
  match s.hbm.pattern with
  | none => done s
  | some c =>
    let s := (s.updHbm fun x => { x with pattern := none }).wrB O.patErrors (s.testedErrors c errors)
    let s := (s.wr O.patState 2).wrSt O.patResult .ok
    let w := s.rd O.patSweep
    let dir := bits w 1 0
    if dir = 0 || bit w 2 || s.rd (O.chState c) ≠ 4 then done s
    else
      let s := s.wrB (O.chDelays c) (sweptBytes (dir == 2) (s.rdB (O.chDelays c) 16) (delays.map fun b => if b.toNat ≤ 127 then b else 127))
      let e := sweptBytes (dir == 2) (s.rdB (O.chEyes c) 16) eyes
      done ((s.wrB (O.chEyes c) e).wr (O.chEyeMin c) (narrowest e))

/-! ### Lifecycle of HBM (R436) -/

/-- What START of HBM checks. -/
def State.hbmCheckStart (s : State) : Status := if bits (s.rd O.phyPllLock) 19 16 = 0xF then .ok else .internal

/-- START is accepted: the first one trains every channel. -/
def State.hbmStarting (s : State) : State :=
  if s.hbm.trained then s else (List.range 64).foldl (fun s c => s.retrain c 2) s

/-- What the training of the first START has come to: still in progress, no channel in service, or done. -/
def State.hbmOutcome (s : State) : Option Status :=
  if s.hbm.trained then some .ok
  else if (List.range 64).any fun c => s.rd (O.chState c) == 1 then none
  else if (List.range 64).any fun c => s.rd (O.chState c) == 2 || (s.rd (O.chState c) == 7 && mget s.hbm.former 0 c == 2) then some .ok
  else some .internal

/-- HBM reaches RUNNING. -/
def State.hbmUp (s : State) : State := s.updHbm fun x => { x with trained := true }

/-- A forced stop abandons the transfers. -/
def State.hbmForced (s : State) : State := s.bufForced.drainEnds

/-- DISABLE powers the stacks down: held segments are lost, every channel reads OFF. -/
def State.hbmDisable (s : State) : State :=
  let s := (List.range 64).foldl (fun s c =>
    let s := s.setCh c 0
    let s := if s.chUsed c = 0 then s else (s.loseChannel c).1
    s.freshChannel c) s
  let s := (List.range 4).foldl (fun s k => (s.wr (O.stackHot k) 0).wr (O.stackRefreshX2 k) 0) s
  let s := if s.hbm.pattern.isSome then s.wr O.patState 0 else s
  s.updHbm fun _ => {}

/-- ENABLE of HBM: freezes are counted afresh. -/
def State.hbmEnable (s : State) : State := s.wr O.hbmFreezes 0

/-! ### QDR-IV (R447 to R449) -/

/-- The meaning of QDR_ADDRESS_PARITY: the last commands are repeated; after 16 consecutive repeats with the output asserted, the interface
has FAILED. Log entry 67 (DEDUCED and DESIGN CHOICE). -/
def execQdrAddressParity (i : Fin 4) (repeats : Nat) (s : State) : Host.Outcome State Fault Refusal :=
  let i := i.val
  if s.rd (O.qifState i) ≠ 3 then done s
  else
    let n := min repeats 16
    let s := (s.add (O.qifApErrors i) (n + 1)).add (O.qifReplays i) (n + 1)
    if n < 16 then done s
    else done ((s.wr (O.qifState i) 4).raise 4 0x04F0 0x11 ERROR i 4 (s.rd (O.qifApErrors i)))

/-- Enabled interfaces. -/
def State.qifEnabled (s : State) : List Nat := (List.range 4).filter fun i => bit (s.rd O.qdrIfEnable) i

/-- What START of QDR checks: the status, and the interface at fault. Log entry 67 (DEDUCED and DESIGN CHOICE). -/
def State.qdrCheckStart (s : State) : Status × Nat :=
  match s.qifEnabled.find? fun i => !bit (s.rd O.phyPllLock) (20 + i) with
  | some i => (.internal, i)
  | none => if s.qifEnabled.any fun i => decide (2 ≤ i) && s.rd (O.qifDensity i) == 0 then (.range, 0xFF) else (.ok, 0xFF)

/-- START is accepted: the enabled interfaces train. -/
def State.qdrStarting (s : State) : State :=
  (List.range 4).foldl (fun s i => s.wr (O.qifState i) (if s.qifEnabled.contains i then 1 else 0)) s

/-- The interface whose reported eye fails training (R447). -/
def State.qdrBadEye (s : State) (eyes : List Nat) : Option Nat :=
  s.qifEnabled.find? fun i => decide (eyes.getD i 255 < s.rd O.qdrEyeMin)

/-- QDR fails its START. -/
def State.qdrFailed (s : State) (i : Nat) : State :=
  (List.range 4).foldl (fun s j => s.wr (O.qifState j) 0) (s.wr O.qdrErrorIf i)

/-- An interface of a START whose words are still to be written passes from TRAINING to INITIALISING at a PCLK cycle that is open (R447, R450).
Log entry 67 (DEDUCED and DESIGN CHOICE). -/
def State.qdrTick (s : State) : State :=
  if s.fnState .qdr ≠ STARTING then s
  else s.qifEnabled.foldl (fun s i =>
    if s.rd (O.qifState i) ≠ 1 || (mfind s.qdr.filled i).isSome then s
    else
      let v := s.openBit
      if v.1 then v.2.wr (O.qifState i) 2 else v.2) s

/-- The writes of every word of an interface (R444, R447, R475). -/
def State.fillWords (s : State) (i : Nat) : State :=
  if i < 2 then (s.add (O.qifAccesses i) 1048576).perfRange true 0x0150 0 1048576 {} else s.add (O.qifAccesses i) 2097152

/-- QDR reaches RUNNING with the narrowest eyes reported; an interface that does so for the first time since ENABLE or P2 has had every word
written. Log entry 67 (DEDUCED and DESIGN CHOICE). -/
def State.qdrUp (s : State) (eyes : List Nat) : State :=
  let s := s.qifEnabled.foldl (fun s i => (s.wr (O.qifState i) 3).wr (O.qifEyeMin i) (min (eyes.getD i 255) 255)) (s.wr O.qdrErrorIf 0xFF)
  let new := s.qifEnabled.filter fun i => (mfind s.qdr.filled i).isNone
  let s := new.foldl State.fillWords s
  { s with
    qdr := { filled := new.foldl (fun m i => mput m i (s.polTime true)) s.qdr.filled }
    pol := { s.pol with policers := s.pol.policers.filter fun e => !(extPolicer e.1 && new.contains (e.1 % 2)) }
    perf := { s.perf with pairs := s.perf.pairs.filter fun e => !(extPair e.1 && new.contains (pairIf e.1)) } }

/-- Dirty words of the coherent cache. -/
def State.dirtyWords (s : State) : Nat := s.pol.dirty.length + s.perf.dirty.length

/-- Every dirty word is written back (R449). -/
def State.writeBack (s : State) : State :=
  let s := s.pol.dirty.foldl (fun s e => s.polAccess e.1) s
  let s := s.perf.dirty.foldl (fun s e => s.inc (O.qifAccesses (pairIf e.1))) s
  { s with pol := { s.pol with dirty := [] }, perf := { s.perf with dirty := [] } }

/-- QDR reaches STOPPED. -/
def State.qdrStopped (s : State) : State := (List.range 4).foldl (fun s i => s.wr (O.qifState i) 0) s

/-- A forced stop: which dirty words were written in time is open; the others return to what memory holds and are counted.
Log entry 27 (DEDUCED and DESIGN CHOICE). -/
def State.qdrForced (s : State) : State × Nat :=
  let a := s.pol.dirty.foldl (fun (a : State × Nat) e =>
    let v := a.1.open_
    if v.1.toNat % 2 = 1 then (v.2.polAccess e.1, a.2)
    else ({ v.2 with pol := { v.2.pol with policers := mput v.2.pol.policers e.1 e.2 } }, a.2 + 1)) (s, 0)
  let b := s.perf.dirty.foldl (fun (a : State × Nat) e =>
    let v := a.1.open_
    if v.1.toNat % 2 = 1 then (v.2.inc (O.qifAccesses (pairIf e.1)), a.2)
    else ({ v.2 with perf := { v.2.perf with pairs := mset v.2.perf.pairs (0, 0) e.1 e.2 } }, a.2 + 1)) a
  ({ b.1 with pol := { b.1.pol with dirty := [] }, perf := { b.1.perf with dirty := [] } }, b.2)

/-- DISABLE of QDR: the parts' contents are lost. -/
def State.qdrDisable (s : State) : State :=
  { s with qdr := {}, pol := { s.pol with dirty := [] }, perf := { s.perf with dirty := [] } }

end Sys2Proof.Machine
end

