-- ==== Sys2Proof/Machine/PState.lean ====
section
/-!
DEFINITION. Power states and the chrysalis store (R86 to R95), and the always-on SMBus (R97, R504).
-/

namespace Sys2Proof.Machine

/-! ### The chrysalis store (R91) -/

/-- Is an object RW or RWS? -/
def writable (k : Nat) : Bool :=
  match (lookup (k / 256) (k % 256)).map Row.acc with
  | some .rw => true
  | some .rws => true
  | _ => false

/-- Objects that the chrysalis store saves: CH_DELAYS holds training results and PC_VALUE a counter's value, which it does not. Log entry 34 (DEDUCED). -/
def savedKey (k : Nat) : Bool :=
  let i := k / 256
  if 0x1101 ≤ i && i ≤ 0x1115 then k % 256 == 4
  else if 0x1200 ≤ i && i ≤ 0x120A then k % 256 == 1 || k % 256 == 2 || k % 256 == 7
  else if (0x9100 ≤ i && i ≤ 0x913F && k % 256 == 9) || (0xB000 ≤ i && i ≤ 0xB3FF && (List.range 96).any fun n => k == O.pcValue n) then false
  else writable k && ((0x2000 ≤ i && i ≤ 0x24FF) || (0x3000 ≤ i && i ≤ 0x33FF) || (0x4000 ≤ i && i ≤ 0x44FF)
    || (0x4800 ≤ i && i ≤ 0x4BFF) || (0x5000 ≤ i && i ≤ 0x57FF) || (0x6000 ≤ i && i ≤ 0x6BFF) || (0x7000 ≤ i && i ≤ 0x7FFF)
    || (0x8000 ≤ i && i ≤ 0x88FF) || (0x9000 ≤ i && i ≤ 0x94FF) || (0xB000 ≤ i && i ≤ 0xB3FF))

/-- Objects that stay as they are in P2: the live ranges of R91, function states and MGMT (R92), the power state, what the controller
knows of the boot, counts since POR, the halts of DMA rings (R125), and the state of the root PLL and the domains (R78). Log entry 34 (DEDUCED). -/
def liveKey (k : Nat) : Bool :=
  let i := k / 256
  (0x1000 ≤ i && i ≤ 0x10FF) || (0x2500 ≤ i && i ≤ 0x25FF) || (0x3400 ≤ i && i ≤ 0x34FF) || i == 0x2020 || i == 0x1102
    || (0x1101 ≤ i && i ≤ 0x1115 && k % 256 == 2) || (i == 0xA002 && k != O.confirmWindow) || k == O.settingsFormat
    || k == O.settingsStore || k == O.settingsSaves || k == O.snapGen
    || k == O.rootState || k == O.domainStable || k == O.clkUnstable
    || (0x3100 ≤ i && i < 0x3130 && (k % 256 == 6 || k % 256 == 7))

/-- What is left of the endpoint in P2: configuration space and the MSI-X table are saved, the rest is lost (R91, R125). -/
def HostSt.inP2 (h : HostSt) : HostSt :=
  { h with rings := [], drings := [], reads := [], quarantine := [], cache := [], invalidates := [], tails := [], limits := [], late := [],
           since := [] }

/-- P2 is reached: the store is saved, every rail but VIO is off, HOST and the link are down (R86, R90, R91). HOST returns to the state in
which P2 found it (R92), and VIO and VIN12 stay watched (R66). The manual does not say what a measured object reads between the entry and the
first sample in P2: VIN12_MV, RAIL_MV of VIO and the temperatures read 0 until then. Log entries 33 (DESIGN CHOICE), 34 (DEDUCED). -/
def State.enterP2 (s : State) : State :=
  let saved := s.objs.filter fun e => savedKey e.1
  let host := if s.fnState .host == STOPPING then STOPPED else if s.fnState .host == STARTING then RUNNING else s.fnState .host
  let s := { s.dropHalves with svc := { s.dropHalves.svc with mbx := none, held := [] } }
  let s := (s.clearedCore fun k => savedKey k || liveKey k).rolesLost
  let s := { s with ev := {}, host := s.host.inP2, svc := { s.svc with staging := [] } }
  (s.setFn .host DISABLED).updPwr fun p => { p with
    regsOn := 0x10, released := 8, store := some saved, hostState := host, excursion := p.excursion &&& 0x210, crossed := 0, plls := 0 }

/-- Give objects the values of a list. Log entry 34 (DEDUCED). -/
def State.restore (s : State) (l : List (Nat × Nat)) : State := l.foldl (fun s e => s.wr e.1 e.2) s

/-- The return from P2 is complete: saved objects are restored, HOST returns to its state, in RUNNING trains its link, rings return HALTED,
SEQ restarts (R59, R91, R92). Flags that were set in P2 are lost, as R91 saves none; whether a threshold that stays crossed is raised again the
manual does not say: it is not, until it re-arms. Log entry 34 (DEDUCED and DESIGN CHOICE). -/
def State.leaveP2 (s : State) : State :=
  let saved := s.pwr.store.getD []
  let s := { s with objs := s.objs.filter fun e => liveKey e.1 }
  let s := (s.restore saved).rolesLost.setFn .host s.pwr.hostState
  let s := s.eachRing fun s n =>
    if s.rd (O.dringState n) = RING_OFF then s else (s.wr (O.dringState n) RING_HALTED).wr (O.dringHaltCause n) 5
  let s := { s with host := s.host.inP2 }
  let s := (s.fault 0 false).wr O.wakeAttempts (if s.pwr.retried then 2 else 1)
  (s.updPwr fun p => { p with store := none, returning := false, retried := false }).sampleOpen

/-! ### PSTATE_CMD (R88 to R90, R94, R95) -/

/-- Functions that need not be stopped for P1. -/
def p1Free (f : Fn) : Bool := [Fn.host, .mgmt, .clk, .line, .prot, .fwup, .perf].contains f

/-- Functions that need not be stopped for P2. -/
def p2Free (f : Fn) : Bool := f == .host || f == .mgmt

/-- Are all functions stopped that must be? -/
def State.stoppedBut (s : State) (free : Fn → Bool) : Bool :=
  Fn.all.all fun f => free f || s.fnState f == STOPPED || s.fnState f == DISABLED

/-- A transition starts. -/
def State.changing (s : State) (source target : Nat) : State :=
  (s.wr O.pstate 0x0F).updPwr fun p => { p with trans := some ⟨source, target⟩ }

/-- Everything in flight on the DMA rings on entry into P2 (R90, R125). -/
def State.p2Rings (s : State) : State := s.eachRing fun s n =>
  if s.live n then ((s.add (O.dringAborted n) (unaffected (s.dring n).flight)).dropFlight n).haltRing n 5 else s

/-- A return from P2 starts: its first regulator is enabled. -/
def State.startReturn (s : State) : State :=
  ((s.changing 2 0).updPwr fun p => { p with returning := true, returnFailed := false, retried := false }).returnRegulator

/-- PSTATE_CMD (R88). The target is argument [9:8]. Log entry 34 (DEDUCED). -/
def cmdPstate (arg : BitVec 24) (s : State) : State × Status :=
  let t := arg.toNat % 4
  let now := s.rd O.pstate
  if arg.toNat ≥ 4 || t = 3 then (s, .range)
  else if now = 0x0F then (s, .busy)
  else if s.pwr.returnFailed then (s, .internal)
  else if !((now == 0 && t == 1) || (now == 1 && t == 0) || (now == 0 && t == 2) || (now == 2 && t == 0)) then (s, .range)
  else if (t = 1 && !s.stoppedBut p1Free) || (t = 2 && !s.stoppedBut p2Free) then (s, .notStopped)
  else if now = 2 then (s.startReturn, .ok)
  else if t = 2 then ((s.p2Rings.raise 10 0x0A04 0 NOTICE 0 2 0).changing 0 2, .ok)
  else (s.changing now t, .ok)

/-- The meaning of PSTATE_TO_P0. -/
def execPstateToP0 (p : Path) (arg : BitVec 24) (s : State) : Host.Outcome State Fault Refusal :=
  done (access p O.pstateCmd (cmdData 1 arg) (cmdPstate arg) s)

/-- The meaning of PSTATE_TO_P1. -/
def execPstateToP1 (p : Path) (arg : BitVec 24) (s : State) : Host.Outcome State Fault Refusal :=
  done (access p O.pstateCmd (cmdData 1 arg) (cmdPstate arg) s)

/-- The meaning of PSTATE_TO_P2. -/
def execPstateToP2 (p : Path) (arg : BitVec 24) (s : State) : Host.Outcome State Fault Refusal :=
  done (access p O.pstateCmd (cmdData 1 arg) (cmdPstate arg) s)

/-- A transition has ended in a power state (R86, R91, R94, R95). -/
def State.settleAt (s : State) (b : Nat) : State :=
  let s := { s with svc := { s.svc with staging := [] } }
  let s := (((s.wr O.pstate b).wrSt O.pstateStatus .ok).wr O.sramAssist (b2n (b == 0))).updPwr fun p => { p with trans := none }
  if b = 0 then s.biasSettle else (s.wrS O.biasFMv 0).wrS O.biasTMv 0

/-- Fabric lanes are off in P1 (R86). -/
def State.fabricOff (s : State) : State :=
  (List.range 144).foldl (fun s f => (s.wr (O.laneState (laneIdx f)) 0).fabLaneLost f) s

/-- Is a return from P2 complete but for the end of its delay: regulators up, domains up or held, Evrad trained where XCLK runs (R78, R94)?
Log entry 34 (DEDUCED). -/
def State.returned (s : State) : Bool :=
  s.pwr.regsOn == 0x1FF && (s.pwr.released ||| s.rd O.clkUnstable) == 0xF
    && (!bit s.pwr.released 2 || (List.range 18).all fun n => s.rd (O.evradState n) != 0)

/-- The meaning of PSTATE_TRANSITION_END (R94). Entry into P2 has raised its record before the power-down. Log entry 34 (DEDUCED). -/
def execPstateTransitionEnd (s : State) : Host.Outcome State Fault Refusal :=
  match s.pwr.trans with
  | some ⟨0, 2⟩ => done (s.enterP2.settleAt 2)
  | some ⟨2, 0⟩ => if s.returned then done ((s.leaveP2.settleAt 0).raise 10 0x0A04 0 NOTICE 2 0 0) else done s
  | some ⟨a, b⟩ => done ((if b = 1 then s.fabricOff.settleAt b else s.settleAt b).raise 10 0x0A04 0 NOTICE a b 0)
  | none => done s

/-! ### SMBus (R97, R504) -/

/-- Does the SMBus interface answer? It needs the AON LDO. Log entry 36 (DEDUCED). -/
def State.smbusUp (s : State) : Bool := !s.pwr.dark && s.pwr.aonUp

/-- An SMBus write is acknowledged with its effect, or not acknowledged and without effect. -/
def State.smbus (s : State) (ack : Bool) (f : State → State) : State := if ack then (f s).emit (.smbus true) else s.emit (.smbus false)

/-- A register that the SMBus reads (R97), least significant byte first; none: the code is not acknowledged, or nothing answers. In
WAKE_STATUS the step code and the attempts are those of their objects. What VIN12 reads while PCLK is held is open. Log entry 36 (DEDUCED). -/
def State.smbusRead (s : State) (code : Nat) : Option (List Byte) :=
  if !s.smbusUp then none
  else match code with
    | 0x01 => some (leBytes 2 (s.rd O.resetCause))
    | 0x02 => some (leBytes 2 (s.rd O.wakeFailStep * 256 + s.rd O.wakeAttempts % 16 * 16 + b2n s.pwr.thermalHold * 2 + b2n s.pwr.latched.isSome))
    | 0x03 => some (leBytes 1 (b2n (s.rd O.rootState == 3) * 16 + s.rd O.clkUnstable % 16))
    | 0x04 => some (leBytes 2 (ofS32 s.pwr.diodeF))
    | 0x05 => some (leBytes 2 (ofS32 s.pwr.diodeT))
    | 0x06 => some (leBytes 2 (if s.alive then s.rd O.vin12Mv else s.peek 0))
    | 0x07 => some (leBytes 1 (s.rd O.pstate))
    | 0x08 => some (leBytes 1 (s.rd O.faultSources))
    | _ => none

/-- What the device answers at the SMBus Alert Response Address: its own address while it asserts ALERT_N (R68, R97). -/
def State.alertResponse (s : State) : Option (BitVec 7) := if s.smbusUp && s.alertN then some 0x4A else none

/-- The meaning of SMBUS_RESET_CAUSE_WRITE: the bits written 1 are cleared. This command needs no PEC byte. Log entry 36 (DEDUCED). -/
def execSmbusResetCauseWrite (word : SmbusWord) (s : State) : Host.Outcome State Fault Refusal :=
  if s.smbusUp then done (s.smbus word.pecGood fun s => s.wr O.resetCause (clearBits (s.rd O.resetCause) word.value.toNat)) else done s

/-- May WAKE_RETRY act (R69, R72, R95)? A return from P2 needs PCLK, which the loss of the root clock holds (R83). Log entry 36 (DEDUCED). -/
def State.retryApplies (s : State) : Bool :=
  (s.pwr.latched.isSome && (!s.pwr.returnFailed || s.alive)) || (s.pwr.thermalHold && decide (max s.pwr.diodeF s.pwr.diodeT ≤ 12500))

/-- What WAKE_RETRY does: a new return from P2, a wake-up from the step of R72, or one from step 1 after a thermal hold. -/
def State.wakeRetry (s : State) : State :=
  match s.pwr.latched with
  | some n =>
    if s.pwr.returnFailed then (s.updPwr fun p => { p with latched := none }).startReturn
    else (s.updPwr fun p => { p with latched := none, retried := false }).wakeAt n
  | none => ((s.fault 4 false).updPwr fun p => { p with thermalHold := false, retried := false }).wakeAt 1

/-- The meaning of WAKE_RETRY. Log entry 36 (DEDUCED). -/
def execWakeRetry (data : Byte) (pecGood : Bool) (s : State) : Host.Outcome State Fault Refusal :=
  if s.smbusUp then done (s.smbus (pecGood && data == 0xA5 && s.retryApplies) State.wakeRetry) else done s

/-- The meaning of SMBUS_SYS_RESET. Log entry 36 (DEDUCED). -/
def execSmbusSysReset (data : Byte) (pecGood : Bool) (s : State) : Host.Outcome State Fault Refusal :=
  if s.smbusUp then done (s.smbus (pecGood && data == 0x5A && !s.heldDown) fun s => s.requestReset .sys 3 2) else done s

/-- The meaning of P2_EXIT. Log entry 34 (DEDUCED). -/
def execP2Exit (data : Byte) (pecGood : Bool) (s : State) : Host.Outcome State Fault Refusal :=
  if s.smbusUp then
    done (s.smbus (pecGood && data == 0xC3 && s.alive && s.rd O.pstate == 2 && !s.pwr.returnFailed) State.startReturn)
  else done s

/-- The meaning of SMBUS_TIMEOUT (R504): the device releases the bus and resets its SMBus interface, which holds nothing between
transfers. Log entry 36 (DEDUCED). -/
def execSmbusTimeout (s : State) : Host.Outcome State Fault Refusal := done s

end Sys2Proof.Machine
end

