-- ==== Sys2Proof/Machine/Lifecycle.lean ====
section
/-!
DEFINITION. The lifecycle of the functions (R29, R30, R50 to R58, R519): the commands ENABLE, START, STOP and DISABLE, and the ends of
their transitions, with what each function does there.
-/

namespace Sys2Proof.Machine

/-! ### Acceptance (R51, R53, R54, R78, R89, R94) -/

/-- Codes of the function commands (R50). -/
abbrev CMD_ENABLE : Nat := 1
abbrev CMD_START : Nat := 2
abbrev CMD_STOP : Nat := 3
abbrev CMD_DISABLE : Nat := 4

/-- The clock domain that serves a function, as its bit of CLK_UNSTABLE (R20, R78). -/
def domainOf (f : Fn) : Option Nat :=
  match f with
  | .eng => some 0
  | .parse | .assoc | .pol | .swc | .sched => some 1
  | .buf | .bpm => some 2
  | _ => none

/-- Is a function's domain held (R78)? -/
def State.domainHeld (s : State) (f : Fn) : Bool :=
  match domainOf f with
  | some b => bit (s.rd O.clkUnstable) b
  | none => false

/-- Functions that need CLK (R54). -/
def needsClk : List Fn := [.line, .otn, .fab, .hbm, .qdr]

/-- What refuses a command before the table of R51: the path (R53), a transition in progress (R51, R94), the power state (R89).
Log entry 26 (DEDUCED and DESIGN CHOICE). -/
def State.fnRefusal (s : State) (p : Path) (f : Fn) (cmd : Nat) : Option Status :=
  if (f == .host && p != .kdp) || (f == .mgmt && p == .kdp) then some .accessDenied
  else if (s.fn f).enabling || (s.fn f).disabling then some .busy
  else if s.rd O.pstate = 0x0F then some .busy
  else if (cmd = CMD_ENABLE || cmd = CMD_START)
      && ((s.rd O.pstate == 1 && !p1Free f) || (s.rd O.pstate == 2 && f != .mgmt)) then some .functionDisabled
  else none

/-! ### START (R519) -/

/-- What a START does on acceptance: the failure of its checks of settings and states, if any, and the work that begins. Where START of LINE
fails for a PLL, the manual does not say whether the staged pairs stand: no pair is applied, and the ports that exist are those of the staged modes.
Log entry 26 (DEDUCED and DESIGN CHOICE). -/
def State.startChecks (s : State) (f : Fn) : State × Option Status :=
  let bad := fun (st : Status) => if st = .ok then none else some st
  match f with
  | .clk =>
    let s := s.updPwr fun p => { p with plls := s.rd O.phyPllEnable }
    (s.wr O.phyPllLock (s.rd O.phyPllLock &&& s.rd O.phyPllEnable), none)
  | .line =>
    let st := s.lineStartCheck
    if st = .ok then (s.pairsChanged s.lineApplyAll, none) else (s, some st)
  | .otn => let r := s.otnStartCheck; (r.1, bad r.2)
  | .assoc =>
    match s.assocBad with
    | some t => (s.wr O.assocErrorTable t, some .range)
    | none => (s.wr O.assocErrorTable 0xFF, none)
  | .sched =>
    let r := s.schedCheckStart
    ((match r.2 with
      | some n => s.wr O.schedErrorNode n
      | none => s), bad r.1)
  | .fab => (s, bad s.fabCheckStart)
  | .hbm => if s.hbmCheckStart = .ok then (s.hbmStarting, none) else (s, some s.hbmCheckStart)
  | .qdr => let r := s.qdrCheckStart; if r.1 = .ok then (s.qdrStarting, none) else (s.wr O.qdrErrorIf r.2, some r.1)
  | .bpm => (s, bad s.bpmCheckStart)
  | _ => (s, none)

/-- START refused for another function's state (R54). -/
def State.startBlocked (s : State) (f : Fn) : Bool :=
  (needsClk.contains f && !s.running .clk) || (f == .otn && !s.running .line)

/-- START. -/
def State.fnStart (s : State) (f : Fn) : State × Status :=
  match s.fnState f with
  | 0 => (s, .functionDisabled)
  | 1 =>
    if s.startBlocked f then (s, .functionDisabled)
    else
      let r := (s.setFn f STARTING).startChecks f
      (r.1.updFn f fun x => { x with verdict := r.2 }, .ok)
  | 4 => (s, .busyStopping)
  | _ => (s, .ok)

/-! ### STOP (R57) -/

/-- What the acceptance of a STOP does at once. -/
def State.stopBegins (s : State) (f : Fn) : State :=
  match f with
  | .host => s.eachRing State.startNone
  | .clk => s.setPps false
  | .otn => s.otnStopping
  | .fwd => s.fwdStopping
  | .prot => s.protFreeze
  | .perf => s.perfStopped
  | _ => s

/-- STOP. -/
def State.fnStop (s : State) (f : Fn) : State × Status :=
  match s.fnState f with
  | 0 => (s, .functionDisabled)
  | 2 => (s, .busy)
  | 3 =>
    if f == .clk && needsClk.any s.active then (s, .busy)
    else
      let s := (s.setFn f STOPPING).updFn f fun x => { x with stopBound := s.rd (O.stopTimeout f.code) }
      ((s.stopBegins f).synceAll.protFollow, .ok)
  | _ => (s, .ok)

/-! ### The command table (R51) -/

/-- ENABLE. -/
def State.fnEnable (s : State) (f : Fn) : State × Status :=
  match s.fnState f with
  | 0 => if s.domainHeld f then (s, .functionDisabled) else (s.updFn f fun x => { x with enabling := true }, .ok)
  | 4 => (s, .busyStopping)
  | _ => (s, .ok)

/-- DISABLE. -/
def State.fnDisable (s : State) (f : Fn) : State × Status :=
  match s.fnState f with
  | 0 => (s, .ok)
  | 1 => (s.updFn f fun x => { x with disabling := true }, .ok)
  | _ => (s, .notStopped)

/-- A function command by its code. Log entry 19 (DEDUCED). -/
def cmdFn (p : Path) (f : Fn) (cmd : Nat) (s : State) : State × Status :=
  match s.fnRefusal p f cmd with
  | some st => (s, st)
  | none =>
    match cmd with
    | 1 => s.fnEnable f
    | 2 => s.fnStart f
    | 3 => s.fnStop f
    | 4 => s.fnDisable f
    | _ => (s, .range)

/-- The meaning of ENABLE. -/
def execEnable (p : Path) (f : Fn) (arg : BitVec 24) (s : State) : Host.Outcome State Fault Refusal :=
  done (access p (O.fnCommand f.code) (cmdData CMD_ENABLE arg) (noArg arg (cmdFn p f CMD_ENABLE)) s)

/-- The meaning of START. Log entry 26 (DEDUCED and DESIGN CHOICE). -/
def execStart (p : Path) (f : Fn) (arg : BitVec 24) (s : State) : Host.Outcome State Fault Refusal :=
  done (access p (O.fnCommand f.code) (cmdData CMD_START arg) (noArg arg (cmdFn p f CMD_START)) s)

/-- The meaning of STOP. -/
def execStop (p : Path) (f : Fn) (arg : BitVec 24) (s : State) : Host.Outcome State Fault Refusal :=
  done (access p (O.fnCommand f.code) (cmdData CMD_STOP arg) (noArg arg (cmdFn p f CMD_STOP)) s)

/-- The meaning of DISABLE. -/
def execDisable (p : Path) (f : Fn) (arg : BitVec 24) (s : State) : Host.Outcome State Fault Refusal :=
  done (access p (O.fnCommand f.code) (cmdData CMD_DISABLE arg) (noArg arg (cmdFn p f CMD_DISABLE)) s)

/-! ### The ends of transitions (R52, R60) -/

/-- A transition ends: LAST_STATUS and COMMAND_DONE (R52, R60). -/
def State.commandDone (s : State) (f : Fn) (cmd : Nat) (st : Status) : State :=
  let s := s.wrSt (O.lastStatus f.code) st
  s.raise 0 0x0001 f.code (doneSeverity st WARNING) (O.fnCommand f.code) (cmd + 256 * s.fnState f) st.code

/-- The meaning of ENABLE_DONE: the function reads STOPPED with empty tables. -/
def execEnableDone (f : Fn) (s : State) : Host.Outcome State Fault Refusal :=
  if s.alive && (s.fn f).enabling then
    let s := (s.updFn f fun x => { x with enabling := false }).setFn f STOPPED
    done ((if f == .hbm then s.hbmEnable else s).commandDone f CMD_ENABLE .ok)
  else done s

/-- The PHY PLLs that a failed START of CLK had not locked are powered down (R84). -/
def State.clkFails (s : State) : State := s.updPwr fun p => { p with plls := s.rd O.phyPllLock }

/-- A START fails: the function returns to STOPPED with the failure status (R51, R519). -/
def State.startFails (s : State) (f : Fn) (st : Status) : State :=
  let s := (s.updFn f fun x => { x with verdict := none }).setFn f STOPPED
  s.commandDone f CMD_START st

/-- RUNNING is reached: the staged values take effect together (R56). Log entry 26 (DEDUCED and DESIGN CHOICE). -/
def State.startEnds (s : State) (f : Fn) (up : State → State) : State :=
  let s := up (s.setFn f RUNNING)
  (if f == .prot then s else s.protFollow).commandDone f CMD_START .ok

/-- Every OTN group follows LINE (R187): while LINE does not run no overhead is read, so neither BIAE nor violations to return stand (R173). -/
def State.otnAll (s : State) : State :=
  (List.range 12).foldl (fun s g =>
    let s := if s.running .line then s
      else (s.updGrp g fun x => { x with slices := x.slices.map fun e => (e.1, e.2.noOverhead) }).freshBei g
    (s.losFollow g).otnFollow g) s

/-- FW_FALLBACK is raised at the next START of FWUP (R463, R473). -/
def State.fwUp (s : State) : State :=
  if s.fw.due then
    (s.updFw fun x => { x with due := false }).raise 9 0x0905 0x12 ERROR (s.rd O.lastFallback) (s.rd O.lastFallbackVersion)
      (s.rd O.mcFwVersion)
  else s

/-- The interface that a failed training of QDR names when no eye was reported: one of the enabled ones.
Log entry 67 (DEDUCED and DESIGN CHOICE). -/
def State.qdrOpenIf (s : State) : State × Nat :=
  let v := s.open_
  (v.2, (s.qifEnabled).getD (v.1.toNat % max 1 s.qifEnabled.length) 0)

/-- How a START that passed its checks ends, with what the hardware reports: the clusters whose bank failed its read-back (ENG), the
narrowest eye of each interface (QDR). -/
def State.startOutcome (s : State) (f : Fn) (report : List Nat) : State :=
  match f with
  | .clk =>
    if s.rd O.phyPllEnable &&& s.rd O.phyPllLock = s.rd O.phyPllEnable then s.startEnds f State.synceAll
    else s.clkFails.startFails f .internal
  | .line => s.startEnds f fun s => s.lineUp.synceAll.otnAll
  | .otn => s.startEnds f State.otnUp
  | .parse => s.startEnds f State.parseUp
  | .eng =>
    let img := s.slotImage (slotIndex 2 s.engBoot)
    if s.engBoot = 0xFF || s.verifyError 2 false img ≠ 0 then s.startFails f .signature
    else if report.eraseDups.length > 1 then s.startFails f .integrity
    else s.startEnds f fun s => s.engUp (imageBundle img) report
  | .assoc => s.startEnds f State.assocUp
  | .swc => s.startEnds f State.swcUp
  | .sched => s.startEnds f State.schedUp
  | .fab => s.startEnds f State.fabUp
  | .prot => s.startEnds f State.protUp
  | .hbm =>
    match s.hbmOutcome with
    | none => s
    | some .ok => s.startEnds f State.hbmUp
    | some st => s.startFails f st
  | .qdr =>
    match s.qdrBadEye report with
    | some i => (s.qdrFailed i).startFails f .internal
    | none => s.startEnds f fun s => s.qdrUp report
  | .bpm => s.startEnds f State.bpmUp
  | .fwup => s.startEnds f State.fwUp
  | .host => s.startEnds f State.sendPending
  | .mgmt | .fwd | .buf | .pol | .perf | .trap => s.startEnds f id

/-- The meaning of START_DONE: STARTING ends. A START whose checks failed ends with their status. Log entry 26 (DEDUCED and DESIGN CHOICE). -/
def execStartDone (f : Fn) (report : List Nat) (s : State) : Host.Outcome State Fault Refusal :=
  if !s.alive || s.fnState f ≠ STARTING then done s
  else match (s.fn f).verdict with
    | some st => done (s.startFails f st)
    | none => done (s.startOutcome f report)

/-- The meaning of START_FAILED: the failure of the checks, or one that the hardware work of the function can meet (R84, R242, R436,
R447). Log entry 26 (DEDUCED and DESIGN CHOICE). -/
def execStartFailed (f : Fn) (status : Status) (s : State) : Host.Outcome State Fault Refusal :=
  if !s.alive || s.fnState f ≠ STARTING then done s
  else match (s.fn f).verdict with
    | some st => done (s.startFails f st)
    | none =>
      match f, status with
      | .clk, .internal =>
        if s.rd O.phyPllEnable &&& s.rd O.phyPllLock = s.rd O.phyPllEnable then done s else done (s.clkFails.startFails f .internal)
      | .eng, .signature =>
        if s.engBoot = 0xFF || s.verifyError 2 false (s.slotImage (slotIndex 2 s.engBoot)) ≠ 0 then done (s.startFails f .signature)
        else done s
      | .eng, .integrity =>
        if s.engBoot = 0xFF || s.verifyError 2 false (s.slotImage (slotIndex 2 s.engBoot)) ≠ 0 then done s
        else done (s.startFails f .integrity)
      | .hbm, .internal => if s.hbmOutcome = some .internal then done (s.startFails f .internal) else done s
      | .qdr, .internal => let r := s.qdrOpenIf; done ((r.1.qdrFailed r.2).startFails f .internal)
      | _, _ => done s

/-! ### The end of STOPPING (R57) -/

/-- Descriptors in flight on the DMA rings. Log entry 27 (DEDUCED and DESIGN CHOICE). -/
def State.hostHeld (s : State) : Nat := ((List.range 48).map fun n => if s.live n then (s.dring n).flight.length + (s.dring n).owing.length else 0).sum

/-- Frames that the MACs still hold. Log entry 27 (DEDUCED and DESIGN CHOICE). -/
def State.macHeld (s : State) : Nat := (s.pk.mac.map fun e => e.2.length).sum

/-- Ports in SWITCHING. -/
def State.switching (s : State) : Nat := ((List.range 96).filter fun p => s.rd (O.protRole p) == 2).length

/-- Tables of the associative engine with row writes due. -/
def State.assocHeld (s : State) : Nat := (s.asc.tables.filter fun e => !e.2.due.isEmpty).length

/-- Units of work that keep a function in STOPPING. Log entry 27 (DEDUCED and DESIGN CHOICE). -/
def State.heldWork (s : State) (f : Fn) : Nat :=
  match f with
  | .host => s.hostHeld
  | .mgmt => s.svc.kdpQueue.length
  | .line => s.macHeld
  | .parse => s.parseHeld
  | .eng => if s.engIdle then 0 else max 1 s.pk.passes.length
  | .fwd => s.fwd.flushes.length
  | .assoc => s.assocHeld
  | .buf | .hbm => s.bufHeld
  | .swc => s.swcHeld
  | .fab => s.fabHeld
  | .prot => s.switching
  | .fwup => s.fwHeld
  | .trap => s.pk.trap.length
  | .otn => s.otn.sending.length
  | .clk | .sched | .pol | .qdr | .perf | .bpm => 0

/-- HOST stops: its rings halt (R55, R125). -/
def State.hostStopped (s : State) : State := (s.eachRing fun s n => if s.live n then s.haltRing n 4 else s).dropAllWaiting

/-- ENG has stopped: banks and store are empty, and a staged image is no longer staged (R249, R467). -/
def State.engDown (s : State) : State := if s.rd O.fwState = FW_STAGED then s.engStopped.wr O.fwState FW_VERIFIED else s.engStopped

/-- What reaching STOPPED does. -/
def State.stopEnds (s : State) (f : Fn) : State :=
  match f with
  | .host => s.hostStopped
  | .line => s.otnAll
  | .otn => s.otnDown
  | .parse => s.swapDone
  | .eng => s.engDown
  | .fab => s.fabStopped
  | .qdr => s.writeBack.qdrStopped
  | _ => s

/-- The packets left in the trap path are dropped and counted by code (R55, R57). -/
def State.trapForced (s : State) : State :=
  let s := s.pk.trap.foldl (fun s t => s.inc (O.trapDrops (trapOf t.pkt.md))) s
  s.upk fun x => { x with trap := [] }

/-- The frames left in the MACs are discarded. -/
def State.macForced (s : State) : State :=
  (List.range 96).foldl (fun s p =>
    let s := (s.macOf p).foldl (fun s f => (s.leavePort f.owner f.bytes).inc (O.txDiscards p)) s
    s.setMac p []) s

/-- What a forced stop discards: the state and the number of units, for functions that do not count them themselves.
Log entry 27 (DEDUCED and DESIGN CHOICE). -/
def State.forcedStop (s : State) (f : Fn) : State × Nat :=
  let n := s.heldWork f
  match f with
  | .host => ((s.eachRing fun s n => s.suspendRing 4 n).dropAllWaiting, n)
  | .mgmt => ({ s with svc := { s.svc with kdpQueue := [] } }, n)
  | .line => (s.macForced, n)
  | .parse => (s.parseForced, 0)
  | .eng => (s.engForced, 0)
  | .fwd => (s.fwdForced, n)
  | .assoc => s.assocForced
  | .buf => (s.bufForced.drainEnds, n)
  | .hbm => (s.hbmForced, n)
  | .swc => (s.swcForced, n)
  | .fab => (s.fabForced, n)
  | .qdr => s.qdrForced
  | .fwup => (s.fwForced, n)
  | .trap => (s.trapForced, n)
  | .otn => (s.otnForced, n)
  | .clk | .sched | .pol | .prot | .perf | .bpm => (s, n)

/-- STOPPED is reached. -/
def State.stopped (s : State) (f : Fn) (st : Status) : State :=
  ((s.setFn f STOPPED).stopEnds f).protFollow.commandDone f CMD_STOP st

/-- The meaning of STOP_DONE: no work is left in hand. -/
def execStopDone (f : Fn) (s : State) : Host.Outcome State Fault Refusal :=
  if s.alive && s.fnState f == STOPPING && s.heldWork f == 0 then done (s.stopped f .ok) else done s

/-- The meaning of STOP_TIMEOUT: what is left is discarded and counted. Log entry 27 (DEDUCED and DESIGN CHOICE). -/
def execStopTimeout (f : Fn) (s : State) : Host.Outcome State Fault Refusal :=
  if s.alive && s.fnState f == STOPPING then
    let r := s.forcedStop f
    done ((r.1.add (O.stopDiscards f.code) r.2).stopped f .busy)
  else done s

/-! ### DISABLE (R30, R514) -/

/-- Counts and fill levels of 32 bits or less among a function's RO objects. Log entry 28 (DEDUCED and DESIGN CHOICE). -/
def smallCount (k : Nat) : Bool :=
  let i := k / 256
  k == O.ppsInEdges || k == O.tsiSwaps || k == O.chainSwaps || k == O.mcodeSwitches || (0x5500 ≤ i && i < 0x5530 && k % 256 == 8)
    || (0x8010 ≤ i && i < 0x8016 && k % 256 == 7) || (0x8820 ≤ i && i < 0x8880 && k % 256 == 0x0A) || (0x9410 ≤ i && i < 0x9414 && k % 256 == 5)
    || (0x6060 ≤ i && i < 0x6070 && k % 256 == 2) || k == O.retiringCount || (0x6040 ≤ i && i < 0x6042 && k % 256 ≤ 2)
    || (0x6101 ≤ i && i ≤ 0x6108 && k % 256 == 8) || (0x6810 ≤ i && i < 0x6820 && k % 256 == 8)

/-- 64-bit RO objects that are no counts of the function. Log entry 28 (DEDUCED and DESIGN CHOICE). -/
def notCount (k : Nat) : Bool :=
  k == O.todSec || k == O.ppsInSec || k == O.snapGen || k == O.confirmLeft || (0x8010 ≤ k / 256 && k / 256 < 0x8016 && k % 256 == 0x0B)

/-- Does DISABLE of a function return an object to its default? Log entry 28 (DEDUCED and DESIGN CHOICE). -/
def countOf (f : Fn) (k : Nat) : Bool :=
  match lookup (k / 256) (k % 256) with
  | some r => r.owner == some f && (r.acc == .rc || (r.acc == .ro && ((r.ty == .u64 && !notCount k) || smallCount k)))
  | none => false

/-- What DISABLE of a function discards: its tables and counts. Log entry 28 (DEDUCED and DESIGN CHOICE). -/
def State.disableEnds (s : State) (f : Fn) : State :=
  let s := { s with objs := s.objs.filter fun e => !countOf f e.1 }
  match f with
  | .clk => ((s.updPwr fun p => { p with plls := 0 }).wr O.phyPllLock 0).synceAll
  | .line => s.lineDisable.synceAll.losAll
  | .otn => s.otnDisable
  | .parse => s.parseDisable
  | .eng => s.engDisable
  | .fwd => s.fwdDisable
  | .assoc => s.assocDisable
  | .buf => s.bufDisable.drainEnds
  | .swc => s.swcDisable
  | .sched => s.schedDisable
  | .pol => s.polDisable
  | .fab => s.fabDisable
  | .hbm => s.hbmDisable
  | .qdr => s.qdrDisable
  | .fwup => s.fwDisable
  | .perf => s.perfDisable
  | .bpm => (List.range 8).foldl (fun s p => s.wr (O.poolLow p) (s.poolTotal p)) s.bpmDisable
  | .host | .mgmt | .prot | .trap => s

/-- The meaning of DISABLE_DONE. Log entry 28 (DEDUCED and DESIGN CHOICE). -/
def execDisableDone (f : Fn) (s : State) : Host.Outcome State Fault Refusal :=
  if s.alive && (s.fn f).disabling then
    let s := ((s.updFn f fun x => { x with disabling := false }).disableEnds f).setFn f DISABLED
    done (s.protFollow.commandDone f CMD_DISABLE .ok)
  else done s

end Sys2Proof.Machine
end

