-- ==== Sys2Proof/Machine/Command.lean ====
section
/-!
DEFINITION. The command objects of the dictionary by code: what a CMD value does when it arrives inside a mailbox access, a KDP
record or a plain write, with the refusal of an undefined code (R3, R28).
-/

namespace Sys2Proof.Machine

/-- An undefined command code (R3). Log entry 19 (DEDUCED). -/
def badCode (s : State) : State × Status := (s, .range)

/-- Function commands (R50). -/
def runFn (p : Path) (n code : Nat) (arg : BitVec 24) : State → State × Status :=
  match Fn.ofCode n with
  | some f => noArg arg (cmdFn p f code)
  | none => badCode

/-- DRING_CMD (R109). -/
def runDring (n code : Nat) (arg : BitVec 24) : State → State × Status :=
  match code with
  | 1 => noArg arg (cmdArm n)
  | 2 => noArg arg (cmdHalt n)
  | 3 => noArg arg (cmdResetRing n)
  | _ => badCode

/-- The words with bad parity that a command on table `t` reads where its row does not tell them: none, or one word, of the entry looked up or
another. Log entry 25 (DEDUCED). -/
def State.openReads (s : State) (t key : Nat) : List BadRead × State :=
  let v := s.open_
  let w := v.2.open_
  let n := v.1.toNat
  if bit n 0 then
    ([{ stage := none, tid := t, key := if bit n 1 then key else w.1.toNat, word := n / 64, keyBad := bit n 2, len := n / 64 % 128
        tagBad := bit n 3, prioBad := bit n 4 }], w.2)
  else ([], w.2)

/-- A command on a table with what it reads bad drawn open. -/
def withReads (t : Nat) (f : State → List BadRead → TblArg → Nat → Nat → State × TblAnswer) (s : State) (a : TblArg) (k d : Nat) :
    State × TblAnswer :=
  let r := s.openReads t k
  f r.2 r.1 a k d

/-- TBL_CMD of the table with identifier `t` (R262). -/
def runTbl (p : Path) (t code : Nat) (arg : BitVec 24) : State → State × Status :=
  let m := Path.master p
  match code with
  | 1 => cmdTbl t arg (withReads t fun s bad a k d => s.cmdInsert m bad t a k d)
  | 2 => cmdTbl t arg (withReads t fun s bad a k _ => s.cmdDelete m bad t a k)
  | 3 => cmdTbl t arg (withReads t fun s bad a k _ => s.cmdSearch m bad t a k)
  | 4 => cmdTbl t arg (withReads t fun s bad a _ _ => s.cmdNext m bad t a)
  | 5 => cmdTbl t arg fun s a _ _ => s.flushPort t a.halves a.station a.static none
  | 6 => cmdTbl t arg fun s _ k _ => s.cmdRetire m t k
  | _ => cmdTbl t 0 fun s _ _ _ => (s, { status := .range })

/-- ASC_CMD SEARCH where its row does not tell what the winner check finds: open. Log entry 25 (DEDUCED). -/
def openSearch (m : Nat) (arg : BitVec 24) (s : State) : State × Status :=
  let v := s.open_
  let n := v.1.toNat
  cmdAscSearch m { arg := arg, bad := bit n 0, tagBad := bit n 1, prioBad := bit n 2 } v.2

/-- ASC_CMD (R305). -/
def runAsc (p : Path) (code : Nat) (arg : BitVec 24) : State → State × Status :=
  match code with
  | 1 => cmdAscInsert (Path.master p) arg
  | 2 => cmdAscDelete (Path.master p) arg
  | 3 => openSearch (Path.master p) arg
  | 4 => cmdAsc arg fun s t => s.ascRead t (s.rd O.ascRow)
  | 5 => cmdAsc arg fun s t => s.ascNext t (s.rd O.ascRow) (bit arg.toNat 23)
  | _ => cmdAsc 0 fun s _ => (s, { status := .range })

/-- CH_CMD of a channel (R438). -/
def runCh (c code : Nat) (arg : BitVec 24) : State → State × Status :=
  match code with
  | 1 => chCmd c fun st => noArg arg (chDrain c st)
  | 2 => chCmd c fun st => if arg = 0 then chToService c st else noArg (arg - 1) (chToOut c st)
  | 3 => chCmd c fun st => noArg arg (chRetrain c st)
  | _ => chCmd c fun _ => badCode

/-- TSI_CMD (R188). -/
def runTsi (code : Nat) (arg : BitVec 24) : State → State × Status :=
  match code with
  | 1 => tsiCmd (noArg arg cmdTsiWrite)
  | 2 => tsiCmd (noArg arg (cmdTsiRead false))
  | 3 => tsiCmd (noArg arg (cmdTsiRead true))
  | 4 => tsiCmd (noArg arg cmdTsiCopy)
  | 5 => tsiCmd (noArg arg cmdTsiClear)
  | 6 => tsiCmd (noArg arg cmdTsiSwap)
  | _ => tsiCmd badCode

/-- FW_CMD (R457). -/
def runFw (code : Nat) (arg : BitVec 24) : State → State × Status :=
  match code with
  | 1 => cmdFw (cmdFwBegin arg)
  | 2 => cmdFw (noArg arg cmdFwWrite)
  | 3 => if arg = 0 then fwVerify else cmdFw badCode
  | 4 => cmdFw (noArg arg cmdFwActivate)
  | 5 => cmdFw (noArg arg cmdFwConfirm)
  | 6 => fwAbort arg
  | 7 => cmdFw (noArg arg cmdFwRevert)
  | _ => cmdFw badCode

/-- SUBPORT_CMD, TOD and PERF commands, and the other command objects of one index (R142, R158, R489). -/
def runLine (k code : Nat) (arg : BitVec 24) : State → State × Status :=
  if k = O.subportCmd then
    match code with
    | 1 => subportArg arg cmdBind
    | 2 => subportArg arg cmdUnbind
    | 3 => subportArg arg cmdSubportRead
    | _ => subportArg arg fun _ => badCode
  else if k = O.todCapture then if code = 1 then noArg arg cmdTodCapture else badCode
  else if k = O.todSet then
    match code with
    | 1 => noArg arg cmdTodSetNow
    | 2 => noArg arg cmdTodSetArm
    | 3 => noArg arg cmdTodSetCancel
    | _ => badCode
  else if k = O.todStep then if code = 1 then cmdTodStep arg else badCode
  else badCode

/-- A read of a statistics pair where its row does not tell what it meets. Log entry 25 (DEDUCED). -/
def openCapture (m : Nat) (clear : Bool) (n : Nat) (s : State) : State :=
  let r := s.openPair
  r.2.statCapture m n clear r.1

/-- The command objects of chapters 07, 08 and 17. -/
def runPacket (p : Path) (k code : Nat) (arg : BitVec 24) : State → State × Status :=
  if k = O.chainCmd then
    match code with
    | 1 => cmdChain arg chainCopy
    | 2 => cmdChain arg chainSwap
    | 3 => cmdChain arg chainClear
    | _ => chainRecorded badCode
  else if k = O.profCmd then
    match code with
    | 1 => cmdProfile arg (profWrite false)
    | 2 => cmdProfile arg profRead
    | 3 => cmdProfile arg (profWrite true)
    | _ => cmdProfile arg fun _ => badCode
  else if k = O.mcodeCmd then
    match code with
    | 1 => noArg arg cmdLoad
    | 2 => noArg arg cmdSwitch
    | 3 => noArg arg cmdMcodeAbort
    | _ => badCode
  else if k = O.perfCmd then
    match code with
    | 1 => noArg arg (cmdFreeze true)
    | 2 => noArg arg (cmdFreeze false)
    | 3 => noArg arg fun s => (s.snapshot, .ok)
    | _ => badCode
  else if k = O.statCmd then
    match code with
    | 1 => statCmd arg (openCapture (Path.master p) false)
    | 2 => statCmd arg (openCapture (Path.master p) true)
    | 3 => statCmd arg (State.statStore (Path.master p))
    | _ => fun s => (s.wrSt O.statResult .range, .range)
  else badCode

/-- A read of a policer where its row does not tell what it meets. Log entry 25 (DEDUCED). -/
def openPolRead (n : Nat) (s : State) : State × Status :=
  let r := s.openPair
  polRead r.1.ecc r.1.part n r.2

/-- The command objects of the T-die units. -/
def runTDie (k code : Nat) (arg : BitVec 24) : State → State × Status :=
  if k = O.qbufCmd then
    match code with
    | 1 => qbufRecorded (noArg arg fun s => s.writeAttr (s.rd O.qbufQueue) (s.rd O.qbufData))
    | 2 => qbufRecorded (noArg arg qbufRead)
    | _ => qbufRecorded badCode
  else if k = O.bpmCmd then
    match code with
    | 1 => bpmRecorded (bpmAlloc arg.toNat)
    | 2 => bpmRecorded (bpmEnabled (noArg arg bpmFree))
    | 3 => bpmRecorded (bpmEnabled (noArg arg bpmCheck))
    | _ => bpmRecorded (bpmEnabled badCode)
  else if k = O.nodeCmd then
    match code with
    | 1 => nodeCmd arg fun level s => s.nodeWrite level (s.rd O.nodeNumber) (s.rd O.nodeData)
    | 2 => nodeCmd arg nodeRead
    | _ => nodeCmd arg fun _ => badCode
  else if k = O.shapeCmd then
    match code with
    | 1 => shapeCmd arg shapeWrite
    | 2 => shapeCmd arg shapeRead
    | _ => shapeCmd arg fun _ => badCode
  else if k = O.polCmd then
    match code with
    | 1 => polCmd arg fun n s => s.polAssign n (s.rd O.polProfile)
    | 2 => polCmd arg openPolRead
    | _ => polCmd arg fun _ => badCode
  else if k = O.pprofCmd then
    match code with
    | 1 => pprofCmd arg pprofWrite
    | 2 => pprofCmd arg pprofRead
    | _ => pprofCmd arg fun _ => badCode
  else if k = O.patCmd then if code = 1 then patRun arg else badCode
  else badCode

/-- A command whose object takes one code, 0x01. -/
def runOnly (code : Nat) (f : State → State × Status) : State → State × Status := if code = 1 then f else badCode

/-- The command objects of power and protection. -/
def runPower (k code : Nat) (arg : BitVec 24) : State → State × Status :=
  if k = O.sysReset then runOnly code (cmdSysReset arg)
  else if k = O.coreReset then runOnly code (cmdCoreReset arg)
  else if k = O.pstateCmd then runOnly code (cmdPstate arg)
  else if k = O.keyRevoke then runOnly code (cmdKeyRevoke arg)
  else if k = O.protRelinquish then
    match code with
    | 1 => noArg arg (cmdRelinquish true)
    | 2 => noArg arg (cmdRelinquish false)
    | _ => badCode
  else badCode

end Sys2Proof.Machine
end

