-- ==== Sys2Proof/Machine/Dict.lean ====
section
/-!
DEFINITION. Reads and writes of dictionary objects that have no command of their own (chapter 02): the checks of R28, R29, R33
and R39 in their order, the values that objects compute when they are read, and what a write does beyond storing its value.
-/

namespace Sys2Proof.Machine

/-! ### Values (R3, R28) -/

/-- May an object of this check take the value? Log entries 18 (DEDUCED), 73 (DEDUCED). -/
def Chk.ok (c : Chk) (v : Nat) : Bool :=
  match c with
  | .any => true
  | .rng lo hi => decide (lo ≤ v) && decide (v ≤ hi)
  | .srng lo hi => decide (lo ≤ toS32 v) && decide (toS32 v ≤ hi)
  | .zeroOr lo hi => v == 0 || (decide (lo ≤ v) && decide (v ≤ hi))
  | .mask m => (v &&& m) == v
  | .maskTop m lo hi => (v &&& m) == v && decide (v / 2 ^ lo ≤ hi)
  | .oneOf l => l.contains v
  | .mult n => v % n == 0
  | .steps lo hi n => decide (lo ≤ v) && decide (v ≤ hi) && (v - lo) % n == 0
  | .stepsZ lo hi n => v == 0 || (decide (lo ≤ v) && decide (v ≤ hi) && (v - lo) % n == 0)
  | .orFF hi => decide (v ≤ hi) || v == 0xFF
  | .orFFFF hi => decide (v ≤ hi) || v == 0xFFFF
  | .be n m lo w hi =>
    let x := beNat (leBytes n v)
    (x &&& m) == x && decide (x / 2 ^ lo % 2 ^ w ≤ hi)

/-- The length of a byte string type. -/
def Ty.octetsLen (t : Ty) : Option Nat :=
  match t with
  | .octets n => some n
  | _ => none

/-- Does a value lie in the range of its type (R28)? Log entry 18 (DEDUCED). -/
def Ty.holdsValue (t : Ty) (v : Nat) : Bool := decide (v < 256 ^ t.size) && (t != .bool || decide (v ≤ 1))

/-! ### Existence, rights, lengths (R25, R29, R39) -/

/-- The status of an access to an object that does not exist (R25). -/
def absent (k : Nat) : Status := if indexHolds (k / 256) then .noSubindex else .noObject

/-- The row of an object. -/
def rowOf (k : Nat) : Option Row := lookup (k / 256) (k % 256)

/-- What the access right refuses to a write (R29). Log entry 18 (DEDUCED). -/
def State.writeRight (s : State) (r : Row) : Option Status :=
  match r.acc with
  | .ro | .rc => some .accessDenied
  | .rws => match r.owner with
    | some f => if s.active f then some .notStopped else none
    | none => none
  | _ => none

/-- What the length and then the offset of an access refuse (R39). Log entry 18 (DEDUCED). -/
def extentBad (t : Ty) (off len : Nat) : Option Status :=
  match t.octetsLen with
  | some n => if len = 0 || off + len > n then some .range else none
  | none => if len ≠ t.size then some .typeMismatch else if off ≠ 0 then some .range else none

/-! ### Reading -/

/-- CLIENT objects show the client of CLIENT_SEL (R189). -/
def State.viewClient (s : State) (sub : Nat) : Nat :=
  let q := s.rd O.clientSel
  let c := s.client q
  match sub with
  | 2 => c.state
  | 3 => ((List.range 12).map fun g => clientSlots s.otn.active 1 g q).sum
  | 4 => c.bip
  | 5 => c.bei
  | 6 => c.drops
  | 7 => s.clientDefects q
  | _ => s.rd (0x489000 + sub)

/-- Slices that hold row groups of a table, with the rows of each that are valid (R310). -/
def State.holesOf (s : State) (sl : Nat) : Nat :=
  match (List.range 16).find? fun t =>
    let first := s.rd (O.firstSlice t)
    s.ascW t != 0 && decide (first ≤ sl) && decide (sl < first + s.sliceCount t) with
  | some t =>
    let g := (sl - s.rd (O.firstSlice t)) % (s.ascW t * s.rd (O.ascGroups t)) / s.ascW t
    16384 - ((s.ascTable t).rows.filter fun e => e.1 / 16384 == g).length
  | none => 16384

/-- Boot and flash objects (R471). Log entry 5 (DEDUCED and DESIGN CHOICE). -/
def State.viewFlash (s : State) (sub : Nat) : Nat :=
  match sub with
  | 0x5 => s.slotVersion 1 0
  | 0x6 => s.slotVersion 1 1
  | 0x7 => s.slotVersion 2 0
  | 0x8 => s.slotVersion 2 1
  | 0x9 => s.engBoot
  | 0xA => s.secFloor 1
  | 0xB => s.secFloor 2
  | 0xC => s.revokeBits
  | _ => s.rd (0xA00200 + sub)

/-- Protection objects (R410, R418, R419). -/
def State.viewProt (s : State) (k : Nat) : Nat :=
  if k = O.protReady then b2n (s.prot.ready && s.running .prot)
  else if k = O.readyCauses then s.causes
  else if k = O.protWtrLeft then s.wtrLeft
  else
    let p := k / 256 - 0x8820
    if k = O.portSf p then b2n (s.rd (O.portLinkState p) != 3)
    else if k = O.portSd p then s.rd (O.fecDegraded p)
    else s.rd k

/-- The value of an object as a read finds it: most objects are stored, some are counted from the tables and queues.
Log entries 5 (DEDUCED and DESIGN CHOICE), 15 (DEDUCED and DESIGN CHOICE), 20 (DEDUCED). -/
def State.view (s : State) (k : Nat) : Nat :=
  let i := k / 256
  let sub := k % 256
  if k = O.kdpKeyValid then b2n s.svc.key0.isSome + 2 * b2n s.svc.key1.isSome
  else if i = 0x4890 then s.viewClient sub
  else if k = O.clustersInService then s.clustersUp
  else if 0x6810 ≤ i && i < 0x6820 && sub = 6 then s.rowsOf (i - 0x6810)
  else if 0x6810 ≤ i && i < 0x6820 && sub = 7 then s.capacityOf (i - 0x6810)
  else if 0x6840 ≤ i && i < 0x6858 && sub = 5 then s.holesOf (i - 0x6840)
  else if k = O.sharedFree then s.sharedFree
  else if k = O.segmentsFree then s.segFree
  else if 0x7200 ≤ i && i < 0x7208 && sub = 3 then s.poolBaseOf (i - 0x7200)
  else if 0x7200 ≤ i && i < 0x7208 && sub = 4 then s.poolFreeOf (i - 0x7200)
  else if k = O.reservedCells then s.reserved
  else if 0x8010 ≤ i && i < 0x8016 && sub = 9 then s.planeLeft (i - 0x8010)
  else if 0x8800 ≤ i && i < 0x8900 then s.viewProt k
  else if 0x9100 ≤ i && i < 0x9140 && sub = 4 then s.chUsed (i - 0x9100)
  else if i = 0xA002 then s.viewFlash sub
  else s.rd k

/-- Bit errors of a lane that a read of PRBS_ERRORS returns are counted up to the read (R151). -/
def State.countUp (s : State) (k : Nat) : State :=
  let l := k / 256 - 0x4300
  if l < 240 && k = O.prbsErrors l then s.prbsCount l else s

/-- What an RC object restarts at when it is read: zero (R29), or, for the highest or lowest value since the last read, the value now, which
holds since the read too (R214, R250, R337, R345). Log entry 20 (DEDUCED). -/
def State.restartsAt (s : State) (k : Nat) : Nat :=
  let i := k / 256
  if i < 0x7208 && k = O.poolLow (i - 0x7200) then s.poolFreeOf (i - 0x7200)
  else if i < 0x5530 && k = O.threadsBusyPeak (i - 0x5500) then (s.clusterPasses (i - 0x5500)).length
  else if i < 0x5128 && k = O.reorderPeak (i - 0x5120) then s.rd (O.reorderOccupancy (i - 0x5120))
  else if i < 0x7430 && k = O.reseqPeak (i - 0x7420) then s.rd (O.reseqOccupancy (i - 0x7420))
  else 0

/-- A read of an RC object restarts it. -/
def State.readClears (s : State) (k : Nat) (r : Row) : State := if r.acc = .rc then s.wr k (s.restartsAt k) else s

/-- A read of a range of an object: its status and its bytes (R25, R29, R39). -/
def State.readBytes (s : State) (k off len : Nat) : State × Status × List Byte :=
  match rowOf k with
  | none => (s, absent k, [])
  | some r =>
    if r.acc = .wo then (s, .accessDenied, [])
    else match extentBad r.ty off len with
      | some st => (s, st, [])
      | none =>
        let s := s.countUp k
        (s.readClears k r, .ok, slice (leBytes r.ty.size (s.view k)) off len)

/-! ### Writing -/

/-- A change of RING_ENABLE (R62, R63): from 0 to 1 it restarts the ring; a ring that is not enabled drops the records it held back. -/
def cmdRingEnable (r v : Nat) (s : State) : State × Status :=
  if v = 1 && s.rd (O.ringEnable r) == 0 then
    ((((s.wr (O.ringEnable r) 1).wr (O.ringHead r) 0).wr (O.ringTail r) 0).updRing r fun x => { x with phase := true }, .ok)
  else if v = 0 then ((s.wr (O.ringEnable r) 0).dropWaiting r, .ok)
  else (s.wr (O.ringEnable r) v, .ok)

/-- The meaning of RING_ENABLE. -/
def execRingEnable (p : Path) (ring : Fin 11) (s : State) : Host.Outcome State Fault Refusal :=
  done (access p (O.ringEnable ring.val) [1] (cmdRingEnable ring.val 1) s)

/-- A write that stores its value. -/
def store (k v : Nat) (s : State) : State × Status := (s.wr k v, .ok)

/-- A write that stores its value unless a condition refuses it. -/
def storeUnless (bad : Bool) (st : Status) (k v : Nat) (s : State) : State × Status := if bad then (s, st) else store k v s

/-- Event rings (R62). -/
def writeRing (k v : Nat) (s : State) : State × Status :=
  let r := k / 256 - 0x1200
  match k % 256 with
  | 1 | 2 => storeUnless (s.rd (O.ringEnable r) == 1) .notStopped k v s
  | 4 => storeUnless (decide (v ≥ 2 ^ s.rd (O.ringSizeLog2 r))) .range k v s
  | 5 => cmdRingEnable r v s
  | _ => store k v s

/-- The settings of a DMA ring that is OFF (R109). A DRING_TARGET that goes to a ring of kind PACKET_FROM_HOST has [31:3] reserved (R3, R219). -/
def writeDring (d k v : Nat) (s : State) : State × Status :=
  if s.rd (O.dringState d) != RING_OFF then (s, .notStopped)
  else storeUnless (k == O.dringTarget d && s.rd (O.dringKind d) == 4 && decide (v > 7)) .range k v s

/-- Thermal thresholds (R67). -/
def writeThermal (k v : Nat) (s : State) : State × Status :=
  let t := s.wr k v
  if t.rdS O.tjCrit < t.rdS O.tjWarn then (s, .range) else (t, .ok)

/-- Is a TX_TAPS value within its bounds (R151)? -/
def tapsGood (v : Nat) : Bool :=
  decide ((((leBytes 5 v).map fun b => (signed 8 b.toNat).natAbs).sum) ≤ 64) && v / 2 ^ 40 == 0

/-- Ports, FEC and lanes (R149 to R151, R158, R160). R149 bounds DEGRADE_CLEAR by DEGRADE_SET; a DEGRADE_SET below the present DEGRADE_CLEAR,
which would leave that bound broken, is refused too. Log entry 41 (DESIGN CHOICE). -/
def writeLine (k v : Nat) (s : State) : State × Status :=
  let i := k / 256
  let p := i % 256
  let l := i - 0x4300
  if i < 0x4060 && k = O.adminUp p then cmdAdminUpAll p (v == 1) s
  else if i < 0x4060 && k = O.loopback p then cmdLoopback p v s
  else if i < 0x4260 && k = O.degradeSet p then storeUnless (decide (s.rd (O.degradeClear p) > v)) .range k v s
  else if i < 0x4260 && k = O.degradeClear p then storeUnless (decide (v > s.rd (O.degradeSet p))) .range k v s
  else if l < 240 && k = O.txTaps l then storeUnless (!tapsGood v) .range k v s
  else if l < 240 && k = O.prbsMode l then cmdPrbsMode l v s
  else if k = O.ppsOutEnable then
    let s := if v = 0 && s.line.ppsHigh then { s with line := { s.line with ppsHigh := false } }.emit (.pps false) else s
    store k v s
  else if k = O.synceSrc 0 || k = O.synceSrc 1 || k = O.synceDiv 0 || k = O.synceDiv 1 then
    let n := i - 0x4410
    let t := s.wr k v
    if t.rd (O.synceSrc n) ≠ 0xFF && t.rd (O.synceDiv n) < t.synceLeast (t.rd (O.synceSrc n)) then (s, .range)
    else (t.synceFollow n, .ok)
  else store k v s

/-- Does a table of the forwarding or the associative engine hold an entry, so that its geometry is closed (R257, R289)? -/
def State.ascHolds (s : State) (t : Nat) : Bool := !(s.ascTable t).rows.isEmpty || !(s.ascTable t).due.isEmpty

/-- Events of R475 with the die that counts them: 0 both, 1 the F-die, 2 the T-die. -/
def eventDies : List (Nat × Nat) :=
  [(0x0000, 0), (0x0001, 0), (0x0002, 1), (0x0010, 1), (0x0011, 1), (0x0012, 1), (0x0020, 1), (0x0021, 1), (0x0022, 1),
   (0x0023, 1), (0x0030, 1), (0x0031, 1), (0x0032, 1), (0x0040, 1), (0x0041, 1), (0x0100, 2), (0x0101, 2), (0x0102, 2),
   (0x0103, 2), (0x0110, 2), (0x0111, 2), (0x0120, 2), (0x0130, 2), (0x0131, 2), (0x0140, 2), (0x0150, 2)]

/-- May counter `n` count the event (R474, R475)? -/
def eventGood (n v : Nat) : Bool := eventDies.any fun e => e.1 == v && (e.2 == 0 || (e.2 == 1) == decide (n < 48))

/-- Is a PC_MASTER value defined (R476)? Log entry 73 (DEDUCED). -/
def masterGood (v : Nat) : Bool := decide (v < 4) || (decide (0x10 ≤ v) && decide (v ≤ 0x51)) || v == 0xFF

/-- Performance counters and export sets (R474, R476, R478, R486). Log entry 73 (DEDUCED). -/
def writePerf (k v : Nat) (s : State) : State × Status :=
  let i := k / 256
  let n := i - 0xB010
  if k = O.snapPinMode then ((s.wr k v).followFreeze, .ok)
  else if n < 96 && k = O.pcEvent n then storeUnless (!eventGood n v) .range k v s
  else if n < 96 && k = O.pcMaster n then storeUnless (!masterGood v) .range k v s
  else if n < 96 && k = O.pcAddrLo n then storeUnless (decide (v > s.rd (O.pcAddrHi n))) .range k v s
  else if n < 96 && k = O.pcAddrHi n then storeUnless (decide (v < s.rd (O.pcAddrLo n))) .range k v s
  else if 0xB200 ≤ i then
    let e := i - 0xB200
    let t := s.wr k v
    if t.rd (O.expFirst e) + t.rd (O.expCount e) > 6291456 then (s, .range) else (t, .ok)
  else store k v s

/-- Fabric, protection and HBM objects (R385, R401, R410, R420, R438, R440). -/
def writeFabric (k v : Nat) (s : State) : State × Status :=
  let i := k / 256
  if k = O.xoffCells || k = O.xonCells then
    let t := s.wr k v
    if t.rd O.xonCells ≥ 2560 || t.rd O.xoffCells ≤ t.rd O.xonCells then (s, .range) else (t, .ok)
  else if 0x8010 ≤ i && i < 0x8016 && k % 256 = 2 then cmdPlaneAdmin (i - 0x8010) v s
  else if k = O.minClusters then ((s.wr k v).protFollow, .ok)
  else if 0x8820 ≤ i && i < 0x8880 && k % 256 = 1 then cmdProtMode (i - 0x8820) v s
  else if 0x9100 ≤ i && i < 0x9140 then
    if (leBytes 16 v).any fun b => decide (b.toNat > 127) then (s, .range)
    else storeUnless (s.rd (O.chState (i - 0x9100)) != 4) .notStopped k v s
  else if i = 0x9200 then
    if s.rd O.patState = 1 then (s, .busy) else storeUnless (k == O.patSweep && v % 4 == 3) .range k v s
  else store k v s

/-- A write of an object of OTN group `g`: the TTI checks and DEG_THRESHOLD act on the defects at once; 0 turns SM_DEG off (R174, R188). -/
def writeOtn (g k v : Nat) (s : State) : State × Status :=
  if k % 256 = 3 || k % 256 = 5 then ((s.wr k v).otnFollow g, .ok)
  else if k = O.degThreshold g && v = 0 then
    (((s.wr k v).updGrp g fun x => { x with badSecs := 0, goodSecs := 0, smDeg := false }).otnFollow g, .ok)
  else store k v s

/-- What a write of an RW or RWS object with a legal value does (R29): most store it and nothing more. Log entry 18 (DEDUCED). -/
def writeSpecial (k v : Nat) (s : State) : State × Status :=
  let i := k / 256
  if 0x1200 ≤ i && i < 0x120B then writeRing k v s
  else if i = 0x2100 then writeThermal k v s
  else if i = 0x3020 || i = 0x3022 || i = 0x3023 then storeUnless (s.rd O.mbxState == 1) .busy k v s
  else if 0x3100 ≤ i && i < 0x3130 then writeDring (i - 0x3100) k v s
  else if 0x4000 ≤ i && i < 0x4420 then writeLine k v s
  else if 0x4800 ≤ i && i < 0x480C then writeOtn (i - 0x4800) k v s
  else if (0x50A0 ≤ i && i < 0x50AC) || (0x50B0 ≤ i && i < 0x50BC) then storeUnless s.pk.swapAt.isSome .busy k v s
  else if 0x6060 ≤ i && i < 0x6070 then storeUnless (decide (s.fwd.subEntries (i - 0x6060) ≠ 0)) .range k v s
  else if 0x6810 ≤ i && i < 0x6820 then storeUnless (s.ascHolds (i - 0x6810)) .range k v s
  else if 0x8000 ≤ i && i < 0x9300 then writeFabric k v s
  else if 0xB000 ≤ i then writePerf k v s
  else store k v s

/-- A W1C write (R29). Log entry 20 (DEDUCED). -/
def writeClears (k v : Nat) (s : State) : State × Status :=
  if k = O.nodeFlags then (s.clearFlags v, .ok) else (s.wr k (clearBits (s.rd k) v), .ok)

/-- A whole value arrives at an object that is neither a command object nor a KDP key (R28, R29). Log entry 18 (DEDUCED). -/
def writeValue (k v : Nat) (r : Row) (s : State) : State × Status :=
  if !r.ty.holdsValue v || !r.chk.ok v then (s, .range)
  else if r.acc = .w1c then writeClears k v s
  else writeSpecial k v s

end Sys2Proof.Machine
end

