-- ==== Sys2Proof/Machine/Settings.lean ====
section
/-!
DEFINITION. Settings stores and KDP keys (chapter 16, R464 to R466; R48): the persistent set, SAVE, APPLY, and the keys that are saved
at once.
-/

namespace Sys2Proof.Machine

/-- Objects of the persistent set that no list names, in ascending order (R466): RW and RWS objects of 0x3400 to 0x34FF, CONFIRM_WINDOW,
SETTINGS_LIST. Log entry 70 (DEDUCED). -/
def fixedSet : List Nat :=
  [O.mgmtMode, O.mgmtAddr, O.mgmtPrefixLen, O.mgmtGateway, O.kdpEventDest, O.kdpEventPort, O.kdpEventRings, O.kdpEventSlot,
   O.confirmWindow, O.settingsList]

/-- May SAVE not keep an object (R466)? -/
def unsavable (k : Nat) : Bool :=
  match rowOf k with
  | some r => (r.acc != .rw && r.acc != .rws) || decide (r.ty.size > 8)
  | none => true

/-- The bytes of a store's records, whose layout belongs to the format, and its header: FORMAT, sequence number, LENGTH and CRC-32C (R464). The
CRC of a store that fails it is open. Log entry 70 (DEDUCED and DESIGN CHOICE). -/
def SetStore.header (x : SetStore) : Nat × Nat × Nat × Nat :=
  let body := Config.settingsBody x.format x.entries x.key0 x.key1
  (x.format, x.seq, body.length, if x.crcBad then (Config.settingsBadCrc x.seq).toNat else crc32c body)

/-- Change a settings store. -/
def State.updStore (s : State) (n : Nat) (f : SetStore → SetStore) : State :=
  s.updFw fun x => { x with stores := mput x.stores n (f (s.setStore n)) }

/-- A SETTINGS_CMD records its status in SETTINGS_RESULT (R471). -/
def settingsRecorded (f : State → State × Status) (s : State) : State × Status :=
  let r := f s
  (r.1.wrSt O.settingsResult r.2, r.2)

/-- What the Evrad control channels refuse to the read or write of a saved object of the T-die (R12, R79). -/
def State.savedRefused (s : State) (k : Nat) : Option Status :=
  if onLink k then
    match s.evradGate with
    | .refuse st => some st
    | _ => none
  else none

/-- SETTINGS_CMD SAVE: the first entry that cannot be kept is named by its number in the list. The manual does not say how SAVE ends when the
read of an entry is refused because a control channel has failed: with that status, and nothing is saved.
Log entry 70 (DEDUCED and DESIGN CHOICE). -/
def settingsSave (s : State) : State × Status :=
  let l := s.settingsEntries
  match l.findIdx? unsavable, l.findSome? s.savedRefused with
  | some i, _ => (s.wr O.settingsErrorEntry i, .range)
  | none, some st => (s, st)
  | none, none =>
    let s := l.foldl State.linked s
    let keep := (fixedSet ++ l).map fun k => (k, s.rd k)
    let f : SetStore → SetStore := fun _ =>
      { format := s.rd O.settingsFormat, seq := (s.setStore s.saveStore).seq + 1, entries := keep, key0 := s.svc.key0, key1 := s.svc.key1 }
    ((s.updStore s.saveStore f).inc O.settingsSaves, .ok)

/-- A saved value is written again (R466): a plain write, refused as one; the control channels carry one to the T-die (R11). At boot all functions are DISABLED but HOST and MGMT, and RWS objects
accept the write; the link is then in training, and the image waits for it. Log entry 70 (DEDUCED and DESIGN CHOICE). -/
def writeSaved (boot : Bool) (s : State) (e : Nat × Nat) : State × Status :=
  match rowOf e.1 with
  | none => (s, absent e.1)
  | some r =>
    match if boot then none else (s.savedRefused e.1).or (s.writeRight r) with
    | some st => (s, st)
    | none => if r.acc = .rw || r.acc = .rws then writeValue e.1 e.2 r (s.linked e.1) else (s, .accessDenied)

/-- The saved values of a store are written in order; those refused are skipped and counted (R466). Log entry 70 (DEDUCED). -/
def State.loadEntries (s : State) (boot : Bool) (l : List (Nat × Nat)) : State :=
  l.foldl (fun s e => let r := writeSaved boot s e; if r.2 = .ok then r.1 else r.1.inc O.settingsSkipped) (s.wr O.settingsSkipped 0)

/-- The saved values that APPLY finds: an image reads only a store of its own format (R464), and one that fails its CRC is empty (R465). -/
def State.savedNow (s : State) : List (Nat × Nat) :=
  let x := s.setStore s.saveStore
  if x.crcBad || x.format ≠ s.rd O.settingsFormat then [] else x.entries

/-- SETTINGS_CMD APPLY. Log entry 70 (DEDUCED). -/
def settingsApply (s : State) : State × Status := (s.loadEntries false s.savedNow, .ok)

/-- SETTINGS_CMD by its code. -/
def runSettings (code : Nat) (arg : BitVec 24) : State → State × Status :=
  match code with
  | 1 => settingsRecorded (noArg arg settingsSave)
  | 2 => settingsRecorded (noArg arg settingsApply)
  | _ => settingsRecorded badCode

/-- The meaning of SETTINGS_SAVE. -/
def execSettingsSave (p : Path) (arg : BitVec 24) (s : State) : Host.Outcome State Fault Refusal :=
  done (access p O.settingsCmd (cmdData 1 arg) (settingsRecorded (noArg arg settingsSave)) s)

/-- The meaning of SETTINGS_APPLY. -/
def execSettingsApply (p : Path) (arg : BitVec 24) (s : State) : Host.Outcome State Fault Refusal :=
  done (access p O.settingsCmd (cmdData 2 arg) (settingsRecorded (noArg arg settingsApply)) s)

/-! ### KDP keys (R47, R48, R466) -/

/-- A key slot takes a content, which is saved at once (R466). -/
def State.setKey (s : State) (slot : Nat) (key : Option (List Byte)) : State :=
  let s := { s with svc := if slot = 0 then { s.svc with key0 := key } else { s.svc with key1 := key } }
  s.updStore s.storeInForce fun x => if slot = 0 then { x with key0 := key } else { x with key1 := key }

/-- A write of KDP_KEY0 or KDP_KEY1, in one range of 32 bytes; refused during a trial. Log entry 79 (DEDUCED). -/
def cmdKey (slot : Nat) (key : List Byte) (s : State) : State × Status :=
  if key.length ≠ 32 then (s, .range)
  else if s.rd O.bootState = 1 then (s, .busy)
  else (s.setKey slot (some key), .ok)

/-- KDP_KEY_REVOKE. -/
def cmdKdpKeyRevoke (arg : BitVec 24) (s : State) : State × Status :=
  if arg.toNat > 1 then (s, .range)
  else if s.rd O.bootState = 1 then (s, .busy)
  else (s.setKey arg.toNat none, .ok)

/-- The object of a KDP key. -/
def keyObject (slot : Nat) : Nat := if slot = 0 then O.kdpKey0 else O.kdpKey1

/-- The meaning of KDP_KEY_WRITE: an object of 32 bytes is not reached through the window (R33). Log entry 79 (DEDUCED). -/
def execKdpKeyWrite (p : Path) (slot : Fin 2) (key : List Byte) (s : State) : Host.Outcome State Fault Refusal :=
  done (access p (keyObject slot.val) key (if p = .window then fun s => (s, .typeMismatch) else cmdKey slot.val key) s)

/-- The meaning of KDP_KEY_REVOKE. Log entry 79 (DEDUCED). -/
def execKdpKeyRevoke (p : Path) (arg : BitVec 24) (s : State) : Host.Outcome State Fault Refusal :=
  done (access p O.kdpKeyRevoke (cmdData 1 arg) (cmdKdpKeyRevoke arg) s)

end Sys2Proof.Machine
end

