-- ==== Sys2Proof/Machine/Service.lean ====
section
/-!
DEFINITION. The dictionary service (chapter 02): plain reads and writes through the BAR0 window with its halves (R33 to R35), the
mailbox (R37 to R40), and the Kenlith Dictionary Protocol (R41 to R47).
-/

namespace Sys2Proof.Machine

/-! ### Whole values, ranges and command objects -/

/-- MBX_CMD (R37, R38): refused while an access is in progress, as it is whenever the command itself comes through the mailbox.
Log entry 19 (DEDUCED). -/
def cmdMbx (p : Path) (write : Bool) (s : State) : State × Status :=
  if p = .mailbox || s.rd O.mbxState = 1 then (s, .busy)
  else
    let m : MbxReq := { write := write, object := s.rd O.mbxObject, offset := s.rd O.mbxOffset, length := s.rd O.mbxLength }
    ({ s with svc := { s.svc with mbx := some m } }.wr O.mbxState 1, .ok)

/-- The meaning of MBX_READ: the access is queued. Through the mailbox itself the command is always refused, and the access that carries it
ends. Log entry 23 (DEDUCED). -/
def execMbxRead (p : Path) (arg : BitVec 24) (s : State) : Host.Outcome State Fault Refusal :=
  done (access p O.mbxCmd (cmdData 1 arg) (noArg arg (cmdMbx p false)) s)

/-- The meaning of MBX_WRITE. Log entry 23 (DEDUCED). -/
def execMbxWrite (p : Path) (arg : BitVec 24) (s : State) : Host.Outcome State Fault Refusal :=
  done (access p O.mbxCmd (cmdData 2 arg) (noArg arg (cmdMbx p true)) s)

/-- MBX_CMD by its code. Log entry 23 (DEDUCED). -/
def runMbx (p : Path) (code : Nat) (arg : BitVec 24) : State → State × Status :=
  match code with
  | 1 => noArg arg (cmdMbx p false)
  | 2 => noArg arg (cmdMbx p true)
  | _ => badCode

/-- What a value does in a command object (R28). Log entry 25 (DEDUCED and DESIGN CHOICE). -/
def runCommand (p : Path) (k v : Nat) : State → State × Status :=
  let i := k / 256
  let code := v % 256
  let arg := BitVec.ofNat 24 (v / 256)
  if 0x1101 ≤ i && i < 0x1116 then runFn p (i - 0x1100) code arg
  else if 0x3100 ≤ i && i < 0x3130 then runDring (i - 0x3100) code arg
  else if k = O.mbxCmd then runMbx p code arg
  else if k = O.kdpKeyRevoke then runOnly code (cmdKdpKeyRevoke arg)
  else if 0x40F0 ≤ i && i < 0x40F4 then runOnly code (noArg arg (cmdPairApply (i - 0x40F0)))
  else if 0x4000 ≤ i && i < 0x4500 then runLine k code arg
  else if k = O.tsiCmd then runTsi code arg
  else if (0x5000 ≤ i && i < 0x6000) || (0xB000 ≤ i && i < 0xB400) then runPacket p k code arg
  else if 0x6101 ≤ i && i < 0x6109 then runTbl p (i - 0x6100) code arg
  else if k = O.ascCmd then runAsc p code arg
  else if (0x7000 ≤ i && i < 0x8000) || k = O.patCmd then runTDie k code arg
  else if 0x8820 ≤ i && i < 0x8880 then
    match code with
    | 1 => noArg arg (cmdRole (i - 0x8820) true)
    | 2 => noArg arg (cmdRole (i - 0x8820) false)
    | _ => badCode
  else if 0x9100 ≤ i && i < 0x9140 then runCh (i - 0x9100) code arg
  else if k = O.fwCmd then runFw code arg
  else if k = O.settingsCmd then runSettings code arg
  else runPower k code arg

/-- A whole value arrives at an object whose right allows it. -/
def writeWhole (p : Path) (k v : Nat) (r : Row) (s : State) : State × Status :=
  if r.ty = .cmd then runCommand p k v s else writeValue k v r s

/-- Discard the staging copy of an object (R40). Log entry 75 (DEDUCED). -/
def State.dropStaging (s : State) (k : Nat) : State := { s with svc := { s.svc with staging := mdel s.svc.staging k } }

/-- What closes an object of more than 8 bytes to every range (R438, R440). Log entry 73 (DEDUCED). -/
def State.rangeClosed (s : State) (k : Nat) : Option Status :=
  let i := k / 256
  if i = 0x9200 && s.rd O.patState = 1 then some .busy
  else if 0x9100 ≤ i && i < 0x9140 && s.rd (O.chState (i - 0x9100)) != 4 then some .notStopped
  else none

/-- A range of an object of more than 8 bytes (R40): staged until its last byte arrives. Log entry 75 (DEDUCED). -/
def writeRange (k off n : Nat) (data : List Byte) (r : Row) (s : State) : State × Status :=
  let before := if off = 0 then some [] else mfind s.svc.staging k
  match s.rangeClosed k, before with
  | some st, _ => (s.dropStaging k, st)
  | none, none => (s.dropStaging k, .range)
  | none, some old =>
    if old.length ≠ off then (s.dropStaging k, .range)
    else if off + data.length = n then writeValue k (leNat (old ++ data)) r (s.dropStaging k)
    else ({ s with svc := { s.svc with staging := mput s.svc.staging k (old ++ data) } }, .ok)

/-- A write of a range of an object through the mailbox or KDP (R39, R40, R43): existence, right, length, offset, value. Log entry 75 (DEDUCED). -/
def writeBytes (p : Path) (k off : Nat) (data : List Byte) (s : State) : State × Status :=
  match rowOf k with
  | none => (s, absent k)
  | some r =>
    match s.writeRight r, extentBad r.ty off data.length with
    | some st, _ => (s.dropStaging k, st)
    | none, some st => (s.dropStaging k, st)
    | none, none =>
      match r.ty.octetsLen with
      | some n =>
        if k = O.kdpKey0 || k = O.kdpKey1 then
          if off ≠ 0 then (s, .range) else cmdKey (k - O.kdpKey0) data s
        else if n > 8 then writeRange k off n data r s
        else if off ≠ 0 || data.length ≠ n then (s, .range)
        else writeWhole p k (leNat data) r s
      | none => writeWhole p k (leNat data) r s

/-! ### Ends of reads -/

/-- MBX_DATA after a READ that ended with OK (R37, R39). Log entry 23 (DEDUCED). -/
def State.fillMbx (s : State) (data : List Byte) : State :=
  (List.range 512).foldl (fun s j => s.wr (O.mbxData j) (leNat (slice data (8 * j) 8))) s

/-- The end of a read on its path (R29, R35, R37). -/
def State.finishRead (s : State) (p : Path) (k : Nat) (st : Status) (data : List Byte) : State :=
  let s := s.countAccess p k
  match p with
  | .window => (s.windowRead k st).emit (.readDone k st data)
  | .mailbox =>
    let s := if st = .ok then (s.fillMbx data).emit (.dataOut p k data) else s
    (({ s with svc := { s.svc with mbx := none } }).mailboxDone k data.length st).emit (.access p k st)
  | .kdp => (if st = .ok then s.emit (.dataOut p k data) else s).emit (.access p k st)

/-! ### The window (R33 to R35) -/

/-- Is a window access aligned (R34)? -/
def aligned (off len : Nat) : Bool := (off == 0 && (len == 4 || len == 8)) || (off == 4 && len == 4)

/-- A window read that the gates let pass: `off` and `len` lie in the object's slot. Log entry 22 (DEDUCED). -/
def State.windowFetch (s : State) (k off len : Nat) : State :=
  let refuse := fun (s : State) (st : Status) => s.finishRead .window k st (List.replicate len 0xFF)
  match rowOf k with
  | none => refuse s (absent k)
  | some r =>
    if r.acc = .wo then refuse s .accessDenied
    else if r.ty.size > 8 then refuse s .typeMismatch
    else if r.ty.size ≤ 4 && off = 4 then s.finishRead .window k .ok (zeros 4)
    else
      let x : State × Status × List Byte := s.readBytes k 0 r.ty.size
      let bytes : List Byte := fit x.2.2 8
      let t := if r.ty.size > 4 && len = 4 && off = 0 then
          { x.1 with svc := { x.1.svc with capture := some (k, leNat bytes) } }
        else x.1
      t.finishRead .window k .ok (slice bytes off len)

/-- The captured value of an object, if it is the one whose lower half was read last (R34). -/
def State.captured (s : State) (k : Nat) : Option Nat :=
  match s.svc.capture with
  | some (k', v) => if k' = k then some v else none
  | none => none

/-- A window read that no captured half answers. -/
def State.windowNew (s : State) (k off len : Nat) : State :=
  let t := s.dropHalves
  match s.gateRead .window k with
  | .silent | .unsupported | .hold => s
  | .refuse st => t.finishRead .window k st (List.replicate len 0xFF)
  | .pass => (t.linked k).windowFetch k off len

/-- A window read (R33, R34); in HALTED it returns ones (R131), and during an outage of the control channels it waits (R12). -/
def State.windowLoad (s : State) (k off len : Nat) : State :=
  if s.alive && !aligned off len then s.unsupported false
  else if s.gateRead .window k = .silent then
    if s.alive then s.emit (.unserved k (List.replicate len 0xFF)) else s
  else if s.gateRead .window k = .unsupported then s.unsupported false
  else if s.gateRead .window k = .hold then
    s.hold { path := .window, write := false, key := k, offset := off, data := [], length := len }
  else
    match s.captured k with
    | some v =>
      if off = 4 then
        { s with svc := { s.svc with capture := none } }.finishRead .window k .ok (slice (leBytes 8 v) 4 4)
      else s.windowNew k off len
    | none => s.windowNew k off len

/-- A window write of a value that reaches its object, or of a half that does not (R33, R34). Log entry 22 (DEDUCED). -/
def windowPut (k off : Nat) (data : List Byte) (s : State) : State × Status :=
  match rowOf k with
  | none => (s, absent k)
  | some r =>
    match s.writeRight r with
    | some st => (s, st)
    | none =>
      let v := leNat data
      if r.ty.size > 8 then (s, .typeMismatch)
      else if off = 4 then if r.ty.size > 4 then (s, .typeMismatch) else if v = 0 then (s, .ok) else (s, .range)
      else if v ≥ 256 ^ r.ty.size then (s, .range)
      else writeWhole .window k v r s

/-- Does a 4-byte access to the slot reach only half of the object (R34)? -/
def halves (k : Nat) : Bool :=
  match rowOf k with
  | some r => decide (4 < r.ty.size) && decide (r.ty.size ≤ 8)
  | none => false

/-- A window write that commits no staged half. Log entry 22 (DEDUCED). -/
def State.windowFirst (s : State) (k off : Nat) (data : List Byte) : State :=
  if halves k && off = 0 && data.length = 4 then
    let s := s.dropHalves
    { s with svc := { s.svc with stage := some (k, leNat data) } }
  else accessReset .window k data (windowPut k off data) s

/-- A window write (R33, R34): a lower half of a longer object is staged, its upper half commits both; during an outage of the control
channels it waits (R12). Log entry 22 (DEDUCED). -/
def State.windowStore (s : State) (k off : Nat) (data : List Byte) : State :=
  if s.alive && !aligned off data.length then s.unsupported true
  else if s.gate .window k = .silent then s
  else if s.gate .window k = .unsupported then s.unsupported true
  else if s.gate .window k = .hold then
    s.hold { path := .window, write := true, key := k, offset := off, data := data, length := data.length }
  else
    match s.svc.stage with
    | some (k', low) =>
      if off = 4 && k' = k then
        accessReset .window k data (windowPut k 0 (leBytes 4 low ++ data)) { s with svc := { s.svc with stage := none, capture := none } }
      else s.windowFirst k off data
    | none => s.windowFirst k off data

/-- The object of an index and subindex. Log entry 15 (DEDUCED and DESIGN CHOICE). -/
def objKey (index sub : Nat) : Nat := key (index % 65536) (sub % 256)

/-- A range refused before it reaches its object discards the staging copy too (R40), unless nothing was performed at all: the mailbox was
BUSY or the request not authentic. Log entry 75 (DEDUCED). -/
def State.rangeRefused (s : State) (p : Path) (k bytes : Nat) (st : Status) : State :=
  if (p = .mailbox && s.mbxTaken) || (p = .kdp && st == .authFail) then s.accessRefused p k bytes st
  else (s.dropStaging k).accessRefused p k bytes st

/-- A write of a range of an object that arrives on the mailbox or KDP path. -/
def State.objectWrite (s : State) (p : Path) (k off : Nat) (data : List Byte) : State :=
  match s.gate p k with
  | .silent | .unsupported => s
  | .hold => s.hold { path := p, write := true, key := k, offset := off, data := data, length := data.length }
  | .refuse st => s.rangeRefused p k data.length st
  | .pass =>
    let r := writeBytes p k off data ((s.atMailbox p).linked k)
    r.1.finish p k data.length r.2

/-- The meaning of OBJECT_WRITE. -/
def execObjectWrite (p : Path) (index sub offset : Nat) (data : List Byte) (s : State) : Host.Outcome State Fault Refusal :=
  if p = .window then done (s.windowStore (objKey index sub) offset data) else done (s.objectWrite p (objKey index sub) offset data)

/-- The end of a read that the gates refuse. -/
def State.readRefused (s : State) (p : Path) (k : Nat) (st : Status) : State :=
  if p = .mailbox && s.mbxTaken then s.mailboxBusy k st
  else if p = .kdp && st == .authFail then s.unauthentic k
  else s.finishRead p k st []

/-- A read of a whole object that arrives on the mailbox or KDP path. -/
def State.objectRead (s : State) (p : Path) (k : Nat) : State :=
  match s.gateRead p k with
  | .silent | .unsupported => s
  | .hold => s.hold { path := p, write := false, key := k, offset := 0, data := [], length := 0 }
  | .refuse st => s.readRefused p k st
  | .pass =>
    let r := ((s.atMailbox p).linked k).readBytes k 0 (((rowOf k).map fun r => r.ty.size).getD 0)
    r.1.finishRead p k r.2.1 r.2.2

/-- The meaning of RC_READ: a read of a whole object. -/
def execRcRead (p : Path) (index sub : Nat) (s : State) : Host.Outcome State Fault Refusal :=
  if p = .window then done (s.windowLoad (objKey index sub) 0 8) else done (s.objectRead p (objKey index sub))

/-- The meaning of WINDOW_HALF_WRITE. -/
def execWindowHalfWrite (upper : Bool) (index sub : Nat) (half : BitVec 32) (s : State) : Host.Outcome State Fault Refusal :=
  done (s.windowStore (objKey index sub) (if upper then 4 else 0) (leBytes 4 half.toNat))

/-- The meaning of WINDOW_HALF_READ. -/
def execWindowHalfRead (upper : Bool) (index sub : Nat) (s : State) : Host.Outcome State Fault Refusal :=
  done (s.windowLoad (objKey index sub) (if upper then 4 else 0) 4)

/-! ### The mailbox (R37 to R40) -/

/-- The buffer of the mailbox. Log entry 75 (DEDUCED). -/
def State.buffer (s : State) (n : Nat) : List Byte :=
  ((List.range ((n + 7) / 8)).flatMap fun j => leBytes 8 (s.rd (O.mbxData j))).take n

/-- A queued mailbox access is performed; while an outage of the control channels holds it or one before it, it stays BUSY (R12, R31). -/
def State.mailboxAccess (s : State) (m : MbxReq) : State :=
  let k := m.object
  match s.reach k with
  | .silent | .unsupported | .hold => s
  | .refuse st => if m.write then (s.dropStaging k).finish .mailbox k m.length st else s.finishRead .mailbox k st []
  | .pass =>
    if m.write then
      let r := writeBytes .mailbox k m.offset (s.buffer m.length) (s.linked k)
      r.1.finish .mailbox k m.length r.2
    else
      let r := (s.linked k).readBytes k m.offset m.length
      r.1.finishRead .mailbox k r.2.1 r.2.2

/-- The meaning of MAILBOX_ACCESS_END. -/
def execMailboxAccessEnd (s : State) : Host.Outcome State Fault Refusal :=
  match s.svc.mbx with
  | some m => if s.svc.held.isEmpty then done (s.mailboxAccess m) else done s
  | none => done s

/-! ### Accesses held by an outage (R12) -/

/-- Perform an access that was held. -/
def State.perform (s : State) (h : HeldAccess) : State :=
  match h.path, h.write with
  | .window, true => s.windowStore h.key h.offset h.data
  | .window, false => s.windowLoad h.key h.offset h.length
  | p, true => s.objectWrite p h.key h.offset h.data
  | p, false => s.objectRead p h.key

/-- Once no control channel retrains, the accesses that waited are performed in the order in which they came (R12, R31), and the records
of the T-die that waited for channel 17 arrive (R11). Log entry 37 (DEDUCED and DESIGN CHOICE). -/
def State.letGo (s : State) : State :=
  let l := s.host.late
  let s := if s.rd (O.evradState 17) = 2 then s
    else l.foldl (fun s e => s.raise e.ring e.type e.func e.sev e.a0 e.a1 e.a2) { s with host := { s.host with late := [] } }
  if s.evradGate = .hold then s
  else
    let h := s.svc.held
    h.foldl State.perform { s with svc := { s.svc with held := [] } }

/-- The meaning of STAGING_COPY_TIMEOUT. Log entry 75 (DEDUCED). -/
def execStagingCopyTimeout (index sub : Nat) (s : State) : Host.Outcome State Fault Refusal :=
  done (s.dropStaging (objKey index sub))

end Sys2Proof.Machine
end

