-- ==== Sys2Proof/Machine/Kdp.lean ====
section
/-!
DEFINITION. The Kenlith Dictionary Protocol (chapter 02, R41 to R47): checks of a datagram, authentication, request streams, the
execution of records, and responses.
-/

namespace Sys2Proof.Machine

/-- An access record of a request (R43). `bad` tells that its OP is undefined or that STATUS, a reserved byte or padding is not zero. -/
structure KdpRec where
  op     : Nat
  index  : Nat
  sub    : Nat
  dlen   : Nat
  offset : Nat
  data   : List Byte
  bad    : Bool
  deriving DecidableEq, Repr

/-- Length of DATA with its padding (R43): only a WRITE carries it. -/
def dataLen (op dlen : Nat) : Nat := if op = 2 then (dlen + 7) / 8 * 8 else 0

/-- The record at the front of a byte string. -/
def kdpRec (l : List Byte) : KdpRec :=
  let op := be l 0 1
  let dlen := be l 6 2
  let body := slice l 12 (dataLen op dlen)
  { op := op, index := be l 2 2, sub := be l 4 1, dlen := dlen, offset := be l 8 2, data := body.take dlen,
    bad := (op != 1 && op != 2) || be l 1 1 != 0 || be l 5 1 != 0 || be l 10 2 != 0 || (body.drop dlen).any (· != 0) }

/-- The `n` records that fill a byte string exactly, if they do (R41). -/
def kdpRecs : Nat → List Byte → Option (List KdpRec)
  | 0, l => if l.isEmpty then some [] else none
  | n + 1, l =>
    let r := kdpRec l
    let len := 12 + dataLen r.op r.dlen
    if l.length < len then none else (kdpRecs n (l.drop len)).map fun t => r :: t

/-- Do all records read identity objects (R42, R47)? -/
def identityOnly (l : List KdpRec) : Bool := l.all fun r => r.op == 1 && decide (0x1000 ≤ r.index) && decide (r.index ≤ 0x10FF)

/-- The records of a datagram that R41 lets pass. Log entry 24 (DEDUCED and DESIGN CHOICE). -/
def kdpChecked (d : List Byte) : Option (List KdpRec) :=
  if d.length > 1452 || d.length < 56 || be d 0 2 ≠ 0x4B44 || be d 2 1 ≠ 1 || be d 3 1 ≠ 1 || be d 9 1 < 1 || be d 9 1 > 64
      || be d 10 2 ≠ d.length - 56 || be d 12 1 ≠ 0 || be d 13 1 > 1 || be d 14 2 ≠ 0 then none
  else kdpRecs (be d 9 1) (slice d 24 (d.length - 56))

/-- May the request address this device (R42)? -/
def targetGood (d : List Byte) (l : List KdpRec) : Bool :=
  (be d 16 8 == 0 && identityOnly l) || be d 16 8 == Config.serial.toNat

/-- Is the request authentic (R46, R47)? Log entry 24 (DEDUCED and DESIGN CHOICE). -/
def State.authentic (s : State) (d : List Byte) (l : List KdpRec) : Bool :=
  if s.keyless then identityOnly l
  else
    match (if be d 8 1 < 2 then s.kdpKey (be d 8 1) else none) with
    | some key => fit (Config.hmacSha256 key (d.take (d.length - 32))) 32 == d.drop (d.length - 32)
    | none => false

/-- The key that signs the response to an authentic request. Log entry 24 (DEDUCED and DESIGN CHOICE). -/
def State.signingKey (s : State) (d : List Byte) : Option (List Byte) := if be d 8 1 < 2 then s.kdpKey (be d 8 1) else none

/-- Answer a request with a header alone (R45, R46). The manual does not say what FLAGS [0] of a response is. -/
def State.answer (s : State) (source port : Nat) (d : List Byte) (st : Status) (key : Option (List Byte)) : State :=
  let v := s.open_
  v.2.emit (.datagram source port (kdpDatagram 2 (be d 4 4) (be d 8 1) 0 st.code (v.1.toNat % 2) [] key))

/-- A request that fails authentication (R46): at most 16 answers in a second. -/
def State.authFail (s : State) (source port : Nat) (d : List Byte) : State :=
  let s := s.inc O.kdpAuthFails
  let times := s.svc.authTimes.filter fun t => decide (s.pclk < t + 250000000)
  if times.length ≥ 16 then s
  else { s with svc := { s.svc with authTimes := s.pclk :: times } }.answer source port d .authFail none

/-- What the request-stream rules decide (R45): execute, repeat a response, or refuse. -/
inductive Admit
  | take
  | again
  | refuse
  deriving DecidableEq, Repr

/-- The stream of a source. -/
def State.stream (s : State) (source : Nat) : Option KdpStream := s.svc.streams.find? fun x => x.source = source

/-- A stream becomes the one most recently heard; at most 4 are tracked (R45 rule 1). -/
def State.hear (s : State) (x : KdpStream) : State :=
  { s with svc := { s.svc with streams := (x :: s.svc.streams.filter fun y => y.source ≠ x.source).take 4 } }

/-- The stream as a request of a source and generation finds it (R45 rules 1 and 2). -/
def State.streamFor (s : State) (source gen : Nat) : KdpStream :=
  let new : KdpStream := { source := source, gen := gen, maxSeq := none, recent := [], responses := [] }
  match s.stream source with
  | none => new
  | some x => let ahead := (gen + 16 - x.gen) % 16; if 1 ≤ ahead ∧ ahead ≤ 7 then new else x

/-- Is a request of this source, generation and SEQ still waiting or being executed? -/
def KdpReq.same (r : KdpReq) (source gen seq : Nat) : Bool :=
  r.source == source && be r.bytes 4 4 == gen * 2 ^ 28 + seq

/-- The rules of R45 for a stream already brought to the request's generation where rules 1 and 2 say so. -/
def State.kdpAdmit (s : State) (x : KdpStream) (gen seq : Nat) : Admit :=
  if x.gen ≠ gen then .refuse
  else
    let fresh := match x.maxSeq with
      | none => true
      | some m => decide (seq > m) || (decide (m < seq + 64) && !x.recent.contains seq)
    if fresh then .take
    else if x.responses.any (fun r => r.1 == seq) || s.svc.kdpQueue.any (fun r => r.same x.source gen seq) then .again
    else .refuse

/-- A stream after it accepted a SEQ. -/
def KdpStream.accept (x : KdpStream) (seq : Nat) : KdpStream :=
  let m := max seq (x.maxSeq.getD 0)
  { x with maxSeq := some m, recent := (seq :: x.recent).filter fun n => decide (m < n + 64) }

/-- A repeated request (R45 rule 4): its stored response is sent again, or once more when it is ready. Log entry 24 (DEDUCED and DESIGN CHOICE). -/
def State.repeated (s : State) (x : KdpStream) (port gen seq : Nat) : State :=
  match x.responses.find? fun r => r.1 = seq with
  | some r => s.emit (.datagram x.source port r.2)
  | none =>
    { s with svc := { s.svc with
        kdpQueue := s.svc.kdpQueue.map fun r => if r.same x.source gen seq then { r with again := r.again ++ [port] } else r } }

/-- An authentic request enters its stream (R45). -/
def State.sequence (s : State) (source port : Nat) (d : List Byte) : State :=
  let gen := be d 4 4 / 2 ^ 28
  let seq := be d 4 4 % 2 ^ 28
  let x := s.streamFor source gen
  match s.kdpAdmit x gen seq with
  | .take =>
    let r : KdpReq := { source := source, port := port, bytes := d, key := s.signingKey d, again := [] }
    let s := (s.hear (x.accept seq)).inc O.kdpRequests
    { s with svc := { s.svc with kdpQueue := s.svc.kdpQueue ++ [r] } }
  | .again => (s.hear x).repeated x port gen seq
  | .refuse => ((s.hear x).inc O.kdpSeqErrors).answer source port d .seqError (s.signingKey d)

/-- Does the KDP service take datagrams (R55, R100, R131)? -/
def State.kdpUp (s : State) : Bool := s.alive && s.mcState == 1 && s.mgmtUp

/-- The meaning of KDP_REQUEST. Log entry 24 (DEDUCED and DESIGN CHOICE). -/
def execKdpRequest (source port : Nat) (datagram : List Byte) (s : State) : Host.Outcome State Fault Refusal :=
  if !s.kdpUp then done s
  else
    match kdpChecked datagram with
    | none => done (s.inc O.kdpMalformed)
    | some l =>
      if !targetGood datagram l then done (s.inc O.kdpMalformed)
      else if s.svc.kdpQueue.length ≥ 32 then done (s.inc O.kdpQueueDrops)
      else if !s.authentic datagram l then done (s.authFail source port datagram)
      else done (s.sequence source port datagram)

/-! ### Execution (R43, R44) -/

/-- Values of objects that are not OCTETS stand in records most significant byte first (R42). -/
def kdpOrder (k : Nat) (l : List Byte) : List Byte :=
  match rowOf k with
  | some r => if r.ty.octetsLen.isSome then l else l.reverse
  | none => l

/-- Execute a record: its status, and the data of a READ that ends with OK. Log entry 25 (DEDUCED and DESIGN CHOICE). -/
def kdpRunOne (r : KdpRec) (s : State) : State × Status × List Byte :=
  let k := objKey r.index r.sub
  if r.bad then (s, .range, [])
  else
    match s.reach k with
    | .silent | .unsupported | .hold => (s, .busy, [])
    | .refuse st => (if r.op = 2 then s.dropStaging k else s, st, [])
    | .pass =>
      if r.op = 1 then
        let x := (s.linked k).readBytes k r.offset r.dlen
        (x.1, x.2.1, kdpOrder k x.2.2)
      else
        let x := writeBytes .kdp k r.offset (kdpOrder k r.data) (s.linked k)
        (x.1, x.2, [])

/-- The record of a response (R43). -/
def responseRecord (r : KdpRec) (st : Status) (data : List Byte) : List Byte :=
  beBytes 1 r.op ++ beBytes 1 st.code ++ beBytes 2 r.index ++ beBytes 1 r.sub ++ zeros 1 ++ beBytes 2 data.length
    ++ beBytes 2 r.offset ++ zeros 2 ++ fit data ((data.length + 7) / 8 * 8)

/-- Execute the records in order (R44): after a failure under STOP_ON_ERROR, the rest return BUSY without effect. The status is that of
the first record that failed. Log entry 25 (DEDUCED and DESIGN CHOICE). -/
def kdpRun (stop : Bool) : List KdpRec → Status → State → State × Status × List Byte
  | [], st, s => (s, st, [])
  | r :: t, st, s =>
    if stop && st ≠ .ok then
      let x := kdpRun stop t st s
      (x.1, x.2.1, responseRecord r .busy [] ++ x.2.2)
    else
      let y := kdpRunOne r s
      let k := objKey r.index r.sub
      let s := (y.1.countAccess .kdp k).emit (.access .kdp k y.2.1)
      let data := if y.2.1 = .ok then y.2.2 else []
      let x := kdpRun stop t (if st = .ok then y.2.1 else st) s
      (x.1, x.2.1, responseRecord r y.2.1 data ++ x.2.2)

/-- Keep a response for repeats (R45): the last 16 of the generation. -/
def State.keepResponse (s : State) (r : KdpReq) (bytes : List Byte) : State :=
  let gen := be r.bytes 4 4 / 2 ^ 28
  let seq := be r.bytes 4 4 % 2 ^ 28
  { s with svc := { s.svc with
      streams := s.svc.streams.map fun x =>
        if x.source = r.source ∧ x.gen = gen then { x with responses := ((seq, bytes) :: x.responses).take 16 } else x } }

/-- The request at the head of the queue is executed and answered (R44): a response that does not fit is replaced. -/
def State.respond (s : State) (r : KdpReq) : State :=
  let d := r.bytes
  let l := (kdpChecked d).getD []
  let x := kdpRun (be d 13 1 == 1) l .ok s
  let v := x.1.open_
  let make := fun (st : Status) (n : Nat) (recs : List Byte) =>
    kdpDatagram 2 (be d 4 4) (be d 8 1) n st.code (v.1.toNat % 2) recs r.key
  let whole := make x.2.1 l.length x.2.2
  let bytes := if whole.length > 1452 then make .noResource 0 [] else whole
  (r.port :: r.again).foldl (fun s p => s.emit (.datagram r.source p bytes)) (v.2.keepResponse r bytes)

/-- Does an outage of the control channels hold a record of the request, or an access before it (R12, R31)? -/
def State.kdpWaits (s : State) (r : KdpReq) : Bool :=
  !s.svc.held.isEmpty || ((kdpChecked r.bytes).getD []).any fun x => decide (s.reach (objKey x.index x.sub) = .hold)

/-- The meaning of KDP_RESPONSE: a STOPPING MGMT finishes the requests that wait (R55). A request that an outage holds is answered after it.
Log entry 24 (DEDUCED and DESIGN CHOICE). -/
def execKdpResponse (s : State) : Host.Outcome State Fault Refusal :=
  match s.svc.kdpQueue with
  | [] => done s
  | r :: t =>
    if s.kdpWaits r then done s
    else if s.alive && s.mcState == 1 && s.svc.mgmtPll && (s.running .mgmt || s.fnState .mgmt == STOPPING) then
      done ({ s with svc := { s.svc with kdpQueue := t } }.respond r)
    else done s

end Sys2Proof.Machine
end

