-- ==== Sys2Proof/Machine/Evrad.lean ====
section
/-!
DEFINITION. The Evrad link between the dies (R10 to R13, R518): replays, retraining, training, failure, and what an outage of a control
channel holds.
-/

namespace Sys2Proof.Machine

/-! ### The Evrad link (R10 to R13, R518) -/

/-- Packets in flight on a channel are lost and counted (R11). Log entry 37 (DEDUCED and DESIGN CHOICE). -/
def State.loseInFlight (s : State) (n : Nat) : State :=
  if n < 8 then
    (s.add (O.evradDrops n) (mget s.pk.chanIn [] n).length).upk fun x => { x with chanIn := mdel x.chanIn n }
  else if n < 16 then
    let l := mget s.pk.chanEg [] (n - 8)
    let s := (s.add (O.evradDrops n) l.length).upk fun x => { x with chanEg := mdel x.chanEg (n - 8) }
    l.foldl (fun s (p : EgPkt) => (s.leavePort p.port (p.frame.length + 4)).giveUp (stageOf n) p.port p.seq) s
  else s

/-- The ports of a slice that has gone out of service are link down (R12). The manual gives no cause: it is open among those of R145.
Log entry 37 (DEDUCED and DESIGN CHOICE). -/
def State.sliceFailed (s : State) (n : Nat) : State :=
  (List.range 96).foldl (fun s p =>
    if (s.slicesOf p).contains n && decide (3 ≤ s.rd (O.portLinkState p)) then
      let v := s.open_
      v.2.portDown p (v.1.toNat % 10) (v.2.coldState p)
    else s) s

/-- A channel with no spare left for wire `w` is FAILED (R12). -/
def State.chanFailed (s : State) (n w : Nat) : State :=
  let s := ((s.wr (O.evradState n) 3).wr (O.evradSpares n) 0).loseInFlight n
  let s := s.wr O.faultSources (setBit (s.rd O.faultSources) 3 true)
  let s := s.raise 4 0x04A1 0x0A FATAL n w (s.rd (O.evradRepairs n))
  (if n < 16 then s.sliceFailed (n % 8) else s).protFollow

/-- A channel starts retraining for a wire (R11). -/
def State.retrainChan (s : State) (n w : Nat) : State :=
  if s.rd (O.evradSpares n) = 0 then s.chanFailed n w
  else
    let s := (s.wr (O.evradState n) 2).updChan n fun c => { c with failedReplays := 0, failing := [w] }
    (s.loseInFlight n).protFollow

/-- The meaning of EVRAD_FLIT_CRC_FAIL: a flit (`again` false), or a replay of it (`again` true), fails its CRC for `wire`. Each failure is
followed by a replay, which is counted; after 16 failed replays the channel retrains. A packet that the channel delivers meanwhile shows that
a replay got through (State.carried), so that from the first of 16 failed replays on the channel carries nothing.
Log entry 37 (DEDUCED and DESIGN CHOICE). -/
def execEvradFlitCrcFail (channel : Fin 18) (wire : Nat) (again : Bool) (s : State) : Host.Outcome State Fault Refusal :=
  let n := channel.val
  if s.rd (O.evradState n) ≠ 1 then done s
  else if !again then done ((s.inc (O.evradReplays n)).updChan n fun c => { c with failedReplays := 0 })
  else
    let f := (s.chan n).failedReplays + 1
    if f ≥ 16 then done (s.retrainChan n wire).letGo
    else done ((s.inc (O.evradReplays n)).updChan n fun c => { c with failedReplays := f })

/-- The meaning of EVRAD_WIRE_FAULT: training and retraining find the wire; a channel that is UP without a spare fails, and one with a
spare meets the fault through its flits (R11). Log entry 37 (DEDUCED and DESIGN CHOICE). -/
def execEvradWireFault (channel : Fin 18) (wire : Nat) (s : State) : Host.Outcome State Fault Refusal :=
  let n := channel.val
  let st := s.rd (O.evradState n)
  if st = 0 || st = 2 then
    done (s.updChan n fun c => if c.failing.contains wire then c else { c with failing := c.failing ++ [wire] })
  else if st = 1 && s.rd (O.evradSpares n) == 0 then done (s.chanFailed n wire).letGo
  else done s

/-- Move failed wires to spares (R518): all, or FAILED when there are more than spares. -/
def State.moveWires (s : State) (n : Nat) (wires : List Nat) (up : State → State) : State :=
  let k := s.rd (O.evradSpares n)
  let s := (s.add (O.evradRepairs n) (min k wires.length)).wr (O.evradSpares n) (k - wires.length)
  let s := s.updChan n fun c => { c with failedReplays := 0, failing := [], excluded := c.excluded ++ wires }
  match (wires.drop k).min? with
  | some w => s.chanFailed n w
  | none => (up (s.wr (O.evradState n) 1)).protFollow

/-- The meaning of EVRAD_RETRAIN_END: `outage` is its length in XCLK cycles. What waited for a control channel goes on.
Log entry 37 (DEDUCED and DESIGN CHOICE). -/
def execEvradRetrainEnd (channel : Fin 18) (outage : Nat) (s : State) : Host.Outcome State Fault Refusal :=
  let n := channel.val
  if s.rd (O.evradState n) ≠ 2 then done s
  else
    let wires := (s.chan n).failing
    let s := s.wr (O.evradLastOutage n) (min outage 0xFFFFFFFF)
    done (s.moveWires n wires fun s => s.raise 4 0x04A0 0x0A WARNING n (wires.getLastD 0) (min outage 0xFFFFFFFF)).letGo

/-- A wire list with no wire twice. -/
def distinct : List Nat → List Nat
  | [] => []
  | w :: t => if t.contains w then distinct t else w :: distinct t

/-- The meaning of EVRAD_TRAINING_END: training after a reset ends on every channel. `badWires` lists the wires that fail the re-test;
those found failing meanwhile join them. Which of too many the spares cover is open in the manual: the first listed.
Log entry 37 (DEDUCED and DESIGN CHOICE). -/
def execEvradTrainingEnd (badWires : List (Fin 18 × Nat)) (s : State) : Host.Outcome State Fault Refusal :=
  if !bit s.pwr.released 2 then done s
  else
    done ((List.range 18).foldl (fun s n =>
      if s.rd (O.evradState n) = 0 then
        let bad := (badWires.filter fun e => e.1.val == n).map fun e => e.2
        s.moveWires n (distinct (bad ++ (s.chan n).failing)) id
      else s) s)

end Sys2Proof.Machine
end

