-- ==== Sys2Proof/Machine/Boot.lean ====
section
/-!
DEFINITION. The boot of the management controller (chapter 16, R462 to R466): the choice of an image, a trial and its fall-back, the
settings that the image loads, and the watchdog (R74).
-/

namespace Sys2Proof.Machine

/-- The MC slot that the boot record makes the monitor select: a trial that has not booted, or the confirmed slot (R462). -/
def State.bootChoice (s : State) : Nat :=
  match s.fw.trial with
  | some t => if s.fw.booted then s.mcConfirmed else t
  | none => s.mcConfirmed

/-- Boots of a slot that ended in a watchdog reset before RUNNING, one after the other (R462). Log entry 69 (DEDUCED and DESIGN CHOICE). -/
def State.watchdogBoots (s : State) (slot : Nat) : Nat := mget s.fw.wdt 0 slot

/-- Does an MC slot verify at boot, without check 6 (R462)? -/
def State.bootVerifies (s : State) (slot : Nat) : Bool := s.verifyError 1 false (s.slotImage slot) == 0

/-- The slots in the order in which the monitor tries them from a first one: a slot of three watchdog boots stands behind (R462). -/
def State.bootOrder (s : State) (first : Nat) : List Nat :=
  if s.watchdogBoots first ≥ 3 then [1 - first, first] else [first, 1 - first]

/-- The slot whose boot is in progress before BOOT_SELECT tells of it: the one that the steps of R462 arrive at, if any. -/
def State.booting (s : State) : Option Nat :=
  if s.watchdogBoots 0 ≥ 3 && s.watchdogBoots 1 ≥ 3 then none else (s.bootOrder s.bootChoice).find? s.bootVerifies

/-- A run of watchdog boots of the slot being booted ends with a boot that something else ended: the three of R462 are consecutive. -/
def State.brokenRun (s : State) : State :=
  if s.fw.cut then
    s.updFw fun x => { x with
      cut := false
      wdt := match s.booting with
        | some slot => mdel x.wdt slot
        | none => x.wdt }
  else s

/-- The meaning of MC_WDT (R74): a boot that ends so is counted for the slot that was being booted, and a trial that was starting has
booted. Log entry 78 (DEDUCED). -/
def execMcWdt (s : State) : Host.Outcome State Fault Refusal :=
  if s.alive && !s.heldDown then
    if s.mcState = 0 then
      let s := s.brokenRun
      let now := s.booting
      let t := s.requestReset .sys 4 5
      done (t.updFw fun x => { x with
        wdt := match now with
          | some slot => mput x.wdt slot (s.watchdogBoots slot + 1)
          | none => x.wdt
        booted := x.booted || (now.isSome && x.trial == now) })
    else done (s.requestReset .sys 4 5)
  else done s

/-- A fall-back (R462, R463): the trial is cleared and its reason recorded. Log entry 69 (DEDUCED and DESIGN CHOICE). -/
def State.fallBack (s : State) (slot reason : Nat) : State :=
  let version := le (s.slotImage slot) 8 4
  ((s.writeBootRecord fun x => { x with trial := none, booted := false, due := true }).wr O.lastFallback reason).wr
    O.lastFallbackVersion version

/-- Step 2 of R462: a trial is marked booted, or falls back. Log entry 69 (DEDUCED and DESIGN CHOICE). -/
def State.trialStep (s : State) : State :=
  match s.fw.trial with
  | some t => if s.fw.booted then s.fallBack t s.fw.reason else s.writeBootRecord fun x => { x with booted := true }
  | none => s

/-- The management controller ends in RECOVERY or HALTED (R130, R462). -/
def State.bootFails (s : State) (state reason : Nat) : State :=
  let s := { s with mcState := state, failReason := reason }
  if state = 2 then s.wr O.bootState 2 else s

/-- The settings that an image of a format finds (R462, R464, R465): the store of its own format, the one in force before the other; else
the one in force, converted where it is older. A store in force that fails its CRC is empty. Log entry 70 (DEDUCED). -/
def State.bootStore (s : State) (format oldest : Nat) : Nat × SetStore :=
  let n := s.storeInForce
  let fits := fun i => !(s.setStore i).crcBad && (s.setStore i).format == format
  if (s.setStore n).crcBad then (n, {})
  else if fits n then (n, s.setStore n)
  else if s.fw.trial.isNone && fits (1 - n) then (1 - n, s.setStore (1 - n))
  else if decide (oldest ≤ (s.setStore n).format) && decide ((s.setStore n).format < format) then (n, s.setStore n)
  else (n, {})

/-- The image of a slot starts (R462): it loads its settings, and MC_STATE becomes RUNNING. A trial writes them into the other store and
starts its window (R463, R465). -/
def State.startImage (s : State) (slot : Nat) (trial : Bool) : State :=
  let img := s.slotImage slot
  let format := le img 16 2
  let x := s.bootStore format (le img 18 2)
  let s := (((s.wr O.mcFwVersion (le img 8 4)).wr O.bootSlot slot).wr O.settingsFormat format).wr O.settingsStore x.1
  let s := { s with svc := { s.svc with key0 := x.2.key0, key1 := x.2.key1 } }
  let s := s.loadEntries true x.2.entries
  let s := { s with mcState := 1, failReason := 0 }
  let s := s.updFw fun f => { f with reason := 2, wdt := mdel f.wdt slot }
  if trial then
    let s := s.updStore (1 - s.storeInForce) fun y => { x.2 with format := format, seq := y.seq + 1, crcBad := false }
    let s := (s.wr O.bootState 1).wr O.confirmLeft (s.rd O.confirmWindow)
    s.raise 9 0x0903 0x12 NOTICE (s.rd O.mcFwVersion) format (s.rd O.confirmLeft / 250000000)
  else s.wr O.bootState 0

/-- The slot that step 2 or 3 of R462 selected. -/
def State.bootChoiceNow (s : State) : Nat := s.fw.trial.getD s.mcConfirmed

/-- Steps 3 to 6 of R462. Log entry 69 (DEDUCED and DESIGN CHOICE). -/
def State.bootFrom (s : State) : State :=
  let first := s.bootChoiceNow
  if s.watchdogBoots 0 ≥ 3 && s.watchdogBoots 1 ≥ 3 then s.bootFails 2 2
  else
    match (s.bootOrder first).find? s.bootVerifies with
    | none => (if s.fw.trial == some first then s.fallBack first 4 else s).bootFails 2 1
    | some slot =>
      if s.fw.trial == some slot then s.startImage slot true
      else if s.fw.trial == some first then (s.fallBack first 4).startImage slot false
      else s.startImage slot false

/-- The monitor finds whether a settings store passes its CRC (R464, R465). -/
def State.storeFound (s : State) (n : Nat) (good : Bool) : State :=
  if (s.setStore n).crcBad == !good then s else s.updStore n fun x => { x with crcBad := !good }

/-- The meaning of BOOT_SELECT: `flashAnswers` tells whether the flash answers SFDP, the others whether each settings store passes its
CRC. Log entries 3 (DEDUCED and DESIGN CHOICE), 69 (DEDUCED and DESIGN CHOICE). -/
def execBootSelect (flashAnswers storeGoodA storeGoodB : Bool) (s : State) : Host.Outcome State Fault Refusal :=
  if s.alive && s.mcState = 0 then
    if !flashAnswers then done (s.bootFails 3 3)
    else done (((s.brokenRun.storeFound 0 storeGoodA).storeFound 1 storeGoodB).trialStep.bootFrom)
  else done s

end Sys2Proof.Machine
end

