-- ==== Sys2Proof/Machine/Tick.lean ====
section
/-!
DEFINITION. What one root clock cycle does when no command waits (R20): the domains count, and what the manual drives by a clock rather
than by an occurrence of its own happens.
-/

namespace Sys2Proof.Machine

/-- A PCLK cycle: the confirm window runs down (R463), a write of the boot record ends, and the interfaces of a QDR that starts go on.
Log entry 2 (DESIGN CHOICE). -/
def State.pclkTick (s : State) : State :=
  let s := s.recordWritten.qdrTick
  if s.rd O.bootState = 1 then s.wr O.confirmLeft (s.rd O.confirmLeft - 1) else s

/-- A PIPE cycle. Log entry 2 (DESIGN CHOICE). -/
def State.pipeTick (s : State) : State := 
  s.bufTick.coreTick.commitTick.schedTick.fabTick.stallTick.polTick.chainTick.flushTick.sweepTick

/-- Does a cell slot of the fabric lanes begin in this root cycle? Slots are 67.2 root cycles long (R382). Log entry 2 (DESIGN CHOICE). -/
def State.slotBegins (s : State) : Bool := s.ticks * 5 / 336 != (s.ticks - 1) * 5 / 336

/-- Does PIPE run: it is released, and P1 does not gate it (R86)? -/
def State.pipeRuns (s : State) : Bool := bit s.pwr.released 1 && !s.dim

/-- One root clock cycle. Until a domain is released nothing counts, and what PCLK drives waits for PCLK (R59, R78, R154).
Log entry 2 (DESIGN CHOICE). -/
def State.tick (s : State) : State :=
  if s.pwr.released = 0 then s
  else
    let s := { s with ticks := s.ticks + 1 }
    let s := if s.alive && s.ticks % 24 == 0 then s.pclkTick else s
    let s := if bit s.pwr.released 2 && s.ticks % 6 == 0 then s.todTick else s
    let s := if s.ticks % 4 != 0 then s else if s.pipeRuns then s.pipeTick else s.updPwr fun p => { p with pipeOff := p.pipeOff + 1 }
    let s := if s.pipeRuns && s.slotBegins then s.slotTick else s
    if s.alive then s.ltTick.perfTick else s

end Sys2Proof.Machine
end

