-- ==== Sys2Proof/Machine/Dispatch.lean ====
section
/-!
DEFINITION. The dispatch of a command to its meaning: one arm per constructor of Instr, in the order of Instr.
-/

namespace Sys2Proof.Machine

def exec (i : Instr) (s : State) : Host.Outcome State Fault Refusal :=
  match i with
  | .objectWrite p index sub offset data => Sys2Proof.Machine.execObjectWrite p index sub offset data s
  | .rcRead p index sub => Sys2Proof.Machine.execRcRead p index sub s
  | .windowHalfWrite upper index sub half => Sys2Proof.Machine.execWindowHalfWrite upper index sub half s
  | .windowHalfRead upper index sub => Sys2Proof.Machine.execWindowHalfRead upper index sub s
  | .mbxRead p arg => Sys2Proof.Machine.execMbxRead p arg s
  | .mbxWrite p arg => Sys2Proof.Machine.execMbxWrite p arg s
  | .stagingCopyTimeout index sub => Sys2Proof.Machine.execStagingCopyTimeout index sub s
  | .kdpRequest source port datagram => Sys2Proof.Machine.execKdpRequest source port datagram s
  | .kdpKeyWrite p slot key => Sys2Proof.Machine.execKdpKeyWrite p slot key s
  | .kdpKeyRevoke p arg => Sys2Proof.Machine.execKdpKeyRevoke p arg s
  | .ringEnable p ring => Sys2Proof.Machine.execRingEnable p ring s
  | .enable p f arg => Sys2Proof.Machine.execEnable p f arg s
  | .enableDone f => Sys2Proof.Machine.execEnableDone f s
  | .start p f arg => Sys2Proof.Machine.execStart p f arg s
  | .startDone f report => Sys2Proof.Machine.execStartDone f report s
  | .startFailed f status => Sys2Proof.Machine.execStartFailed f status s
  | .stop p f arg => Sys2Proof.Machine.execStop p f arg s
  | .stopDone f => Sys2Proof.Machine.execStopDone f s
  | .stopTimeout f => Sys2Proof.Machine.execStopTimeout f s
  | .disable p f arg => Sys2Proof.Machine.execDisable p f arg s
  | .disableDone f => Sys2Proof.Machine.execDisableDone f s
  | .evradFlitCrcFail channel wire again => Sys2Proof.Machine.execEvradFlitCrcFail channel wire again s
  | .evradWireFault channel wire => Sys2Proof.Machine.execEvradWireFault channel wire s
  | .evradRetrainEnd channel outage => Sys2Proof.Machine.execEvradRetrainEnd channel outage s
  | .evradTrainingEnd badWires => Sys2Proof.Machine.execEvradTrainingEnd badWires s
  | .trimLoadDone mgmtEn => Sys2Proof.Machine.execTrimLoadDone mgmtEn s
  | .regPowerGood n => Sys2Proof.Machine.execRegPowerGood n s
  | .domainStable d => Sys2Proof.Machine.execDomainStable d s
  | .domainRelease d => Sys2Proof.Machine.execDomainRelease d s
  | .clkStableTimeout d => Sys2Proof.Machine.execClkStableTimeout d s
  | .wakeStepTimeout ldoOk => Sys2Proof.Machine.execWakeStepTimeout ldoOk s
  | .supplyFault rail => Sys2Proof.Machine.execSupplyFault rail s
  | .railExcursionStart rail => Sys2Proof.Machine.execRailExcursionStart rail s
  | .railExcursionEnd rail extremeMv durationAon => Sys2Proof.Machine.execRailExcursionEnd rail extremeMv durationAon s
  | .supplySample vinMv powerDw railMv railMa => Sys2Proof.Machine.execSupplySample vinMv powerDw railMv railMa s
  | .thermalSample tjF tjT meanF meanT diodeF diodeT => Sys2Proof.Machine.execThermalSample tjF tjT meanF meanT diodeF diodeT s
  | .thermalTrip diodeF diodeT => Sys2Proof.Machine.execThermalTrip diodeF diodeT s
  | .sysReset p arg => Sys2Proof.Machine.execSysReset p arg s
  | .coreReset p arg => Sys2Proof.Machine.execCoreReset p arg s
  | .monExcursion d => Sys2Proof.Machine.execMonExcursion d s
  | .phyPllLocked n => Sys2Proof.Machine.execPhyPllLocked n s
  | .phyPllUnlock n => Sys2Proof.Machine.execPhyPllUnlock n s
  | .pstateToP0 p arg => Sys2Proof.Machine.execPstateToP0 p arg s
  | .pstateToP1 p arg => Sys2Proof.Machine.execPstateToP1 p arg s
  | .pstateToP2 p arg => Sys2Proof.Machine.execPstateToP2 p arg s
  | .smbusResetCauseWrite word => Sys2Proof.Machine.execSmbusResetCauseWrite word s
  | .wakeRetry data pecGood => Sys2Proof.Machine.execWakeRetry data pecGood s
  | .smbusSysReset data pecGood => Sys2Proof.Machine.execSmbusSysReset data pecGood s
  | .p2Exit data pecGood => Sys2Proof.Machine.execP2Exit data pecGood s
  | .pcieLinkUp speed width flit => Sys2Proof.Machine.execPcieLinkUp speed width flit s
  | .unsupportedRequest posted header => Sys2Proof.Machine.execUnsupportedRequest posted header s
  | .poisonedWrite header => Sys2Proof.Machine.execPoisonedWrite header s
  | .doeRequest vendor type payload => Sys2Proof.Machine.execDoeRequest vendor type payload s
  | .arm p r arg => Sys2Proof.Machine.execArm p r arg s
  | .halt p r arg => Sys2Proof.Machine.execHalt p r arg s
  | .reset p r arg => Sys2Proof.Machine.execReset p r arg s
  | .ringHalted r => Sys2Proof.Machine.execRingHalted r s
  | .doorbell ring value => Sys2Proof.Machine.execDoorbell ring value s
  | .descriptorFetch r d => Sys2Proof.Machine.execDescriptorFetch r d s
  | .descriptorComplete r => Sys2Proof.Machine.execDescriptorComplete r s
  | .completionReceived tag status data last => Sys2Proof.Machine.execCompletionReceived tag status data last s
  | .completionTimeout tag => Sys2Proof.Machine.execCompletionTimeout tag s
  | .unexpectedCpl tag => Sys2Proof.Machine.execUnexpectedCpl tag s
  | .quarantineExpiry tag => Sys2Proof.Machine.execQuarantineExpiry tag s
  | .coalTimeExpiry v => Sys2Proof.Machine.execCoalTimeExpiry v s
  | .msixUnmask w => Sys2Proof.Machine.execMsixUnmask w s
  | .translationCompletion ring page sizeLog2 granted => Sys2Proof.Machine.execTranslationCompletion ring page sizeLog2 granted s
  | .invalidateRequest itag page sizeLog2 => Sys2Proof.Machine.execInvalidateRequest itag page sizeLog2 s
  | .invalidateComplete itag => Sys2Proof.Machine.execInvalidateComplete itag s
  | .pairApply p k arg => Sys2Proof.Machine.execPairApply p k arg s
  | .adminUp p port up => Sys2Proof.Machine.execAdminUp p port up s
  | .loopback p port mode => Sys2Proof.Machine.execLoopback p port mode s
  | .prbsMode p lane mode => Sys2Proof.Machine.execPrbsMode p lane mode s
  | .laneLocked lane taps snr => Sys2Proof.Machine.execLaneLocked lane taps snr s
  | .laneTrainFailed lane snr => Sys2Proof.Machine.execLaneTrainFailed lane snr s
  | .laneTrainRetry lane => Sys2Proof.Machine.execLaneTrainRetry lane s
  | .laneSignalLoss lane los => Sys2Proof.Machine.execLaneSignalLoss lane los s
  | .pcsAligned port => Sys2Proof.Machine.execPcsAligned port s
  | .alignmentLoss port hiSer => Sys2Proof.Machine.execAlignmentLoss port hiSer s
  | .faultReceived port fault => Sys2Proof.Machine.execFaultReceived port fault s
  | .linkDownHoldExpiry port => Sys2Proof.Machine.execLinkDownHoldExpiry port s
  | .fecWindowEnd port corrected uncorrectable symbols => Sys2Proof.Machine.execFecWindowEnd port corrected uncorrectable symbols s
  | .bind p arg => Sys2Proof.Machine.execBind p arg s
  | .unbind p arg => Sys2Proof.Machine.execUnbind p arg s
  | .subportRead p arg => Sys2Proof.Machine.execSubportRead p arg s
  | .todCapture p arg => Sys2Proof.Machine.execTodCapture p arg s
  | .todSetNow p arg => Sys2Proof.Machine.execTodSetNow p arg s
  | .todSetArm p arg => Sys2Proof.Machine.execTodSetArm p arg s
  | .todSetCancel p arg => Sys2Proof.Machine.execTodSetCancel p arg s
  | .todStep p arg => Sys2Proof.Machine.execTodStep p arg s
  | .synceHoldoffExpiry n => Sys2Proof.Machine.execSynceHoldoffExpiry n s
  | .frameReceived port client frame check bad => Sys2Proof.Machine.execFrameReceived port client frame check bad s
  | .assocSearch t cluster key bad tagBad prioBad => Sys2Proof.Machine.execAssocSearch t cluster key bad tagBad prioBad s
  | .dispatch slice bad => Sys2Proof.Machine.execDispatch slice bad s
  | .passEnd cluster packet res => Sys2Proof.Machine.execPassEnd cluster packet res s
  | .cycleOverrun cluster packet residence => Sys2Proof.Machine.execCycleOverrun cluster packet residence s
  | .residenceOverrun cluster packet issue => Sys2Proof.Machine.execResidenceOverrun cluster packet issue s
  | .reorderRelease stage port => Sys2Proof.Machine.execReorderRelease stage port s
  | .reorderTimeout stage port => Sys2Proof.Machine.execReorderTimeout stage port s
  | .chainCopy p arg => Sys2Proof.Machine.execChainCopy p arg s
  | .chainSwap p arg => Sys2Proof.Machine.execChainSwap p arg s
  | .chainClear p arg => Sys2Proof.Machine.execChainClear p arg s
  | .injectPort r bad => Sys2Proof.Machine.execInjectPort r bad s
  | .injectQueue r => Sys2Proof.Machine.execInjectQueue r s
  | .egressSliceInput n bad => Sys2Proof.Machine.execEgressSliceInput n bad s
  | .frameTransmit port => Sys2Proof.Machine.execFrameTransmit port s
  | .profileWrite p arg => Sys2Proof.Machine.execProfileWrite p arg s
  | .profileRead p arg => Sys2Proof.Machine.execProfileRead p arg s
  | .profileClear p arg => Sys2Proof.Machine.execProfileClear p arg s
  | .profileHoldEnd profile => Sys2Proof.Machine.execProfileHoldEnd profile s
  | .profileRingWrite r => Sys2Proof.Machine.execProfileRingWrite r s
  | .clusterRepairDone cluster => Sys2Proof.Machine.execClusterRepairDone cluster s
  | .load p arg => Sys2Proof.Machine.execLoad p arg s
  | .mcodeLoaded badCluster => Sys2Proof.Machine.execMcodeLoaded badCluster s
  | .switch p arg => Sys2Proof.Machine.execSwitch p arg s
  | .clusterSwitch cluster elapsed => Sys2Proof.Machine.execClusterSwitch cluster elapsed s
  | .abort p arg => Sys2Proof.Machine.execAbort p arg s
  | .tblInsert p tid arg => Sys2Proof.Machine.execTblInsert p tid arg s
  | .tblDelete p tid arg => Sys2Proof.Machine.execTblDelete p tid arg s
  | .tblSearch p tid read => Sys2Proof.Machine.execTblSearch p tid read s
  | .tblNext p tid read => Sys2Proof.Machine.execTblNext p tid read s
  | .flushPort p tid arg => Sys2Proof.Machine.execFlushPort p tid arg s
  | .flushDone bad0 bad1 => Sys2Proof.Machine.execFlushDone bad0 bad1 s
  | .retire p tid arg => Sys2Proof.Machine.execRetire p tid arg s
  | .tableRingRecords r => Sys2Proof.Machine.execTableRingRecords r s
  | .learnPerform turn => Sys2Proof.Machine.execLearnPerform turn s
  | .sweepStart w => Sys2Proof.Machine.execSweepStart w s
  | .sweepVisit w key parityBad keyBad => Sys2Proof.Machine.execSweepVisit w key parityBad keyBad s
  | .ascInsert p arg => Sys2Proof.Machine.execAscInsert p arg s
  | .ascDelete p arg => Sys2Proof.Machine.execAscDelete p arg s
  | .ascSearch p lookup => Sys2Proof.Machine.execAscSearch p lookup s
  | .ascRead p arg => Sys2Proof.Machine.execAscRead p arg s
  | .ascNext p arg => Sys2Proof.Machine.execAscNext p arg s
  | .rowWrite t bad tagBad prioBad => Sys2Proof.Machine.execRowWrite t bad tagBad prioBad s
  | .assocRingRecords r => Sys2Proof.Machine.execAssocRingRecords r s
  | .scrubRow slice row bad tagBad prioBad => Sys2Proof.Machine.execScrubRow slice row bad tagBad prioBad s
  | .qbufWrite p arg => Sys2Proof.Machine.execQbufWrite p arg s
  | .qbufRead p arg => Sys2Proof.Machine.execQbufRead p arg s
  | .qbufRingRecords r => Sys2Proof.Machine.execQbufRingRecords r s
  | .meter n ecc part => Sys2Proof.Machine.execMeter n ecc part s
  | .segmentWriteIssue q => Sys2Proof.Machine.execSegmentWriteIssue q s
  | .segmentWriteDone q segment => Sys2Proof.Machine.execSegmentWriteDone q segment s
  | .segmentReadIssue q => Sys2Proof.Machine.execSegmentReadIssue q s
  | .segmentReadDone q segment ecc err => Sys2Proof.Machine.execSegmentReadDone q segment ecc err s
  | .trimDone channel => Sys2Proof.Machine.execTrimDone channel s
  | .bpmAlloc p arg => Sys2Proof.Machine.execBpmAlloc p arg s
  | .bpmFree p arg => Sys2Proof.Machine.execBpmFree p arg s
  | .bpmCheck p arg => Sys2Proof.Machine.execBpmCheck p arg s
  | .schedulerPick k => Sys2Proof.Machine.execSchedulerPick k s
  | .cellCloseTimeout input output => Sys2Proof.Machine.execCellCloseTimeout input output s
  | .coreCellSend input => Sys2Proof.Machine.execCoreCellSend input s
  | .coreOutputRelease output input => Sys2Proof.Machine.execCoreOutputRelease output input s
  | .reseqTimeout output input => Sys2Proof.Machine.execReseqTimeout output input s
  | .ltFlushTimeExpiry r => Sys2Proof.Machine.execLtFlushTimeExpiry r s
  | .nodeWrite p arg => Sys2Proof.Machine.execNodeWrite p arg s
  | .nodeRead p arg => Sys2Proof.Machine.execNodeRead p arg s
  | .nodeRingRecords r => Sys2Proof.Machine.execNodeRingRecords r s
  | .shapeWrite p arg => Sys2Proof.Machine.execShapeWrite p arg s
  | .shapeRead p arg => Sys2Proof.Machine.execShapeRead p arg s
  | .fairWindowExpiry q => Sys2Proof.Machine.execFairWindowExpiry q s
  | .polWrite p arg => Sys2Proof.Machine.execPolWrite p arg s
  | .polRead p arg => Sys2Proof.Machine.execPolRead p arg s
  | .polRingRecords r => Sys2Proof.Machine.execPolRingRecords r s
  | .pprofWrite p arg => Sys2Proof.Machine.execPprofWrite p arg s
  | .pprofRead p arg => Sys2Proof.Machine.execPprofRead p arg s
  | .policerWalk policer => Sys2Proof.Machine.execPolicerWalk policer s
  | .framingReceived lane framing => Sys2Proof.Machine.execFramingReceived lane framing s
  | .cellReceived lane header payload => Sys2Proof.Machine.execCellReceived lane header payload s
  | .fabReseqTimeout g source => Sys2Proof.Machine.execFabReseqTimeout g source s
  | .reassemblyRelease g source => Sys2Proof.Machine.execReassemblyRelease g source s
  | .fabCellCloseTimeout g dest => Sys2Proof.Machine.execFabCellCloseTimeout g dest s
  | .fabCellSend g => Sys2Proof.Machine.execFabCellSend g s
  | .sidebandBeacon plane frame => Sys2Proof.Machine.execSidebandBeacon plane frame s
  | .beaconMiss plane sideband => Sys2Proof.Machine.execBeaconMiss plane sideband s
  | .removalWindowEnd plane => Sys2Proof.Machine.execRemovalWindowEnd plane s
  | .wtrExpiry plane => Sys2Proof.Machine.execWtrExpiry plane s
  | .joinComplete plane => Sys2Proof.Machine.execJoinComplete plane s
  | .planeAdmin p plane value => Sys2Proof.Machine.execPlaneAdmin p plane value s
  | .keepGrantChange level => Sys2Proof.Machine.execKeepGrantChange level s
  | .switchoverActive port gap => Sys2Proof.Machine.execSwitchoverActive port gap s
  | .relinquishSet p arg => Sys2Proof.Machine.execRelinquishSet p arg s
  | .relinquishClear p arg => Sys2Proof.Machine.execRelinquishClear p arg s
  | .roleActivate p port arg => Sys2Proof.Machine.execRoleActivate p port arg s
  | .roleStandby p port arg => Sys2Proof.Machine.execRoleStandby p port arg s
  | .protMode p port value => Sys2Proof.Machine.execProtMode p port value s
  | .chDrain p ch arg => Sys2Proof.Machine.execChDrain p ch arg s
  | .chReleaseService p ch arg => Sys2Proof.Machine.execChReleaseService p ch arg s
  | .chReleaseOut p ch arg => Sys2Proof.Machine.execChReleaseOut p ch arg s
  | .chRetrain p ch arg => Sys2Proof.Machine.execChRetrain p ch arg s
  | .channelTrained ch swept refined => Sys2Proof.Machine.execChannelTrained ch swept refined s
  | .hbmTrack ch tests => Sys2Proof.Machine.execHbmTrack ch tests s
  | .stackTempSample k temp => Sys2Proof.Machine.execStackTempSample k temp s
  | .hbmScrub ch ecc err => Sys2Proof.Machine.execHbmScrub ch ecc err s
  | .hbmCommandParity ch err => Sys2Proof.Machine.execHbmCommandParity ch err s
  | .patternRun p arg => Sys2Proof.Machine.execPatternRun p arg s
  | .patternDone errors delays eyes => Sys2Proof.Machine.execPatternDone errors delays eyes s
  | .qdrAddressParity n repeats => Sys2Proof.Machine.execQdrAddressParity n repeats s
  | .fwBegin p arg => Sys2Proof.Machine.execFwBegin p arg s
  | .fwWrite p arg => Sys2Proof.Machine.execFwWrite p arg s
  | .fwVerify p arg => Sys2Proof.Machine.execFwVerify p arg s
  | .verifyDone readBack => Sys2Proof.Machine.execVerifyDone readBack s
  | .fwActivate p arg => Sys2Proof.Machine.execFwActivate p arg s
  | .fwConfirm p arg => Sys2Proof.Machine.execFwConfirm p arg s
  | .fwAbort p arg => Sys2Proof.Machine.execFwAbort p arg s
  | .fwRevert p arg => Sys2Proof.Machine.execFwRevert p arg s
  | .bootSelect flashAnswers storeGoodA storeGoodB => Sys2Proof.Machine.execBootSelect flashAnswers storeGoodA storeGoodB s
  | .keyRevoke p arg => Sys2Proof.Machine.execKeyRevoke p arg s
  | .settingsSave p arg => Sys2Proof.Machine.execSettingsSave p arg s
  | .settingsApply p arg => Sys2Proof.Machine.execSettingsApply p arg s
  | .freeze p arg => Sys2Proof.Machine.execFreeze p arg s
  | .unfreeze p arg => Sys2Proof.Machine.execUnfreeze p arg s
  | .snapshot p arg => Sys2Proof.Machine.execSnapshot p arg s
  | .snapPin level => Sys2Proof.Machine.execSnapPin level s
  | .statRead p arg read => Sys2Proof.Machine.execStatRead p arg read s
  | .statReadClear p arg read => Sys2Proof.Machine.execStatReadClear p arg read s
  | .statWrite p arg => Sys2Proof.Machine.execStatWrite p arg s
  | .exportPeriod e => Sys2Proof.Machine.execExportPeriod e s
  | .exportPairRead turn => Sys2Proof.Machine.execExportPairRead turn s
  | .prbsCheckerSync lane inSync => Sys2Proof.Machine.execPrbsCheckerSync lane inSync s
  | .otucFramePeriod g slice obs clients => Sys2Proof.Machine.execOtucFramePeriod g slice obs clients s
  | .integratedDefectTimer g slice multiframe => Sys2Proof.Machine.execIntegratedDefectTimer g slice multiframe s
  | .smDegSecond g => Sys2Proof.Machine.execSmDegSecond g s
  | .tsiWrite p arg => Sys2Proof.Machine.execTsiWrite p arg s
  | .tsiRead p active arg => Sys2Proof.Machine.execTsiRead p active arg s
  | .tsiCopy p arg => Sys2Proof.Machine.execTsiCopy p arg s
  | .tsiClear p arg => Sys2Proof.Machine.execTsiClear p arg s
  | .tsiSwap p arg => Sys2Proof.Machine.execTsiSwap p arg s
  | .tsiRingRecords r => Sys2Proof.Machine.execTsiRingRecords r s
  | .mailboxAccessEnd => Sys2Proof.Machine.execMailboxAccessEnd s
  | .kdpResponse => Sys2Proof.Machine.execKdpResponse s
  | .vinGood => Sys2Proof.Machine.execVinGood s
  | .aonReady => Sys2Proof.Machine.execAonReady s
  | .refclkPresent => Sys2Proof.Machine.execRefclkPresent s
  | .rootLock => Sys2Proof.Machine.execRootLock s
  | .railOff => Sys2Proof.Machine.execRailOff s
  | .wakeRetryTimer => Sys2Proof.Machine.execWakeRetryTimer s
  | .aonLoss => Sys2Proof.Machine.execAonLoss s
  | .porstN => Sys2Proof.Machine.execPorstN s
  | .srstN => Sys2Proof.Machine.execSrstN s
  | .commandedResetStart => Sys2Proof.Machine.execCommandedResetStart s
  | .coreResetRelease => Sys2Proof.Machine.execCoreResetRelease s
  | .mcWdt => Sys2Proof.Machine.execMcWdt s
  | .rootClockLost => Sys2Proof.Machine.execRootClockLost s
  | .biasUpdate => Sys2Proof.Machine.execBiasUpdate s
  | .pstateTransitionEnd => Sys2Proof.Machine.execPstateTransitionEnd s
  | .pciePllLocked => Sys2Proof.Machine.execPciePllLocked s
  | .pciePllUnlock => Sys2Proof.Machine.execPciePllUnlock s
  | .mgmtPllUnlock => Sys2Proof.Machine.execMgmtPllUnlock s
  | .linkDown => Sys2Proof.Machine.execLinkDown s
  | .bmeClear => Sys2Proof.Machine.execBmeClear s
  | .functionLevelReset => Sys2Proof.Machine.execFunctionLevelReset s
  | .flrDone => Sys2Proof.Machine.execFlrDone s
  | .d3hot => Sys2Proof.Machine.execD3hot s
  | .aspmL1Entry => Sys2Proof.Machine.execAspmL1Entry s
  | .ppsOutPulse => Sys2Proof.Machine.execPpsOutPulse s
  | .ppsOutEnd => Sys2Proof.Machine.execPpsOutEnd s
  | .ppsInEdge => Sys2Proof.Machine.execPpsInEdge s
  | .ppsInLost => Sys2Proof.Machine.execPpsInLost s
  | .trapDeliver => Sys2Proof.Machine.execTrapDeliver s
  | .chainSwapDone => Sys2Proof.Machine.execChainSwapDone s
  | .epochAdvance => Sys2Proof.Machine.execEpochAdvance s
  | .beaconSend => Sys2Proof.Machine.execBeaconSend s
  | .protWtrExpiry => Sys2Proof.Machine.execProtWtrExpiry s
  | .eraseDone => Sys2Proof.Machine.execEraseDone s
  | .eraseTimeout => Sys2Proof.Machine.execEraseTimeout s
  | .blockProgrammed => Sys2Proof.Machine.execBlockProgrammed s
  | .confirmWindowExpiry => Sys2Proof.Machine.execConfirmWindowExpiry s
  | .mgmtPllLocked => Sys2Proof.Machine.execMgmtPllLocked s
  | .busMasterEnableSet => Sys2Proof.Machine.execBusMasterEnableSet s
  | .returnToD0 => Sys2Proof.Machine.execReturnToD0 s
  | .atsEnableClear => Sys2Proof.Machine.execAtsEnableClear s
  | .tsiSwapped => Sys2Proof.Machine.execTsiSwapped s
  | .keepGrantGlitch => Sys2Proof.Machine.execKeepGrantGlitch s
  | .smbusTimeout => Sys2Proof.Machine.execSmbusTimeout s

end Sys2Proof.Machine
end

