-- ==== Sys2Proof/Machine/ConfigSpace.lean ====
section
/-!
DEFINITION. What the host finds at the endpoint beside the dictionary window (R101 to R106, R111, R127 to R130): configuration space, the
base address registers, the registers of BAR2, the user counter page and the Expansion ROM. Reads of these change nothing, so that
they are functions of the state and no command.
-/

namespace Sys2Proof.Machine

/-! ### Configuration space (R101 to R103) -/

/-- A field of configuration space: the dword's offset, the lowest bit, the number of bits and the value. -/
structure ConfigField where
  offset : Nat
  low    : Nat
  width  : Nat
  value  : Nat
  deriving DecidableEq, Repr

/-- A capability: where it stands, its ID, and where the next one stands (R102). -/
structure Capability where
  offset : Nat
  id     : Nat
  next   : Nat
  deriving DecidableEq, Repr

/-- The capability list (R102). -/
def capabilities : List Capability :=
  [⟨0x040, 0x01, 0x50⟩, ⟨0x050, 0x11, 0x70⟩, ⟨0x070, 0x10, 0x00⟩]

/-- The extended capability list (R102). -/
def extCapabilities : List Capability :=
  [⟨0x100, 0x0001, 0x148⟩, ⟨0x148, 0x0003, 0x158⟩, ⟨0x158, 0x000F, 0x160⟩, ⟨0x160, 0x002E, 0x180⟩, ⟨0x180, 0x0019, 0x1A0⟩,
   ⟨0x1A0, 0x0025, 0x1B0⟩, ⟨0x1B0, 0x0026, 0x1E0⟩, ⟨0x1E0, 0x002A, 0x210⟩, ⟨0x210, 0x0031, 0x230⟩, ⟨0x230, 0x0027, 0x260⟩,
   ⟨0x260, 0x001E, 0x000⟩]

/-- ID and next pointer of a capability. -/
def Capability.fields (c : Capability) : List ConfigField := [⟨c.offset, 0, 8, c.id⟩, ⟨c.offset, 8, 8, c.next⟩]

/-- ID and next pointer of an extended capability. -/
def Capability.extFields (c : Capability) : List ConfigField := [⟨c.offset, 0, 16, c.id⟩, ⟨c.offset, 20, 12, c.next⟩]

/-- The configuration header (R101, R105, R106), every dword of it whole. Fields that the table of R101 does not list have the defaults of the
PCIe base specification for an Endpoint: Capabilities List in Status is 1, and the others are 0, the address bits of the BARs and of the Expansion
ROM and the Interrupt Line among them. Log entry 40 (PRESUMED). -/
def State.headerFields (s : State) : List ConfigField :=
  [⟨0x00, 0, 16, s.rd O.vendorId⟩, ⟨0x00, 16, 16, 0x9A20⟩,
   ⟨0x04, 0, 1, 0⟩, ⟨0x04, 1, 1, b2n s.host.memSpace⟩, ⟨0x04, 2, 1, b2n s.host.bme⟩, ⟨0x04, 3, 13, 0⟩,
   ⟨0x04, 16, 4, 0⟩, ⟨0x04, 20, 1, 1⟩, ⟨0x04, 21, 11, 0⟩,
   ⟨0x08, 0, 8, s.rd O.siliconRev⟩, ⟨0x08, 8, 24, 0x028000⟩,
   ⟨0x0C, 0, 8, 0⟩, ⟨0x0C, 8, 8, 0⟩, ⟨0x0C, 16, 8, 0x00⟩, ⟨0x0C, 24, 8, 0⟩,
   ⟨0x10, 0, 4, 0x4⟩, ⟨0x10, 4, 28, 0⟩, ⟨0x14, 0, 32, 0⟩, ⟨0x18, 0, 4, 0x4⟩, ⟨0x18, 4, 28, 0⟩, ⟨0x1C, 0, 32, 0⟩,
   ⟨0x20, 0, 4, 0xC⟩, ⟨0x20, 4, 28, 0⟩, ⟨0x24, 0, 32, 0⟩, ⟨0x28, 0, 32, 0⟩,
   ⟨0x2C, 0, 16, s.rd O.vendorId⟩, ⟨0x2C, 16, 16, 0x0001⟩, ⟨0x30, 0, 32, 0⟩,
   ⟨0x34, 0, 8, 0x40⟩, ⟨0x34, 8, 24, 0⟩, ⟨0x38, 0, 32, 0⟩, ⟨0x3C, 0, 8, 0⟩, ⟨0x3C, 8, 8, 0x00⟩, ⟨0x3C, 16, 16, 0⟩]

/-- The fields of Power Management and of MSI-X that the manual gives (R103, R105, R111, R117). -/
def State.powerFields (s : State) : List ConfigField :=
  [⟨0x40, 27, 5, 0⟩, ⟨0x44, 0, 2, if s.host.d3hot then 3 else 0⟩, ⟨0x44, 3, 1, 1⟩,
   ⟨0x50, 16, 11, 63⟩, ⟨0x54, 0, 32, 0xFF0000 + 2⟩, ⟨0x58, 0, 32, 0xFF8000 + 2⟩]

/-- How a size of 128 to 4,096 bytes is encoded. -/
def sizeCode (n : Nat) : Nat := (n / 128).log2

/-- The fields of the PCI Express capability that the manual gives (R98, R99, R102, R118 to R120, R128). -/
def State.expressFields (s : State) : List ConfigField :=
  [⟨0x74, 0, 3, 2⟩, ⟨0x74, 28, 1, 1⟩,
   ⟨0x78, 4, 1, b2n s.host.relaxed⟩, ⟨0x78, 5, 3, sizeCode s.host.maxPayload⟩, ⟨0x78, 11, 1, 0⟩, ⟨0x78, 12, 3, sizeCode s.host.maxRead⟩,
   ⟨0x7C, 0, 4, 6⟩, ⟨0x7C, 4, 6, 8⟩, ⟨0x7C, 10, 2, 2⟩, ⟨0x7C, 15, 3, 3⟩,
   ⟨0x80, 0, 2, 2 * b2n s.host.aspmL1⟩, ⟨0x80, 16, 4, s.rd O.linkSpeed⟩, ⟨0x80, 20, 6, s.rd O.linkWidth⟩,
   ⟨0x94, 0, 4, 0xF⟩, ⟨0x94, 4, 1, 1⟩,
   ⟨0x98, 0, 4, s.host.cplTimeout⟩, ⟨0x98, 4, 1, b2n s.host.cplTimeoutOff⟩, ⟨0x98, 12, 1, b2n s.host.tag10⟩]

/-- The fields of the extended capabilities that the manual gives (R98, R102, R123, R124, R128). -/
def State.extendedFields (s : State) : List ConfigField :=
  [⟨0x118, 5, 1, 1⟩, ⟨0x118, 6, 1, b2n s.host.ecrcGen⟩, ⟨0x118, 7, 1, 1⟩, ⟨0x118, 8, 1, b2n s.host.ecrcCheck⟩,
   ⟨0x14C, 0, 32, Config.serial.toNat % 2 ^ 32⟩, ⟨0x150, 0, 32, Config.serial.toNat / 2 ^ 32⟩,
   ⟨0x15C, 0, 5, 0⟩, ⟨0x15C, 31, 1, b2n s.host.atsEnable⟩,
   ⟨0x264, 2, 1, 0⟩, ⟨0x264, 3, 1, 1⟩, ⟨0x268, 3, 1, b2n s.host.l11⟩]

/-- Every field that the manual gives; a field that stands here nowhere has the value of the PCIe base specification (R101).
Log entry 40 (DEDUCED and PRESUMED). -/
def State.configFields (s : State) : List ConfigField :=
  s.headerFields ++ capabilities.flatMap Capability.fields ++ s.powerFields ++ s.expressFields
    ++ extCapabilities.flatMap Capability.extFields ++ s.extendedFields

/-- The answer to a read of configuration space: its fields, or Request Retry Status during a Function Level Reset (R127). -/
inductive ConfigAnswer
  | fields (l : List ConfigField)
  | retry
  deriving DecidableEq, Repr

/-- A read of a dword of configuration space. -/
def State.configRead (s : State) (offset : Nat) : ConfigAnswer :=
  if s.host.flr then .retry else .fields (s.configFields.filter fun f => f.offset == offset)

/-! ### Base address registers (R105, R106) -/

/-- The BARs, and the Expansion ROM. -/
inductive Bar | bar0 | bar2 | bar4 | rom
  deriving DecidableEq, Repr

/-- Type and size of a BAR. -/
structure BarInfo where
  bits         : Nat
  prefetchable : Bool
  size         : Nat
  deriving DecidableEq, Repr

/-- The table of R105. -/
def Bar.info : Bar → BarInfo
  | .bar0 => ⟨64, false, 128 * 2 ^ 20⟩
  | .bar2 => ⟨64, false, 16 * 2 ^ 20⟩
  | .bar4 => ⟨64, true, 64 * 2 ^ 10⟩
  | .rom => ⟨32, false, 64 * 2 ^ 10⟩

/-- A register of a doorbell page: its ring and its offset in the page (R111). -/
def bar2Page (off : Nat) : Option (Nat × Nat) := if off < 0x40000 then some (off / 4096, off % 4096) else none

/-- Does an access lie in the pending-bit array (R111)? -/
def inPendingArray (off len : Nat) : Bool :=
  decide (0xFF8000 ≤ off) && decide (off + len ≤ 0xFF8008) && (len == 4 || len == 8) && off % len == 0

/-- Does the endpoint support a memory request, or is it an Unsupported Request (R106, R127)? -/
def State.memSupported (s : State) (bar : Bar) (off len : Nat) (write : Bool) : Bool :=
  s.memOpen && match bar with
    | .bar0 => (len == 4 || len == 8) && off % len == 0
    | .bar2 =>
      match bar2Page off with
      | some (_, o) => len == 4 && (o == 0 || (!write && (o == 8 || o == 0x10)))
      | none => inMsixTable off len || (!write && inPendingArray off len)
    | .bar4 | .rom => !write

/-- TAIL, HEAD and STATE of a ring's doorbell page (R111): TAIL of an event ring is the value of RING_TAIL. -/
def State.doorbellReg (s : State) (r o : Nat) : Nat :=
  if o = 0 then (if r ≤ 10 then s.rd (O.ringTail r) else mget s.host.tails 0 r)
  else if o = 8 then (if r < 16 then s.rd (O.ringHead r) else s.rd (O.dringHead (r - 16)))
  else if r < 16 then s.rd (O.ringEnable r)
  else s.rd (O.dringHaltCause (r - 16)) * 256 + s.rd (O.dringState (r - 16))

/-- The pending-bit array (R111, R117). -/
def State.pendingBits (s : State) : Nat := ((List.range 64).map fun v => b2n (s.vec v).pending * 2 ^ v).sum

/-- A read of BAR2; none is an Unsupported Request (R106, R111). -/
def State.bar2Read (s : State) (off len : Nat) : Option (List Byte) :=
  if !s.memSupported .bar2 off len false then none
  else match bar2Page off with
    | some (r, o) => some (leBytes 4 (s.doorbellReg r o))
    | none =>
      if inMsixTable off len then some (slice (s.msixEntry ((off - 0xFF0000) / 16)) (off % 16) len)
      else some (slice (leBytes 8 s.pendingBits) (off - 0xFF8000) len)

/-! ### The user counter page (R129) -/

/-- A counter of BAR4, if USER_ACCESS opens it. -/
def State.userCounter (s : State) (n k : Nat) : Nat := if bit (s.rd O.userAccess) n then s.rd k else 0

/-- The quadword at an offset of BAR4. -/
def State.bar4Word (s : State) (off : Nat) : Nat :=
  let n := off % 0x200 / 8
  if off = 0x400 then s.rd O.snapGen
  else if 48 ≤ n then 0
  else match off / 0x200 with
    | 0 => s.userCounter n (O.pcValue n)
    | 1 => s.userCounter n (O.pcValue (48 + n))
    | 4 => s.userCounter n (O.pcSnap n)
    | 5 => s.userCounter n (O.pcSnap (48 + n))
    | _ => 0

/-- A read of BAR4: quadwords at their offsets. -/
def State.bar4Read (s : State) (off len : Nat) : Option (List Byte) :=
  if !s.memSupported .bar4 off len false then none
  else some (slice ((List.range ((off % 8 + len + 7) / 8)).flatMap fun i => leBytes 8 (s.bar4Word (off / 8 * 8 + 8 * i))) (off % 8) len)

/-! ### The Expansion ROM (R130) -/

/-- A read of the Expansion ROM: the description table at offset 0, zeros beyond it. -/
def State.romRead (s : State) (off len : Nat) : Option (List Byte) :=
  if !s.memSupported .rom off len false then none
  else some (fit ((kdt s.mcState s.failReason).drop off) len)

end Sys2Proof.Machine
end

