-- ==== Sys2Proof/Machine/Jtag.lean ====
section
/-!
DEFINITION. The JTAG port (R506, R97, R500): the TAP, its registers and the balls that boundary scan covers. The command table has no row for
an edge of TCK or a level of TRST_N, so that what they do are functions of the state and no command.
-/

namespace Sys2Proof.Machine

/-- TDO (R500): the bit that a shift gives out; none: high-impedance. -/
def Tap.tdo (t : Tap) : Option Bool :=
  match t.ctl with
  | .shiftDr => t.dr.head?
  | .shiftIr => t.ir.head?
  | _ => none

/-! ### Balls (R500, R513) -/

/-- A ball of the boundary-scan register (R506): every CMOS ball of R500 and every QDR-IV ball of R513. -/
inductive Ball
  | porstN | srstN | mgmtEn | faultN | alertN | smbScl | smbSda | tck | tms | tdi | trstN | tdo
  | keepGrant | ppsIn | snap | fsb (n : Fin 6) | keepState | ppsOut | synceClk (n : Fin 2)
  | xsDq (n : Fin 8) | xsDqs | xsSck | xsCsN | xsResetN
  | qdr (bus : Fin 4) (n : Fin 220)
  deriving DecidableEq, Repr

/-- The boundary-scan register: one cell for a ball, in an order that the manual leaves open. Log entry 81 (DESIGN CHOICE). -/
def scanChain : List Ball :=
  [.porstN, .srstN, .mgmtEn, .faultN, .alertN, .smbScl, .smbSda, .tck, .tms, .tdi, .trstN, .tdo, .keepGrant, .ppsIn, .snap] ++
  (List.finRange 6).map .fsb ++ [.keepState, .ppsOut] ++ (List.finRange 2).map .synceClk ++
  (List.finRange 8).map .xsDq ++ [.xsDqs, .xsSck, .xsCsN, .xsResetN] ++
  (List.finRange 4).flatMap fun b => (List.finRange 220).map (.qdr b)

/-- Does a ball stand in the VIO domain, and float while VIO is off (R500, R93)? -/
def Ball.onVio : Ball → Bool
  | .keepGrant | .ppsIn | .snap | .fsb _ | .keepState | .ppsOut | .synceClk _ | .xsDq _ | .xsDqs | .xsSck | .xsCsN | .xsResetN => true
  | _ => false

/-- Is a ball an input and nothing else (R500)? -/
def Ball.inputOnly : Ball → Bool
  | .porstN | .srstN | .mgmtEn | .tck | .tms | .tdi | .trstN | .keepGrant | .ppsIn | .snap | .fsb _ => true
  | _ => false

/-- Is a ball an open-drain output (R500)? -/
def Ball.openDrain : Ball → Bool
  | .faultN | .alertN | .smbScl | .smbSda => true
  | _ => false

/-- Is a ball's supply off: the AON LDO, VIO, or VSERDES_B, which serves the QDR-IV PHYs (R65, R500)? -/
def State.ballDead (s : State) (b : Ball) : Bool :=
  match b with
  | .qdr _ _ => !bit s.pwr.regsOn 6
  | b => if b.onVio then !bit s.pwr.regsOn 4 else !s.smbusUp

/-- Does a VIO output float: before the release of PCLK, and in P2 until the return is complete (R93, R411)? -/
def State.outputFloats (s : State) : Bool := !s.alive || s.pwr.store.isSome

/-- The level that the device gives a ball from its state; none: an input whose level the model does not hold, a ball that floats, or one whose
waveform it does not hold. FAULT_N is low without the AON LDO too (R71). Log entry 81 (DESIGN CHOICE). -/
def State.ballLevel (s : State) (b : Ball) : Option Bool :=
  if b = .faultN then some (!s.faultN)
  else if s.ballDead b || (b.onVio && !b.inputOnly && s.outputFloats) then none
  else match b with
    | .alertN => some (!s.alertN)
    | .tdo => s.tap.tdo
    | .keepState => some (s.rd O.keepStateLevel == 1)
    | .ppsOut => some s.line.ppsHigh
    | .snap => some s.perf.snapHigh
    | _ => none

/-- What a cell captures: the level at its ball, open where the model does not hold it. -/
def State.scanCapture (s : State) : List Bool :=
  scanChain.zipIdx.map fun (b, i) => (s.ballLevel b).getD (s.peek i % 2 == 1)

/-- What a ball shows: under EXTEST the value that was shifted in for it (R506). No value drives an input or a ball without supply, a 1 releases an
open-drain output, and TDO serves the TAP (R500). Log entry 81 (DESIGN CHOICE). -/
def State.ballShown (s : State) (b : Ball) : Option Bool :=
  if s.tap.instr ≠ .extest || b = .tdo then s.ballLevel b
  else if b.inputOnly || s.ballDead b then none
  else match s.tap.drive[scanChain.idxOf b]? with
    | some v => if b.openDrain && v then none else some v
    | none => none

/-! ### Registers of the TAP (R506, R97) -/

/-- The bits of a byte list, bit 0 of byte 0 first. -/
def bitsOf (l : List Byte) : List Bool := l.flatMap fun b => (List.range 8).map fun i => b.toNat.testBit i

/-- IDCODE (R506). -/
def State.idcode (s : State) : Nat :=
  s.rd O.siliconRev / 16 % 16 * 2 ^ 28 + 0x9A20 * 2 ^ 12 + Config.jep106.toNat * 2 + 1

/-- What the IEEE 1687 instrument reads (R97): the registers of the SMBus, in the order of their codes. Log entry 81 (DESIGN CHOICE). -/
def State.instrument (s : State) : List Bool :=
  bitsOf ((List.range 8).flatMap fun c => (s.smbusRead (c + 1)).getD [])

/-- What the selected data register captures. -/
def State.drCapture (s : State) : List Bool :=
  match s.tap.instr with
  | .bypass => [false]
  | .idcode => bitsOf (leBytes 4 s.idcode)
  | .samplePreload | .extest => s.scanCapture
  | .instrument => s.instrument

/-- A word of bits, bit 0 first, as a number. -/
def numberOf : List Bool → Nat
  | [] => 0
  | b :: t => b2n b + 2 * numberOf t

/-- The instruction that a shifted-in word selects: all ones select BYPASS. Log entry 81 (PRESUMED). -/
def tapInstrOf (l : List Bool) : Config.TapInstr :=
  if l.all id then .bypass
  else match Config.tapCodes.findIdx? fun n => n == numberOf l with
    | some 0 => .samplePreload
    | some 1 => .extest
    | some 2 => .idcode
    | some 3 => .instrument
    | _ => Config.tapOther l

/-- What the instruction register captures: 01 in its two lowest bits, the rest open. Log entry 81 (PRESUMED). -/
def State.irCapture (s : State) : List Bool :=
  true :: false :: (List.range Config.tapIrExtra).map fun i => s.peek i % 2 == 1

/-- The state machine of the TAP, by TMS at a rising edge of TCK. Log entry 81 (PRESUMED). -/
def TapCtl.next : TapCtl → Bool → TapCtl
  | .reset, t => if t then .reset else .idle
  | .idle, t | .updateDr, t | .updateIr, t => if t then .selectDr else .idle
  | .selectDr, t => if t then .selectIr else .captureDr
  | .captureDr, t | .shiftDr, t => if t then .exit1Dr else .shiftDr
  | .exit1Dr, t => if t then .updateDr else .pauseDr
  | .pauseDr, t => if t then .exit2Dr else .pauseDr
  | .exit2Dr, t => if t then .updateDr else .shiftDr
  | .selectIr, t => if t then .reset else .captureIr
  | .captureIr, t | .shiftIr, t => if t then .exit1Ir else .shiftIr
  | .exit1Ir, t => if t then .updateIr else .pauseIr
  | .pauseIr, t => if t then .exit2Ir else .pauseIr
  | .exit2Ir, t => if t then .updateIr else .shiftIr

/-- Shift a bit in at the far end. -/
def shiftIn (l : List Bool) (b : Bool) : List Bool := l.tail ++ [b]

/-- What the state in which the controller stands does at a rising edge of TCK. -/
def State.tapAct (s : State) (tdi : Bool) : Tap :=
  let t := s.tap
  match t.ctl with
  | .captureDr => { t with dr := s.drCapture }
  | .shiftDr => { t with dr := shiftIn t.dr tdi }
  | .captureIr => { t with ir := s.irCapture }
  | .shiftIr => { t with ir := shiftIn t.ir tdi }
  | _ => t

/-- What the state that the controller enters does. -/
def Tap.entered (t : Tap) : Tap :=
  match t.ctl with
  | .reset => { t with instr := .idcode }
  | .updateDr => if t.instr = .samplePreload || t.instr = .extest then { t with drive := t.dr } else t
  | .updateIr => { t with instr := tapInstrOf t.ir }
  | _ => t

/-- Open values that a capture takes. -/
def State.tapDrawn (s : State) : Nat :=
  match s.tap.ctl with
  | .captureDr => scanChain.length
  | .captureIr => Config.tapIrExtra
  | _ => 0

/-- A rising edge of TCK with the levels of TMS and TDI; the AON domain, in which the port stands, must be up (R500). -/
def State.tckRise (s : State) (tms tdi : Bool) : State :=
  if s.smbusUp then
    { s with tap := Tap.entered { s.tapAct tdi with ctl := s.tap.ctl.next tms }, free := s.free + s.tapDrawn }
  else s

/-- A low level of TRST_N. -/
def State.trstLow (s : State) : State := { s with tap := {} }

end Sys2Proof.Machine
end

