-- ==== Sys2Proof/Safety.lean ====
section
/-!
DEFINITION. What statements about the block speak of: the canonical form of its objects, the security state that no step may weaken,
the objects in which the block reports what it does, and how an access by a path ended.
-/

namespace Sys2Proof.Machine

/-- The objects are listed in their one canonical form: keys strictly rising, and no object listed at its default. Then equal
contents are equal data. -/
def Canonical (m : NMap Nat) : Bool := Rising m && m.all fun e => e.2 != dfltOf e.1

/-- The canonical form of the bytes of the buffer-pool region: addresses strictly rising, and no byte listed at the 0 that an unlisted one
reads as. -/
def RegionCanonical (m : NMap Byte) : Bool := Rising m && m.all fun e => e.2 != 0

/-- `t` weakens nothing of the security state of `s` (R456): the security floors of both kinds of image have not fallen and no revoke
bit is lost. -/
structure FloorsHold (s t : FwSt) : Prop where
  mc      : s.floorMc ≤ t.floorMc
  eng     : s.floorEng ≤ t.floorEng
  revoked : ∀ i, s.revoked.testBit i = true → t.revoked.testBit i = true

/-- The objects that a record, a message or a counted event changes by itself: the heads and losses of the event rings (R62), the
messages of each vector (R117), hits and misses of the translation cache and the requests outstanding (R107, R123), and the values of the
performance counters (R474). -/
def recordKey (k : Nat) : Bool :=
  let i := k / 256
  let sub := k % 256
  k == O.atsHits || k == O.atsMisses || k == O.outstandingNp
    || (0x1200 ≤ i && i < 0x1300 && (sub == 3 || sub == 6))
    || (0x3200 ≤ i && i < 0x3240 && sub == 3)
    || (0xB010 ≤ i && i < 0xB070 && sub == 7)

/-- The objects that an access changes by itself, beside any effect of its command: those of a record, and the status objects of the
window (R35) and of the mailbox (R37). -/
def reportKey (k : Nat) : Bool := recordKey k || k / 256 == 0x3010 || k == O.mbxState || k == O.mbxStatus

/-- Indices at which a write of a legal value to an RW or RWS object stores it and does nothing more, and a read returns what is stored: the
others compute their values, are refused in some states, or act. -/
def plainIndex (i : Nat) : Bool :=
  !((0x1200 ≤ i && i < 0x1300) || i == 0x2100 || (0x3000 ≤ i && i < 0x3240)
    || (0x4000 ≤ i && i < 0x4420) || (0x4800 ≤ i && i < 0x48A0) || (0x50A0 ≤ i && i < 0x50BC) || (0x6060 ≤ i && i < 0x6070)
    || (0x6810 ≤ i && i < 0x6860) || (0x7000 ≤ i && i < 0x7300) || 0x8000 ≤ i)

/-- The command runs to a next state, and that state has the property. -/
def Completes (c : Instr) (s : State) (P : State → Prop) : Prop := ∃ t, exec c s = .next t ∧ P t

/-- `t` is `s` but for objects in `K`, the event rings, their translations and vectors, what was sent, free values, what the window and
the mailbox have in hand, and the failed replays of a control channel that has carried an access or a record since: every object outside `K` reads as before, and the state beside the objects is as before. -/
structure Changes (K : Nat → Bool) (s t : State) : Prop where
  rd   : ∀ k, K k = false → t.rd k = s.rd k
  host : t.host = { s.host with
    rings := t.host.rings, vectors := t.host.vectors, limits := t.host.limits, late := t.host.late, reads := t.host.reads
    cache := t.host.cache }
  svc  : t.svc = { s.svc with eventSeq := t.svc.eventSeq, mbx := t.svc.mbx, stage := t.svc.stage, capture := t.svc.capture }
  pending : t.pending = s.pending
  ticks : t.ticks = s.ticks
  draws : t.draws = s.draws
  mcState : t.mcState = s.mcState
  failReason : t.failReason = s.failReason
  fns : t.fns = s.fns
  ev : ∀ n, t.chan n = s.chan n ∨ (16 ≤ n ∧ t.chan n = { s.chan n with failedReplays := 0 })
  pwr : t.pwr = s.pwr
  line : t.line = s.line
  otn : t.otn = s.otn
  pk : t.pk = s.pk
  fwd : t.fwd = s.fwd
  asc : t.asc = s.asc
  perf : t.perf = s.perf
  prot : t.prot = s.prot
  buf : t.buf = s.buf
  bpm : t.bpm = s.bpm
  lt : t.lt = s.lt
  swc : t.swc = s.swc
  sched : t.sched = s.sched
  pol : t.pol = s.pol
  fab : t.fab = s.fab
  hbm : t.hbm = s.hbm
  qdr : t.qdr = s.qdr
  tap : t.tap = s.tap
  fw : t.fw = s.fw

/-- Only reports: what every access may change beside its effect. -/
abbrev Reports : State → State → Prop := Changes reportKey

/-- Only the objects of `ks` and the reports change. -/
abbrev Only (ks : List Nat) : State → State → Prop := Changes fun k => reportKey k || ks.contains k

/-- Of all objects, only those of `ks` and the reports change: what holds of a command that also changes the state beside the objects. -/
def OnlyObjects (ks : List Nat) (s t : State) : Prop := ∀ k, reportKey k = false → k ∉ ks → t.rd k = s.rd k

/-- The newest thing the block sent or answered is the end of an access: its path, object and status. -/
def State.ended (t : State) (p : Path) (k : Nat) (st : Status) : Prop := t.out.head? = some (.access p k st)

/-- The command is accepted: it runs to a next state that has the property, and its access ends with OK. -/
def Accepts (c : Instr) (p : Path) (k : Nat) (s : State) (P : State → Prop) : Prop := Completes c s fun t => P t ∧ t.ended p k .ok

/-- The command is refused: its access ends with the status and changes nothing but the reports. -/
def Refuses (c : Instr) (p : Path) (k : Nat) (s : State) (st : Status) : Prop := Completes c s fun t => Reports s t ∧ t.ended p k st

/-- Can the START in progress reach RUNNING: R84 for CLK, R242 for ENG, R436 for HBM, R447 for QDR, and always for the others. -/
def State.startCanEnd (s : State) (f : Fn) (report : List Nat) : Prop :=
  match f with
  | .clk => s.rd O.phyPllEnable &&& s.rd O.phyPllLock = s.rd O.phyPllEnable
  | .eng => s.engBoot ≠ 0xFF ∧ s.verifyError 2 false (s.slotImage (slotIndex 2 s.engBoot)) = 0 ∧ report.eraseDups.length ≤ 1
  | .hbm => s.hbmOutcome = some .ok
  | .qdr => s.qdrBadEye report = none
  | _ => True

end Sys2Proof.Machine
end

