-- ==== Sys2Proof/Certificates/Slice0/Obligations.lean ====
section
/-!
DEFINITION. The statements for the provers. Each docstring names the rules of spec/ that it formalises, and at its end the entries of the
assumption log (notes/assumptions) on which clauses of it rest: those clauses are the model's choice or reading, not the spec's words.
-/

open Sys2Proof Sys2Proof.Machine

/-- R29, R33, R37, R40, R43: a whole write of a plain RW object stores the value and changes no other object, by every path; the ranges of a long object
are staged until its last byte commits them. R34: the lower half of an object of more than 4 bytes is staged by itself and changes no object, and
the upper half that follows commits both. Clauses rest on log entries 18, 22, 75. -/
def Obligations.PlainWritesStore : Prop :=
  ∀ (s : State) (index sub : Nat) (r : Row), let k := objKey index sub
    rowOf k = some r → r.acc = .rw → r.ty ≠ .cmd → plainIndex (k / 256) = true →
    (∀ (p : Path) (data : List Byte), p ≠ .window → s.gate p k = .pass → r.ty.octetsLen = none ∨ r.ty.size ≤ 8 →
      0 < data.length → data.length = r.ty.size → r.ty.holdsValue (leNat data) = true → r.chk.ok (leNat data) = true →
      Accepts (.objectWrite p index sub 0 data) p k s fun t => t.rd k = leNat data ∧ Only [k] s t) ∧
    (∀ (p : Path) (n : Nat) (old data : List Byte), p ≠ .window → s.gate p k = .pass → r.ty.octetsLen = some n → 8 < n →
      0 < data.length → (old = [] ∨ mfind s.svc.staging k = some old) →
      (old.length + data.length = n → r.chk.ok (leNat (old ++ data)) = true →
        Accepts (.objectWrite p index sub old.length data) p k s fun t =>
          t.rd k = leNat (old ++ data) ∧ mfind t.svc.staging k = none ∧ OnlyObjects [k] s t) ∧
      (old.length + data.length < n →
        Accepts (.objectWrite p index sub old.length data) p k s fun t =>
          mfind t.svc.staging k = some (old ++ data) ∧ OnlyObjects [] s t)) ∧
    (∀ data : List Byte, s.gate .window k = .pass → r.ty.size ≤ 8 → data.length = 8 ∨ (data.length = 4 ∧ r.ty.size ≤ 4) →
      r.ty.holdsValue (leNat data) = true → r.chk.ok (leNat data) = true →
      Accepts (.objectWrite .window index sub 0 data) .window k s fun t => t.rd k = leNat data ∧ Only [k] s t) ∧
    (∀ half : BitVec 32, s.gate .window k = .pass → 4 < r.ty.size → r.ty.size ≤ 8 → s.svc.stage = none →
      Completes (.windowHalfWrite false index sub half) s fun t =>
        t.svc.stage = some (k, half.toNat) ∧ ∀ j, t.rd j = s.rd j) ∧
    (∀ (low half : BitVec 32), s.gate .window k = .pass → r.ty.size = 8 → s.svc.stage = some (k, low.toNat) →
      r.ty.holdsValue (low.toNat + 2 ^ 32 * half.toNat) = true → r.chk.ok (low.toNat + 2 ^ 32 * half.toNat) = true →
      Accepts (.windowHalfWrite true index sub half) .window k s fun t =>
        t.rd k = low.toNat + 2 ^ 32 * half.toNat ∧ t.svc.stage = none ∧ Only [k] s t)

/-- R29, R37, R43: a whole read of a readable object ends with OK, and an RC object of a plain index restarts then: at zero, but REORDER_PEAK,
RESEQ_PEAK and THREADS_BUSY_PEAK at the value now. R34: a read of the lower half of an object of more than 4 bytes captures the whole value, and the
upper half is answered from the capture. Clauses rest on log entries 20, 22. -/
def Obligations.ReadsAnswer : Prop :=
  ∀ (s : State) (index sub : Nat) (r : Row), rowOf (objKey index sub) = some r → r.acc ≠ .wo → 0 < r.ty.size →
    (∀ p : Path, p ≠ .window → s.gate p (objKey index sub) = .pass →
      Completes (.rcRead p index sub) s fun t =>
        t.ended p (objKey index sub) .ok ∧
        (r.acc = .rc → plainIndex (objKey index sub / 256) = true →
          t.rd (objKey index sub) = s.restartsAt (objKey index sub) ∧
          ((∀ c < 48, objKey index sub ≠ O.threadsBusyPeak c) → (∀ c < 8, objKey index sub ≠ O.reorderPeak c) →
            (∀ c < 16, objKey index sub ≠ O.reseqPeak c) → t.rd (objKey index sub) = 0))) ∧
    (s.gate .kdp (objKey index sub) = .pass → plainIndex (objKey index sub / 256) = true → r.acc = .rc →
      Completes (.rcRead .kdp index sub) s fun t =>
        t.out.take 2 = [.access .kdp (objKey index sub) .ok,
          .dataOut .kdp (objKey index sub) (leBytes r.ty.size (s.rd (objKey index sub)))]) ∧
    (s.gate .window (objKey index sub) = .pass → 4 < r.ty.size → r.ty.size ≤ 8 → s.svc.capture = none →
      Completes (.windowHalfRead false index sub) s fun t =>
        let bytes := fit (s.dropHalves.readBytes (objKey index sub) 0 r.ty.size).2.2 8
        t.svc.capture = some (objKey index sub, leNat bytes) ∧
        t.out.head? = some (.readDone (objKey index sub) .ok (slice bytes 0 4))) ∧
    (∀ v : Nat, s.gate .window (objKey index sub) = .pass → s.svc.capture = some (objKey index sub, v) →
      Completes (.windowHalfRead true index sub) s fun t =>
        t.svc.capture = none ∧
        t.out.head? = some (.readDone (objKey index sub) .ok (slice (leBytes 8 v) 4 4)))

/-- R37 to R40: MBX_CMD takes the access that the mailbox objects describe and makes the mailbox BUSY; the end of the access makes it DONE with the
access's status; a staging copy that times out is gone, and every other copy stays. A mailbox command that itself comes through the mailbox finds it
BUSY, and so does every access that comes through it while another is in progress, which goes on. Clauses rest on log entries 19, 23. -/
def Obligations.MailboxCompletes : Prop :=
  ∀ s : State,
    (∀ (p : Path) (write : Bool), p ≠ .mailbox → s.gate p O.mbxCmd = .pass → s.rd O.mbxState ≠ 1 →
      Completes (if write then .mbxWrite p 0 else .mbxRead p 0) s fun t =>
        t.svc.mbx = some { write := write, object := s.rd O.mbxObject, offset := s.rd O.mbxOffset, length := s.rd O.mbxLength } ∧
        t.rd O.mbxState = 1 ∧ t.ended p O.mbxCmd .ok) ∧
    (∀ write : Bool, s.gate .mailbox O.mbxCmd = .pass →
      Completes (if write then .mbxWrite .mailbox 0 else .mbxRead .mailbox 0) s fun t => t.ended .mailbox O.mbxCmd .busy) ∧
    (∀ (m : MbxReq) (index sub off : Nat) (data : List Byte), s.svc.mbx = some m → s.alive = true → s.mcState ≠ 3 →
      Completes (.objectWrite .mailbox index sub off data) s (fun t =>
        t.svc = s.svc ∧ t.rd O.mbxState = s.rd O.mbxState ∧ Reports s t ∧ t.ended .mailbox (objKey index sub) .busy) ∧
      Completes (.rcRead .mailbox index sub) s (fun t =>
        t.svc = s.svc ∧ t.rd O.mbxState = s.rd O.mbxState ∧ Reports s t ∧ t.ended .mailbox (objKey index sub) .busy)) ∧
    (∀ (m : MbxReq) (r : Row), s.svc.mbx = some m → s.svc.held = [] → s.reach m.object = .pass → rowOf m.object = some r → m.offset = 0 →
      m.length = r.ty.size → 0 < r.ty.size →
      (m.write = false → r.acc ≠ .wo →
        Completes .mailboxAccessEnd s fun t =>
          t.rd O.mbxState = 2 ∧ t.rd O.mbxStatus = Status.ok.code ∧ t.svc.mbx = none ∧ t.ended .mailbox m.object .ok) ∧
      (m.write = true → r.acc = .rw → r.ty ≠ .cmd → r.ty.octetsLen = none → plainIndex (m.object / 256) = true →
        r.ty.holdsValue (leNat (s.buffer m.length)) = true → r.chk.ok (leNat (s.buffer m.length)) = true →
        Completes .mailboxAccessEnd s fun t =>
          t.rd m.object = leNat (s.buffer m.length) ∧ t.rd O.mbxState = 2 ∧ t.rd O.mbxStatus = Status.ok.code ∧
          t.svc.mbx = none ∧ t.ended .mailbox m.object .ok)) ∧
    (∀ index sub : Nat,
      Completes (.stagingCopyTimeout index sub) s fun t =>
        mfind t.svc.staging (objKey index sub) = none ∧
        ∀ j, j ≠ objKey index sub → mfind t.svc.staging j = mfind s.svc.staging j)

/-- R41 to R46: a datagram that is well formed, addressed to this device, authentic and acceptable to its request stream joins the queue; one that fails
is counted where R41, R44, R46 and R45 say, and joins nothing. Clauses rest on log entry 24. -/
def Obligations.KdpRequestsAreQueuedOrCounted : Prop :=
  ∀ (s : State) (source port : Nat) (d : List Byte), s.kdpUp = true →
    (kdpChecked d = none →
      Completes (.kdpRequest source port d) s fun t =>
        t.rd O.kdpMalformed = counted .u32 (s.rd O.kdpMalformed) 1 ∧ t.svc.kdpQueue = s.svc.kdpQueue) ∧
    (∀ l, kdpChecked d = some l → targetGood d l = true → s.svc.kdpQueue.length < 32 →
      (s.authentic d l = false →
        Completes (.kdpRequest source port d) s fun t =>
          t.rd O.kdpAuthFails = counted .u32 (s.rd O.kdpAuthFails) 1 ∧ t.svc.kdpQueue = s.svc.kdpQueue) ∧
      (s.authentic d l = true →
        let gen := be d 4 4 / 2 ^ 28
        let seq := be d 4 4 % 2 ^ 28
        (s.kdpAdmit (s.streamFor source gen) gen seq = .take →
          Completes (.kdpRequest source port d) s fun t =>
            t.rd O.kdpRequests = counted (tyOf O.kdpRequests) (s.rd O.kdpRequests) 1 ∧
            t.svc.kdpQueue = s.svc.kdpQueue ++
              [{ source := source, port := port, bytes := d, key := s.signingKey d, again := [] }]) ∧
        (s.kdpAdmit (s.streamFor source gen) gen seq = .refuse →
          Completes (.kdpRequest source port d) s fun t =>
            t.rd O.kdpSeqErrors = counted (tyOf O.kdpSeqErrors) (s.rd O.kdpSeqErrors) 1 ∧
            t.svc.kdpQueue = s.svc.kdpQueue)))

/-- R44, R47, R48: the request at the head of the queue is answered by one datagram of at most 1,452 bytes to its source, and one that only reads
identity objects leaves the rest of the queue; a key written to a slot is held there, and a revoked slot is empty; a key object is not reached
through the window. Clauses rest on log entries 24, 79. -/
def Obligations.KdpAnswersAndKeys : Prop :=
  ∀ s : State,
    (∀ (r : KdpReq) (rest : List KdpReq), s.svc.kdpQueue = r :: rest → s.kdpWaits r = false → s.alive = true → s.mcState = 1 →
      s.svc.mgmtPll = true → s.running .mgmt = true →
      Completes .kdpResponse s fun t =>
        (∃ bytes : List Byte, bytes.length ≤ 1452 ∧
          t.out.take (r.again.length + 1) = ((r.port :: r.again).map fun port => .datagram r.source port bytes).reverse) ∧
        (identityOnly ((kdpChecked r.bytes).getD []) = true → t.svc.kdpQueue = rest)) ∧
    (∀ (p : Path) (slot : Fin 2) (key : List Byte), p ≠ .window → s.gate p (keyObject slot.val) = .pass →
      (key.length = 32 → s.rd O.bootState ≠ 1 → Completes (.kdpKeyWrite p slot key) s fun t =>
        t.kdpKey slot.val = some key ∧ t.kdpKey (1 - slot.val) = s.kdpKey (1 - slot.val) ∧ t.ended p (keyObject slot.val) .ok) ∧
      (key.length = 32 → s.rd O.bootState = 1 → Refuses (.kdpKeyWrite p slot key) p (keyObject slot.val) s .busy) ∧
      (key.length ≠ 32 → Refuses (.kdpKeyWrite p slot key) p (keyObject slot.val) s .range)) ∧
    (∀ (slot : Fin 2) (key : List Byte), s.gate .window (keyObject slot.val) = .pass →
      Refuses (.kdpKeyWrite .window slot key) .window (keyObject slot.val) s .typeMismatch) ∧
    (∀ (p : Path) (arg : BitVec 24), s.gate p O.kdpKeyRevoke = .pass →
      (arg.toNat ≤ 1 → s.rd O.bootState ≠ 1 → Completes (.kdpKeyRevoke p arg) s fun t =>
        t.kdpKey arg.toNat = none ∧ t.kdpKey (1 - arg.toNat) = s.kdpKey (1 - arg.toNat) ∧ t.ended p O.kdpKeyRevoke .ok) ∧
      (arg.toNat ≤ 1 → s.rd O.bootState = 1 → Refuses (.kdpKeyRevoke p arg) p O.kdpKeyRevoke s .busy) ∧
      (1 < arg.toNat → Refuses (.kdpKeyRevoke p arg) p O.kdpKeyRevoke s .range))

/-- R53: HOST refuses every command that arrives through a PCIe path with ACCESS_DENIED, and MGMT every command that arrives through KDP. -/
def Obligations.HostAndMgmtRefuseTheirOwnPaths : Prop :=
  ∀ (s : State) (p : Path),
    (p ≠ .kdp → s.gate p (O.fnCommand Fn.host.code) = .pass →
      Refuses (.enable p .host 0) p (O.fnCommand Fn.host.code) s .accessDenied ∧
      Refuses (.start p .host 0) p (O.fnCommand Fn.host.code) s .accessDenied ∧
      Refuses (.stop p .host 0) p (O.fnCommand Fn.host.code) s .accessDenied ∧
      Refuses (.disable p .host 0) p (O.fnCommand Fn.host.code) s .accessDenied) ∧
    (s.gate .kdp (O.fnCommand Fn.mgmt.code) = .pass →
      Refuses (.enable .kdp .mgmt 0) .kdp (O.fnCommand Fn.mgmt.code) s .accessDenied ∧
      Refuses (.start .kdp .mgmt 0) .kdp (O.fnCommand Fn.mgmt.code) s .accessDenied ∧
      Refuses (.stop .kdp .mgmt 0) .kdp (O.fnCommand Fn.mgmt.code) s .accessDenied ∧
      Refuses (.disable .kdp .mgmt 0) .kdp (O.fnCommand Fn.mgmt.code) s .accessDenied)

/-- R51, R54: what refuses a function command by the function's state or by a transition in progress; a refused command changes nothing. Clauses rest on
log entries 19, 26. -/
def Obligations.FunctionCommandsAreRefusedByState : Prop :=
  ∀ (s : State) (p : Path) (f : Fn), s.gate p (O.fnCommand f.code) = .pass →
    (s.fnRefusal p f CMD_ENABLE = none → s.fnState f = STOPPING →
      Refuses (.enable p f 0) p (O.fnCommand f.code) s .busyStopping) ∧
    (s.fnRefusal p f CMD_START = none →
      (s.fnState f = DISABLED → Refuses (.start p f 0) p (O.fnCommand f.code) s .functionDisabled) ∧
      (s.fnState f = STOPPED → s.startBlocked f = true → Refuses (.start p f 0) p (O.fnCommand f.code) s .functionDisabled) ∧
      (s.fnState f = STOPPING → Refuses (.start p f 0) p (O.fnCommand f.code) s .busyStopping)) ∧
    (s.fnRefusal p f CMD_STOP = none →
      (s.fnState f = DISABLED → Refuses (.stop p f 0) p (O.fnCommand f.code) s .functionDisabled) ∧
      (s.fnState f = STARTING → Refuses (.stop p f 0) p (O.fnCommand f.code) s .busy) ∧
      (s.fnState f = RUNNING → f = .clk → needsClk.any s.active = true → Refuses (.stop p f 0) p (O.fnCommand f.code) s .busy)) ∧
    (s.fnRefusal p f CMD_DISABLE = none →
      (s.fnState f = STARTING ∨ s.fnState f = RUNNING ∨ s.fnState f = STOPPING →
        Refuses (.disable p f 0) p (O.fnCommand f.code) s .notStopped)) ∧
    (s.fnRefusal p f CMD_STOP ≠ some .accessDenied → ((s.fn f).enabling = true ∨ (s.fn f).disabling = true) →
      Refuses (.enable p f 0) p (O.fnCommand f.code) s .busy ∧ Refuses (.start p f 0) p (O.fnCommand f.code) s .busy ∧
      Refuses (.stop p f 0) p (O.fnCommand f.code) s .busy ∧ Refuses (.disable p f 0) p (O.fnCommand f.code) s .busy)

/-- R51, R52, R57, R62: an accepted function command starts its transition: ENABLE and DISABLE leave the state reading its starting value, START reads
STARTING, STOP reads STOPPING bounded by the STOP_TIMEOUT in force. An event ring that is enabled starts afresh. Clauses rest on log entry 26. -/
def Obligations.FunctionCommandsStartTransitions : Prop :=
  ∀ (s : State) (p : Path),
    (∀ f : Fn, s.gate p (O.fnCommand f.code) = .pass →
      (s.fnRefusal p f CMD_ENABLE = none → s.fnState f = DISABLED → s.domainHeld f = false →
        Accepts (.enable p f 0) p (O.fnCommand f.code) s fun t =>
          (t.fn f).enabling = true ∧ (∀ g, g ≠ f → t.fn g = s.fn g) ∧ OnlyObjects [] s t) ∧
      (s.fnRefusal p f CMD_START = none → s.fnState f = STOPPED → s.startBlocked f = false →
        Accepts (.start p f 0) p (O.fnCommand f.code) s fun t =>
          t.fnState f = STARTING ∧ (∀ g, g ≠ f → t.fnState g = s.fnState g) ∧
          ((s.setFn f STARTING).startChecks f = (s.setFn f STARTING, none) →
            (t.fn f).verdict = none ∧ OnlyObjects [O.state f] s t)) ∧
      (s.fnRefusal p f CMD_STOP = none → s.fnState f = RUNNING → (f ≠ .clk ∨ needsClk.any s.active = false) →
        Accepts (.stop p f 0) p (O.fnCommand f.code) s fun t =>
          t.fnState f = STOPPING ∧ (t.fn f).stopBound = s.rd (O.stopTimeout f.code) ∧
          ∀ g, g ≠ f → t.fnState g = s.fnState g) ∧
      (s.fnRefusal p f CMD_DISABLE = none → s.fnState f = STOPPED →
        Accepts (.disable p f 0) p (O.fnCommand f.code) s fun t =>
          (t.fn f).disabling = true ∧ (∀ g, g ≠ f → t.fn g = s.fn g) ∧ OnlyObjects [] s t)) ∧
    (∀ ring : Fin 11, s.gate p (O.ringEnable ring.val) = .pass → s.rd (O.ringEnable ring.val) = 0 →
      Accepts (.ringEnable p ring) p (O.ringEnable ring.val) s fun t =>
        t.rd (O.ringEnable ring.val) = 1 ∧ t.rd (O.ringTail ring.val) = 0 ∧
        OnlyObjects [O.ringEnable ring.val, O.ringTail ring.val] s t)

/-- R51, R52, R57, R519: the ends of the transitions: the state that the function then reads, and LAST_STATUS. Clauses rest on log entries 6, 26, 27,
28. -/
def Obligations.FunctionTransitionsEnd : Prop :=
  ∀ (s : State) (f : Fn), s.alive = true →
    ((s.fn f).enabling = true → Completes (.enableDone f) s fun t =>
      t.fnState f = STOPPED ∧ (t.fn f).enabling = false ∧ t.rd (O.lastStatus f.code) = Status.ok.code) ∧
    (∀ report : List Nat, s.fnState f = STARTING →
      (∀ st : Status, (s.fn f).verdict = some st →
        Completes (.startDone f report) s fun t =>
          t.fnState f = STOPPED ∧ t.rd (O.lastStatus f.code) = st.code ∧ OnlyObjects [O.state f, O.lastStatus f.code] s t) ∧
      ((s.fn f).verdict = none → s.startCanEnd f report →
        Completes (.startDone f report) s fun t => t.fnState f = RUNNING ∧ t.rd (O.lastStatus f.code) = Status.ok.code)) ∧
    (s.fnState f = STARTING →
      (∀ st st' : Status, (s.fn f).verdict = some st →
        Completes (.startFailed f st') s fun t =>
          t.fnState f = STOPPED ∧ t.rd (O.lastStatus f.code) = st.code ∧ OnlyObjects [O.state f, O.lastStatus f.code] s t) ∧
      ((s.fn f).verdict = none → f = .clk → s.rd O.phyPllEnable &&& s.rd O.phyPllLock ≠ s.rd O.phyPllEnable →
        Completes (.startFailed f .internal) s fun t =>
          t.fnState f = STOPPED ∧ t.rd (O.lastStatus f.code) = Status.internal.code ∧ t.pwr.plls = s.rd O.phyPllLock)) ∧
    (s.fnState f = STOPPING →
      (s.heldWork f = 0 → Completes (.stopDone f) s fun t =>
        t.fnState f = STOPPED ∧ t.rd (O.lastStatus f.code) = Status.ok.code) ∧
      Completes (.stopTimeout f) s fun t =>
        t.fnState f = STOPPED ∧ t.rd (O.lastStatus f.code) = Status.busy.code ∧
        (f ≠ .parse → f ≠ .eng → f ≠ .qdr → f ≠ .assoc →
          t.rd (O.stopDiscards f.code) = counted (tyOf (O.stopDiscards f.code)) (s.rd (O.stopDiscards f.code)) (s.heldWork f)) ∧
        (f = .assoc →
          t.rd (O.stopDiscards f.code) = counted (tyOf (O.stopDiscards f.code)) (s.rd (O.stopDiscards f.code)) s.assocForced.2)) ∧
    ((s.fn f).disabling = true → Completes (.disableDone f) s fun t =>
      t.fnState f = DISABLED ∧ (t.fn f).disabling = false ∧ t.rd (O.lastStatus f.code) = Status.ok.code)

/-- R11, R12, R518: what flit errors, wire faults, retraining and training do to an Evrad channel: replays are counted; after 16 failed replays, or a
wire without a spare, the channel retrains or is FAILED; retraining and training move the failed wires to spares. Accesses and records that waited
for a control channel then go on, as far as the channels let them (State.letGo). Clauses rest on log entries 6, 37. -/
def Obligations.EvradChannelsRetrainAndFail : Prop :=
  ∀ (s : State) (c : Fin 18) (wire : Nat), let n := c.val
    (s.rd (O.evradState n) = 1 →
      Completes (.evradFlitCrcFail c wire false) s (fun t =>
        t.rd (O.evradReplays n) = counted (tyOf (O.evradReplays n)) (s.rd (O.evradReplays n)) 1 ∧
        (t.chan n).failedReplays = 0 ∧ OnlyObjects [O.evradReplays n] s t) ∧
      ((s.chan n).failedReplays < 15 → Completes (.evradFlitCrcFail c wire true) s fun t =>
        t.rd (O.evradReplays n) = counted (tyOf (O.evradReplays n)) (s.rd (O.evradReplays n)) 1 ∧
        (t.chan n).failedReplays = (s.chan n).failedReplays + 1 ∧ t.rd (O.evradState n) = 1 ∧ OnlyObjects [O.evradReplays n] s t) ∧
      (15 ≤ (s.chan n).failedReplays → s.rd (O.evradSpares n) ≠ 0 → Completes (.evradFlitCrcFail c wire true) s fun t => ∃ u : State, t = u.letGo ∧
        u.rd (O.evradState n) = 2 ∧ (u.chan n).failing = [wire] ∧ (u.chan n).failedReplays = 0 ∧
        ∀ m, m < 18 → m ≠ n → u.rd (O.evradState m) = s.rd (O.evradState m)) ∧
      (15 ≤ (s.chan n).failedReplays → s.rd (O.evradSpares n) = 0 → Completes (.evradFlitCrcFail c wire true) s fun t => ∃ u : State, t = u.letGo ∧
        u.rd (O.evradState n) = 3 ∧ bit (u.rd O.faultSources) 3 = true) ∧
      (s.rd (O.evradSpares n) = 0 → Completes (.evradWireFault c wire) s fun t => ∃ u : State, t = u.letGo ∧
        u.rd (O.evradState n) = 3 ∧ bit (u.rd O.faultSources) 3 = true) ∧
      (s.rd (O.evradSpares n) ≠ 0 → Completes (.evradWireFault c wire) s fun t => t = s)) ∧
    (s.rd (O.evradState n) = 0 ∨ s.rd (O.evradState n) = 2 → Completes (.evradWireFault c wire) s fun t =>
      wire ∈ (t.chan n).failing ∧ (∀ m, m ≠ n → t.chan m = s.chan m) ∧ ∀ k, t.rd k = s.rd k) ∧
    (∀ outage : Nat, s.rd (O.evradState n) = 2 →
      ((s.chan n).failing.length ≤ s.rd (O.evradSpares n) → Completes (.evradRetrainEnd c outage) s fun t => ∃ u : State, t = u.letGo ∧
        u.rd (O.evradState n) = 1 ∧ u.rd (O.evradLastOutage n) = min outage 0xFFFFFFFF ∧
        u.rd (O.evradSpares n) = s.rd (O.evradSpares n) - (s.chan n).failing.length ∧
        u.rd (O.evradRepairs n) = counted (tyOf (O.evradRepairs n)) (s.rd (O.evradRepairs n)) (s.chan n).failing.length ∧
        (u.chan n).failing = [] ∧ (u.chan n).excluded = (s.chan n).excluded ++ (s.chan n).failing) ∧
      (s.rd (O.evradSpares n) < (s.chan n).failing.length → Completes (.evradRetrainEnd c outage) s fun t => ∃ u : State, t = u.letGo ∧
        u.rd (O.evradState n) = 3 ∧ u.rd (O.evradSpares n) = 0)) ∧
    (∀ badWires : List (Fin 18 × Nat), bit s.pwr.released 2 = true → Completes (.evradTrainingEnd badWires) s fun t =>
      let wires := distinct (((badWires.filter fun e => e.1.val == n).map fun e => e.2) ++ (s.chan n).failing)
      (s.rd (O.evradState n) ≠ 0 → t.rd (O.evradState n) = s.rd (O.evradState n)) ∧
      (s.rd (O.evradState n) = 0 → wires.length ≤ s.rd (O.evradSpares n) →
        t.rd (O.evradState n) = 1 ∧ t.rd (O.evradSpares n) = s.rd (O.evradSpares n) - wires.length) ∧
      (s.rd (O.evradState n) = 0 → s.rd (O.evradSpares n) < wires.length → t.rd (O.evradState n) = 3))

/-- R70 to R72, R77, R78: each wake-up step ends with its occurrence and the next one begins; a step that times out sets FAULT_SOURCES [0] and powers
the regulators down in reverse order, and 10.0 ms later the one retry goes on from the step of R72. Clauses rest on log entries 6, 31. -/
def Obligations.WakeUpStepsFollowEachOther : Prop :=
  ∀ s : State,
    (s.pwr.step = 1 → Completes .vinGood s fun t => t.pwr.step = 2 ∧ t.pwr.vinGood = true ∧ t.objs = s.objs) ∧
    (s.pwr.step ≠ 1 → s.pwr.dark = true → s.pwr.vinGood = false → Completes .vinGood s fun t =>
      t.pwr.step = 1 ∧ t.pwr.dark = false ∧ t.objs = s.objs) ∧
    (s.pwr.step ≠ 1 → s.pwr.dark = false → s.pwr.thermalHold = true → s.pwr.vinGood = false → max s.pwr.diodeF s.pwr.diodeT ≤ 12500 →
      Completes .vinGood s fun t => t.pwr.step = 1 ∧ t.pwr.thermalHold = false ∧ bit (t.rd O.faultSources) 4 = false) ∧
    (s.pwr.step = 2 → Completes .aonReady s fun t => t.pwr.step = 3 ∧ t.pwr.aonUp = true ∧ t.objs = s.objs) ∧
    (∀ strap : Bool, s.pwr.step = 3 → Completes (.trimLoadDone strap) s fun t =>
      t.pwr.trimValid = true ∧ t.pwr.mgmtEn = strap ∧ t.objs = s.objs ∧
      (∀ r, (List.range 9).find? (fun n => !bit s.pwr.regsOn n) = some r →
        t.pwr.step = 4 ∧ t.pwr.regulator = r ∧ t.pwr.regsOn = setBit s.pwr.regsOn r true) ∧
      ((List.range 9).find? (fun n => !bit s.pwr.regsOn n) = none → s.pwr.regsFirst = false →
        t.pwr.step = 5 ∧ t.pwr.regsOn = s.pwr.regsOn)) ∧
    (∀ n : Fin 9, s.pwr.step = 4 → s.pwr.regulator = n.val → Completes (.regPowerGood n) s fun t =>
      t.objs = s.objs ∧
      (∀ r, (List.range 9).find? (fun n => !bit s.pwr.regsOn n) = some r →
        t.pwr.step = 4 ∧ t.pwr.regulator = r ∧ t.pwr.regsOn = setBit s.pwr.regsOn r true) ∧
      ((List.range 9).find? (fun n => !bit s.pwr.regsOn n) = none →
        t.pwr.step = (if s.pwr.regsFirst then 3 else 5) ∧ t.pwr.regsOn = s.pwr.regsOn ∧
        (s.pwr.regsFirst = true → t.pwr.trimValid = false))) ∧
    (s.pwr.step = 5 → Completes .refclkPresent s fun t => t.pwr.step = 6 ∧ t.rd O.rootState = 1 ∧ OnlyObjects [O.rootState] s t) ∧
    (s.pwr.step = 6 → Completes .rootLock s fun t => t.pwr.step = 7 ∧ t.rd O.rootState = 2 ∧ OnlyObjects [O.rootState] s t) ∧
    (s.pwr.returning = false → s.pwr.step = 2 →
      Completes (.wakeStepTimeout false) s fun t => t.pwr.dark = true ∧ t.pwr.step = 0 ∧ t.objs = s.objs) ∧
    (∀ (ldoOk : Bool) (code : Nat), s.pwr.returning = false →
      ((s.pwr.step = 2 ∧ ldoOk = true ∧ code = 2) ∨ (s.pwr.step = 3 ∧ code = 3) ∨
        (s.pwr.step = 4 ∧ code = 0x10 + s.pwr.regulator) ∨ (s.pwr.step = 5 ∧ code = 5) ∨ (s.pwr.step = 6 ∧ code = 6)) →
      Completes (.wakeStepTimeout ldoOk) s fun t =>
        t.pwr.step = 0 ∧ bit (t.rd O.faultSources) 0 = true ∧
        (∀ n, s.highestOn = some n → t.pwr.down = some n ∧ t.pwr.regsOn = setBit s.pwr.regsOn n false ∧ t.pwr.failCode = some code) ∧
        (s.highestOn = none → t.rd O.wakeFailStep = code ∧
          (s.pwr.retried = false → t.pwr.retryFrom = some (if code = 2 then 2 else 3)) ∧
          (s.pwr.retried = true → t.pwr.latched = some (if code = 2 then 2 else 3)))) ∧
    (s.pwr.down.isSome = true → s.pwr.returning = false → Completes .railOff s fun t =>
      (∀ n, s.highestOn = some n → t.pwr.down = some n ∧ t.pwr.regsOn = setBit s.pwr.regsOn n false ∧ t.objs = s.objs) ∧
      (s.highestOn = none → s.pwr.failCode = none → t.pwr.step = 1 ∧ t.pwr.down = none ∧ t.objs = s.objs) ∧
      (∀ code, s.highestOn = none → s.pwr.failCode = some code →
        t.pwr.down = none ∧ t.rd O.wakeFailStep = code ∧ bit (t.rd O.resetCause) 7 = true ∧
        t.rd O.wakeAttempts = (if s.pwr.retried then 2 else 1) ∧
        (s.pwr.retried = false → t.pwr.retryFrom = some (if code = 2 then 2 else 3)) ∧
        (s.pwr.retried = true → t.pwr.latched = some (if code = 2 then 2 else 3)))) ∧
    (∀ n, s.pwr.retryFrom = some n → n = 2 ∨ n = 3 → s.pwr.returning = false → Completes .wakeRetryTimer s fun t =>
      t.pwr.step = n ∧ t.pwr.retryFrom = none ∧ t.pwr.retried = true ∧ t.objs = s.objs)

/-- R77, R78, R80: the domains are released in order as their monitors report stable; a domain that is not stable in time stays held and sets
FAULT_SOURCES [1]; wake-up ends when every domain is released or held. Clauses rest on log entries 6, 31. -/
def Obligations.DomainsAreReleasedInOrder : Prop :=
  ∀ (s : State) (d : Dom), (s.pwr.step = 7 ∨ s.pwr.step = 8) → let b := domBit d
    (bit (s.rd O.clkUnstable) b = false → Completes (.domainStable d) s fun t =>
      t.rd O.domainStable = setBit (s.rd O.domainStable) b true ∧ Only [O.domainStable] s t) ∧
    (let past := s.pwr.released ||| s.rd O.clkUnstable
     bit (s.rd O.domainStable) b = true → bit past b = false → past / 2 ^ (b + 1) = 0xF / 2 ^ (b + 1) →
      Completes (.domainRelease d) s fun t =>
        t.pwr.released = setBit s.pwr.released b true ∧
        (setBit s.pwr.released b true ||| s.rd O.clkUnstable = 0xF →
          t.pwr.step = 0 ∧ t.pwr.resetting = none ∧ t.rd O.wakeAttempts = (if s.pwr.retried then 2 else 1)) ∧
        (setBit s.pwr.released b true ||| s.rd O.clkUnstable ≠ 0xF → t.pwr.step = 8)) ∧
    (bit (s.rd O.domainStable) b = false → Completes (.clkStableTimeout d) s fun t =>
      t.rd O.clkUnstable = setBit (s.rd O.clkUnstable) b true ∧ bit (t.rd O.faultSources) 1 = true ∧
      t.pwr.released = s.pwr.released ∧
      (s.pwr.released ||| setBit (s.rd O.clkUnstable) b true = 0xF → t.pwr.step = 0 ∧ t.pwr.resetting = none) ∧
      OnlyObjects [O.clkUnstable, O.faultSources, O.wakeAttempts, O.state .host] s t)

/-- R64, R66, R69, R74 to R76, R79, R83: what holds the whole device: a supply fault, the loss of the AON domain, a thermal trip, the reset pins, the
watchdog and the loss of the root clock. Nothing answers after them until the wake-up that follows, or none follows. Clauses rest on log entries 6,
31, 32, 35. -/
def Obligations.FaultsAndPinsResetTheDevice : Prop :=
  ∀ s : State,
    (∀ rail : Fin 10, s.watched rail.val = true →
      (s.heldDown = true → Completes (.supplyFault rail) s fun t =>
        t.rd O.lastSupplyFault = railCode rail.val ∧ bit (t.rd O.resetCause) 1 = true ∧ OnlyObjects [O.lastSupplyFault, O.resetCause] s t) ∧
      (s.heldDown = false → s.pwr.down.isSome = true → s.pwr.failCode = none → Completes (.supplyFault rail) s fun t =>
        t.rd O.lastSupplyFault = railCode rail.val ∧ bit (t.rd O.resetCause) 1 = true ∧ t.pwr.down = s.pwr.down ∧
        OnlyObjects [O.lastSupplyFault, O.resetCause] s t) ∧
      (s.heldDown = false → (s.pwr.down = none ∨ s.pwr.failCode.isSome = true) → Completes (.supplyFault rail) s fun t =>
        t.rd O.lastSupplyFault = railCode rail.val ∧ bit (t.rd O.resetCause) 1 = true ∧ t.pwr.resetting = some .por ∧
        t.alive = false ∧ t.ticks = 0 ∧ t.mcState = 0)) ∧
    (Completes .aonLoss s fun t =>
      t.pwr.step = 1 ∧ t.pwr.aonUp = false ∧ t.alive = false ∧ t.ticks = 0 ∧ t.rd O.rootState = 0 ∧
      ∀ k, k ≠ O.rootState → k ≠ O.domainStable → t.rd k = dfltOf k) ∧
    (∀ diodeF diodeT : Int, s.pwr.dark = false → s.pwr.aonUp = true → s.pwr.thermalHold = false → 15800 ≤ max diodeF diodeT →
      Completes (.thermalTrip diodeF diodeT) s fun t =>
        t.pwr.thermalHold = true ∧ t.pwr.regsOn = 0 ∧ t.pwr.step = 0 ∧ t.alive = false ∧
        bit (t.rd O.resetCause) 6 = true ∧ bit (t.rd O.faultSources) 4 = true) ∧
    (s.pwr.dark = false → s.pwr.down = none →
      (s.pwr.thermalHold = false ∨ max s.pwr.diodeF s.pwr.diodeT ≤ 12500 → Completes .porstN s fun t =>
        t.pwr.resetting = some .por ∧ t.pwr.step = 1 ∧ t.pwr.regsOn = 0 ∧ t.alive = false ∧ t.ticks = 0 ∧ t.tap = {} ∧
        bit (t.rd O.resetCause) 0 = true) ∧
      (s.pwr.thermalHold = true → 12500 < max s.pwr.diodeF s.pwr.diodeT → Completes .porstN s fun t =>
        bit (t.rd O.resetCause) 0 = true ∧ Only [O.resetCause] s t) ∧
      (s.heldDown = false → Completes .srstN s fun t =>
        t.pwr.resetting = some .sys ∧ t.alive = false ∧ t.ticks = s.ticks ∧ t.mcState = 0 ∧ t.tap = s.tap ∧ bit (t.rd O.resetCause) 2 = true) ∧
      (s.heldDown = true → Completes .srstN s fun t => bit (t.rd O.resetCause) 2 = true ∧ Only [O.resetCause] s t) ∧
      (s.heldDown = false → s.alive = true → Completes .mcWdt s fun t =>
        t.pwr.resetting = some .sys ∧ t.alive = false ∧ bit (t.rd O.resetCause) 4 = true ∧
        (s.mcState = 0 → ∀ slot, s.brokenRun.booting = some slot →
          t.watchdogBoots slot = s.brokenRun.watchdogBoots slot + 1))) ∧
    (s.deviceRuns = true → Completes .rootClockLost s fun t =>
      t.alive = false ∧ t.rd O.rootState = 3 ∧ t.rd O.clkUnstable = 0xF ∧ bit (t.rd O.faultSources) 1 = true ∧
      bit (t.rd O.faultSources) 2 = true ∧
      ∀ k, keptBySys k = false → k ≠ O.rootState → k ≠ O.clkUnstable → t.rd k = dfltOf k)

/-- R74, R75, R78, R81: the reset commands. Through KDP and the mailbox the reset waits for its answer; through the window it starts at once. A CORE
reset holds XCLK, PIPE and ENG and leaves PCLK, and ends with the release of the domains that are not held; HOST, where P2 had taken it down,
returns then. Clauses rest on log entries 6, 17, 35. -/
def Obligations.CommandedResets : Prop :=
  ∀ (s : State) (p : Path),
    (s.gate p O.sysReset = .pass →
      (∀ arg, arg ≠ 0x5359#24 → Refuses (.sysReset p arg) p O.sysReset s .range) ∧
      (p ≠ .window → Accepts (.sysReset p 0x5359) p O.sysReset s fun t =>
        t.svc.reset = laterReset s.svc.reset .sys ∧ t.pwr = s.pwr ∧ OnlyObjects [] s t) ∧
      (p = .window → s.heldDown = false → s.pwr.down = none → Completes (.sysReset p 0x5359) s fun t =>
        t.pwr.resetting = some .sys ∧ t.alive = false ∧ bit (t.rd O.resetCause) 3 = true)) ∧
    (s.gate p O.coreReset = .pass →
      (∀ arg, arg ≠ 0x434F#24 → Refuses (.coreReset p arg) p O.coreReset s .range) ∧
      (p ≠ .window → Accepts (.coreReset p 0x434F) p O.coreReset s fun t =>
        t.svc.reset = laterReset s.svc.reset .core ∧ t.pwr = s.pwr ∧ OnlyObjects [] s t) ∧
      (p = .window → s.heldDown = false → s.pwr.resetting = none → Completes (.coreReset p 0x434F) s fun t =>
        t.pwr.resetting = some .core ∧ t.pwr.released = s.pwr.released &&& 8 ∧ bit (t.rd O.resetCause) 5 = true)) ∧
    (s.alive = true → s.pwr.resetting = none → s.pwr.down = none →
      (s.svc.reset = some .sys → s.heldDown = false → Completes .commandedResetStart s fun t =>
        t.pwr.resetting = some .sys ∧ t.alive = false ∧ t.svc.reset = none ∧ bit (t.rd O.resetCause) 3 = true) ∧
      (∀ l, s.svc.reset = some l → s.heldDown = true → Completes .commandedResetStart s fun t => t = s.withReset none) ∧
      (s.svc.reset = some .core → s.heldDown = false → Completes .commandedResetStart s fun t =>
        t.pwr.resetting = some .core ∧ t.pwr.released = s.pwr.released &&& 8 ∧ t.svc.reset = none ∧ t.mcState = s.mcState ∧
        bit (t.rd O.resetCause) 5 = true)) ∧
    (s.pwr.resetting = some .core → Completes .coreResetRelease s fun t =>
      t.pwr.resetting = none ∧ t.pwr.released = 0xF ^^^ s.rd O.clkUnstable % 16 ∧ t.pwr.hostDue = false ∧
      (s.pwr.hostDue = false → t.objs = s.objs) ∧
      (s.pwr.hostDue = true → t.fnState .host = s.pwr.hostState ∧ OnlyObjects [O.state .host] s t))

/-- R66, R67, R82, R84, R87: samples of temperature and supply are held in their objects, excursions are warned and counted, the body bias moves by at
most 10 mV, and the clock monitors and PHY PLLs report. Clauses rest on log entries 6, 33, 78. -/
def Obligations.SamplesAndMonitorsReport : Prop :=
  ∀ s : State,
    (∀ tjF tjT meanF meanT diodeF diodeT : Int, s.alive = true → s.rd O.pstate ≠ 2 →
      Completes (.thermalSample tjF tjT meanF meanT diodeF diodeT) s fun t =>
        t.rd O.tjF = ofS32 tjF ∧ t.rd O.tjT = ofS32 tjT ∧ t.rd O.tjFMean = ofS32 meanF ∧ t.rd O.tjTMean = ofS32 meanT ∧
        t.pwr.diodeF = diodeF ∧ t.pwr.diodeT = diodeT ∧
        (bit s.pwr.crossed 2 = false → s.rdS O.tjCrit ≤ tjF → bit (t.rd O.thermalFlags) 2 = true)) ∧
    (∀ (vinMv powerDw : Nat) (railMv railMa : List Nat), s.alive = true →
      Completes (.supplySample vinMv powerDw railMv railMa) s fun t =>
        t.rd O.vin12Mv = min vinMv 0xFFFF ∧ t.rd O.inputPower = min powerDw 0xFFFF ∧
        t.rd O.inputPowerPeak = max (s.rd O.inputPowerPeak) (min powerDw 0xFFFF) ∧
        (∀ n, n < 9 → t.rd (O.railMv n) = (if bit s.pwr.regsOn n then min (railMv.getD n 0) 0xFFFF else 0)) ∧
        Only ([O.vin12Mv, O.inputPower, O.inputPowerPeak] ++ (List.range 9).map O.railMv ++ (List.range 9).map O.railMa) s t) ∧
    (s.alive = true → s.rd O.pstate = 0 → Completes .biasUpdate s fun t =>
      t.rd O.biasFMv = ofS32 (biasStep (s.rdS O.biasFMv) (biasTarget (s.rdS O.tjFMean))) ∧
      t.rd O.biasTMv = ofS32 (biasStep (s.rdS O.biasTMv) (biasTarget (s.rdS O.tjTMean))) ∧ Only [O.biasFMv, O.biasTMv] s t) ∧
    (∀ rail : Fin 10, s.watched rail.val = true → bit s.pwr.excursion rail.val = false →
      Completes (.railExcursionStart rail) s fun t =>
        t.pwr.excursion = setBit s.pwr.excursion rail.val true ∧
        t.rd O.supplyFlags = setBit (s.rd O.supplyFlags) rail.val true ∧
        (rail.val < 9 → t.rd (O.railWarnings rail.val) = counted (tyOf (O.railWarnings rail.val)) (s.rd (O.railWarnings rail.val)) 1) ∧
        OnlyObjects [O.supplyFlags, O.railWarnings rail.val] s t) ∧
    (∀ (rail : Fin 10) (extreme duration : Nat), bit s.pwr.excursion rail.val = true →
      Completes (.railExcursionEnd rail extreme duration) s fun t =>
        t.pwr.excursion = setBit s.pwr.excursion rail.val false ∧ OnlyObjects [] s t) ∧
    (∀ d : Dom, s.alive = true → bit s.pwr.released (domBit d) = true → Completes (.monExcursion d) s fun t =>
      t.rd O.monExcursions = counted (tyOf O.monExcursions) (s.rd O.monExcursions) 1 ∧ Only [O.monExcursions] s t) ∧
    (∀ n : Fin 24,
      (bit s.pwr.plls n.val = true → Completes (.phyPllLocked n) s fun t =>
        t.rd O.phyPllLock = setBit (s.rd O.phyPllLock) n.val true ∧ Only [O.phyPllLock] s t) ∧
      (bit (s.rd O.phyPllLock) n.val = true → Completes (.phyPllUnlock n) s fun t =>
        t.rd O.phyPllLock = setBit (s.rd O.phyPllLock) n.val false ∧
        (s.running .clk = true → t.rd O.phyPllUnlocks = counted (tyOf O.phyPllUnlocks) (s.rd O.phyPllUnlocks) 1) ∧
        Only [O.phyPllLock, O.phyPllUnlocks] s t))

/-- R86, R88, R92, R94, R95: PSTATE_CMD starts a transition when the functions allow it, and the end of the transition gives the new power state; P2
keeps PCLK and the VIO rail alone. A return from P2 brings up its regulators, lowest first, and HOST returns to the state in which P2 found it.
Clauses rest on log entries 6, 34. -/
def Obligations.PowerStatesChange : Prop :=
  ∀ (s : State) (p : Path), s.pwr.returnFailed = false →
    (s.gate p O.pstateCmd = .pass →
      (s.rd O.pstate = 0 → s.stoppedBut p1Free = true → Accepts (.pstateToP1 p 1) p O.pstateCmd s fun t =>
        t.rd O.pstate = 0x0F ∧ t.pwr.trans = some ⟨0, 1⟩ ∧ OnlyObjects [O.pstate] s t) ∧
      (s.rd O.pstate = 0 → s.stoppedBut p2Free = true → Accepts (.pstateToP2 p 2) p O.pstateCmd s fun t =>
        t.rd O.pstate = 0x0F ∧ t.pwr.trans = some ⟨0, 2⟩) ∧
      (s.rd O.pstate = 1 → Accepts (.pstateToP0 p 0) p O.pstateCmd s fun t =>
        t.rd O.pstate = 0x0F ∧ t.pwr.trans = some ⟨1, 0⟩ ∧ OnlyObjects [O.pstate] s t) ∧
      (s.rd O.pstate = 2 → Accepts (.pstateToP0 p 0) p O.pstateCmd s fun t =>
        t.rd O.pstate = 0x0F ∧ t.pwr.trans = some ⟨2, 0⟩ ∧ t.pwr.returning = true ∧
        ∀ r, (List.range 9).find? (fun n => !bit s.pwr.regsOn n) = some r →
          t.pwr.regulator = r ∧ t.pwr.regsOn = setBit s.pwr.regsOn r true) ∧
      (s.rd O.pstate = 0x0F → Refuses (.pstateToP0 p 0) p O.pstateCmd s .busy ∧ Refuses (.pstateToP1 p 1) p O.pstateCmd s .busy ∧
        Refuses (.pstateToP2 p 2) p O.pstateCmd s .busy) ∧
      (s.rd O.pstate = 0 → s.stoppedBut p1Free = false → Refuses (.pstateToP1 p 1) p O.pstateCmd s .notStopped) ∧
      (s.rd O.pstate = 0 → s.stoppedBut p2Free = false → Refuses (.pstateToP2 p 2) p O.pstateCmd s .notStopped)) ∧
    (s.pwr.trans = some ⟨0, 1⟩ → Completes .pstateTransitionEnd s fun t =>
      t.rd O.pstate = 1 ∧ t.rd O.pstateStatus = Status.ok.code ∧ t.rd O.biasFMv = 0 ∧ t.rd O.biasTMv = 0 ∧ t.pwr.trans = none) ∧
    (s.pwr.trans = some ⟨1, 0⟩ → Completes .pstateTransitionEnd s fun t =>
      t.rd O.pstate = 0 ∧ t.rd O.pstateStatus = Status.ok.code ∧ t.rd O.sramAssist = 1 ∧ t.pwr.trans = none) ∧
    (s.pwr.trans = some ⟨0, 2⟩ → Completes .pstateTransitionEnd s fun t =>
      t.rd O.pstate = 2 ∧ t.rd O.pstateStatus = Status.ok.code ∧ t.pwr.trans = none ∧ t.pwr.released = 8 ∧ t.pwr.regsOn = 0x10 ∧
      t.fnState .host = DISABLED ∧ t.rd O.clkUnstable = s.rd O.clkUnstable ∧
      (s.fnState .host ≠ STARTING → s.fnState .host ≠ STOPPING → t.pwr.hostState = s.fnState .host) ∧ t.ev = [] ∧ t.pwr.store = some (s.objs.filter fun e => savedKey e.1)) ∧
    (s.pwr.trans = some ⟨2, 0⟩ → s.returned = true → Completes .pstateTransitionEnd s fun t =>
      t.rd O.pstate = 0 ∧ t.rd O.pstateStatus = Status.ok.code ∧ t.pwr.trans = none ∧ t.pwr.returning = false ∧ t.pwr.store = none ∧
      t.fnState .host = s.pwr.hostState)

/-- R68, R72, R95, R97, R504, R506: writes over the SMBus are acknowledged with their effect, or not acknowledged and without effect; reads give the
registers of R97, no other code is acknowledged, and the Alert Response Address answers while ALERT_N is asserted. The TAP captures the same
registers in its instrument, and IDCODE and BYPASS as R506 gives them. Clauses rest on log entry 36. -/
def Obligations.SmbusWrites : Prop :=
  ∀ s : State, s.smbusUp = true →
    (∀ word : BitVec 16,
      (Completes (.smbusResetCauseWrite ⟨word, true⟩) s fun t =>
        t.rd O.resetCause = clearBits (s.rd O.resetCause) word.toNat ∧ t.out.head? = some (.smbus true) ∧ Only [O.resetCause] s t) ∧
      Completes (.smbusResetCauseWrite ⟨word, false⟩) s fun t => t = s.emit (.smbus false)) ∧
    (s.smbusRead 0x01 = some (leBytes 2 (s.rd O.resetCause)) ∧ s.smbusRead 0x07 = some (leBytes 1 (s.rd O.pstate)) ∧
      s.smbusRead 0x08 = some (leBytes 1 (s.rd O.faultSources)) ∧ (∀ code, code = 0 ∨ 8 < code → s.smbusRead code = none) ∧
      (s.alertResponse = some 0x4A ↔ s.rd O.thermalFlags ≠ 0 ∨ s.rd O.supplyFlags ≠ 0)) ∧
    (∀ tms tdi : Bool,
      (s.tap.ctl = .captureDr → s.tap.instr = .instrument → (s.tckRise tms tdi).tap.dr = s.instrument) ∧
      (s.tap.ctl = .captureDr → s.tap.instr = .idcode → ∃ n : Nat, (s.tckRise tms tdi).tap.dr = bitsOf (leBytes 4 n) ∧
        n % 2 = 1 ∧ n / 2 ^ 12 % 2 ^ 16 = 0x9A20 ∧ n / 2 ^ 28 = s.rd O.siliconRev / 16 % 16) ∧
      (∀ b : Bool, s.tap.ctl = .shiftDr → s.tap.instr = .bypass → s.tap.dr = [b] →
        s.tap.tdo = some b ∧ (s.tckRise tms tdi).tap.dr = [tdi])) ∧
    (∀ (data : Byte) (pecGood : Bool),
      (pecGood = false ∨ data ≠ 0xA5 ∨ s.retryApplies = false → Completes (.wakeRetry data pecGood) s fun t =>
        t = s.emit (.smbus false)) ∧
      (pecGood = false ∨ data ≠ 0x5A ∨ s.heldDown = true → Completes (.smbusSysReset data pecGood) s fun t =>
        t = s.emit (.smbus false)) ∧
      (pecGood = false ∨ data ≠ 0xC3 ∨ s.alive = false ∨ s.rd O.pstate ≠ 2 ∨ s.pwr.returnFailed = true →
        Completes (.p2Exit data pecGood) s fun t => t = s.emit (.smbus false))) ∧
    (∀ n, s.pwr.latched = some n → n = 2 ∨ n = 3 → s.pwr.returnFailed = false → Completes (.wakeRetry 0xA5 true) s fun t =>
      t.pwr.step = n ∧ t.pwr.latched = none ∧ t.out.head? = some (.smbus true)) ∧
    (s.pwr.latched = none → s.pwr.thermalHold = true → max s.pwr.diodeF s.pwr.diodeT ≤ 12500 →
      Completes (.wakeRetry 0xA5 true) s fun t =>
        t.pwr.step = 1 ∧ t.pwr.thermalHold = false ∧ bit (t.rd O.faultSources) 4 = false ∧ t.out.head? = some (.smbus true)) ∧
    (s.heldDown = false → s.pwr.down = none → Completes (.smbusSysReset 0x5A true) s fun t =>
      t.pwr.resetting = some .sys ∧ t.alive = false ∧ bit (t.rd O.resetCause) 3 = true ∧ t.out.head? = some (.smbus true)) ∧
    (s.alive = true → s.rd O.pstate = 2 → s.pwr.returnFailed = false → Completes (.p2Exit 0xC3 true) s fun t =>
      t.rd O.pstate = 0x0F ∧ t.pwr.trans = some ⟨2, 0⟩ ∧ t.pwr.returning = true ∧ t.out.head? = some (.smbus true)) ∧
    (Completes .smbusTimeout s fun t => t = s)

/-- R99, R100, R132, R515: the PLL of the host link locks and link training starts; the link trains at a speed up to TARGET_SPEED, for the first time or
anew; a link-down or the loss of the PLL frees every tag, halts every running ring and empties the translation cache. The PLL of the management port
decides whether KDP answers. Clauses rest on log entries 6, 38. -/
def Obligations.HostLinkTrainsAndFalls : Prop :=
  ∀ s : State,
    (s.rd O.pciePllLock ≠ 1 → s.hostPowered = true → Completes .pciePllLocked s fun t =>
      t.rd O.pciePllLock = 1 ∧ t.rd O.pcieLinkState = 1 ∧ Only [O.pciePllLock, O.pcieLinkState] s t) ∧
    (s.rd O.pciePllLock = 1 ∨ s.hostPowered = false → Completes .pciePllLocked s fun t => t = s) ∧
    (∀ (speed : Fin 7) (width : Nat) (flit : Bool),
      (s.rd O.pciePllLock = 1 → s.linkFits speed.val width flit = true → Completes (.pcieLinkUp speed width flit) s fun t =>
        t.rd O.pcieLinkState = 2 ∧ t.rd O.linkSpeed = speed.val ∧ t.rd O.linkWidth = width ∧ t.rd O.flitMode = b2n flit ∧
        OnlyObjects [O.pcieLinkState, O.linkSpeed, O.linkWidth, O.flitMode] s t) ∧
      (s.rd O.pciePllLock ≠ 1 ∨ s.rd O.targetSpeed < speed.val ∨ width ∉ [1, 2, 4, 8] → Completes (.pcieLinkUp speed width flit) s fun t =>
        t = s)) ∧
    (s.rd O.pcieLinkState = 2 → Completes .linkDown s fun t =>
      t.rd O.pcieLinkState = 0 ∧ t.rd O.linkSpeed = 0 ∧ t.rd O.linkWidth = 0 ∧ t.rd O.flitMode = 0 ∧
      t.rd O.pcieLinkDowns = counted (tyOf O.pcieLinkDowns) (s.rd O.pcieLinkDowns) 1 ∧
      t.host.reads = [] ∧ t.host.quarantine = [] ∧ t.host.cache = [] ∧ t.rd O.quarantinedTags = 0 ∧ t.rd O.outstandingNp = 0 ∧
      ∀ n, n < 48 → s.host.bme = true → s.live n = true →
        t.rd (O.dringState n) = RING_HALTED ∧ t.rd (O.dringHaltCause n) = 0x0B ∧ t.rd (O.dringHead n) = s.rd (O.dringHead n) ∧
        t.rd (O.dringAborted n) = counted (tyOf (O.dringAborted n)) (s.rd (O.dringAborted n)) (unaffected (s.dring n).flight)) ∧
    (s.rd O.pcieLinkState ≠ 2 → Completes .linkDown s fun t => t.rd O.pcieLinkState = 0 ∧ Only [O.pcieLinkState] s t) ∧
    (s.rd O.pciePllLock = 1 → Completes .pciePllUnlock s fun t => t.rd O.pciePllLock = 0 ∧ t.rd O.pcieLinkState = 0) ∧
    (s.rd O.pciePllLock ≠ 1 → Completes .pciePllUnlock s fun t => t = s) ∧
    (Completes .mgmtPllUnlock s fun t => t.mgmtUp = false ∧ t.objs = s.objs) ∧
    (s.alive = true → Completes .mgmtPllLocked s fun t => t.svc.mgmtPll = true ∧ t.mgmtUp = s.running .mgmt ∧ t.objs = s.objs) ∧
    (s.alive = false → Completes .mgmtPllLocked s fun t => t = s)

/-- R101, R102, R103, R104, R105, R106, R111, R123, R125, R127, R128, R129: configuration space and the base address registers read as their tables
give; configuration writes, which a Function Level Reset answers with Request Retry Status, and resets of the endpoint, requests it does not
support, the description table over Data Object Exchange, and ASPM L1. Clauses rest on log entries 6, 38, 40. -/
def Obligations.EndpointControls : Prop :=
  ∀ s : State,
    (s.host.flr = false → s.host.bme = true → Completes .bmeClear s fun t => t.host.bme = false ∧
      (∀ e ∈ t.host.reads, e.2.orphan = true) ∧ (∀ r, r < 16 → (t.ring r).waiting = []) ∧
      ∀ n, n < 48 → s.live n = true → t.rd (O.dringState n) = RING_HALTED ∧ t.rd (O.dringHaltCause n) = 2 ∧
        t.rd (O.dringHead n) = s.rd (O.dringHead n)) ∧
    (s.host.flr = false → s.host.bme = false → Completes .bmeClear s fun t => t = s) ∧
    (s.host.flr = true → ∀ c ∈ [Instr.bmeClear, .busMasterEnableSet, .functionLevelReset, .d3hot, .returnToD0, .atsEnableClear,
        .doeRequest 0x1F4C 1 []], Completes c s fun t => t = s.emit .retry) ∧
    (s.host.flr = false → Completes .busMasterEnableSet s fun t => t.host.bme = true ∧ OnlyObjects [] s t) ∧
    (s.host.flr = false → Completes .functionLevelReset s fun t =>
      t.host.flr = true ∧ t.host.bme = false ∧ t.host.atsEnable = false ∧ t.host.d3hot = false ∧ t.host.maxRead = 512 ∧
      t.host.memSpace = false ∧ t.host.vectors = [] ∧ t.host.cache = [] ∧ (∀ e ∈ t.host.reads, e.2.orphan = true) ∧
      t.svc.stage = none ∧ t.svc.capture = none ∧ (∀ off, t.configRead off = .retry) ∧
      (∀ r, r < 11 → t.rd (O.ringEnable r) = 0) ∧
      ∀ n, n < 48 → s.rd (O.dringState n) ≠ RING_OFF →
        t.rd (O.dringState n) = RING_OFF ∧ t.rd (O.dringHaltCause n) = 0x0A ∧ t.rd (O.dringHead n) = 0 ∧ t.rd (O.dringTail n) = 0 ∧
        t.rd (O.dringBase n) = s.rd (O.dringBase n)) ∧
    (s.host.flr = true → Completes .flrDone s fun t => t = { s with host := { s.host with flr := false, memSpace := true } }) ∧
    (s.host.flr = false → Completes .flrDone s fun t => t = s) ∧
    (s.host.flr = false → s.host.d3hot = false → Completes .d3hot s fun t => t.host.d3hot = true ∧ (∀ e ∈ t.host.reads, e.2.orphan = true) ∧
      ∀ n, n < 48 → s.live n = true → t.rd (O.dringState n) = RING_HALTED ∧ t.rd (O.dringHaltCause n) = 2) ∧
    (s.host.flr = false → Completes .returnToD0 s fun t => t.host.d3hot = false ∧ OnlyObjects [] s t) ∧
    (s.host.flr = false → Completes .atsEnableClear s fun t => t.host.atsEnable = false ∧ t.host.cache = [] ∧ t.rd O.atsCacheUsed = 0 ∧
      ((∀ n, n < 48 → (s.dring n).owing = []) → OnlyObjects [O.atsCacheUsed] s t)) ∧
    (s.rd O.pcieLinkState = 2 → s.host.aspmL1 = true → s.hostIdle = true →
      Completes .aspmL1Entry s fun t => t.rd O.l1Entries = counted (tyOf O.l1Entries) (s.rd O.l1Entries) 1 ∧ Only [O.l1Entries] s t ∧
        t.out.head? = some (.l1 s.host.l11)) ∧
    (s.host.aspmL1 = false ∨ s.hostIdle = false → Completes .aspmL1Entry s fun t => t = s) ∧
    (∀ (posted : Bool) (header : Nat), Completes (.unsupportedRequest posted header) s fun t =>
      t.rd O.urReceived = counted (tyOf O.urReceived) (s.rd O.urReceived) 1 ∧ Only [O.urReceived] s t ∧
      t.out.head? = some (if posted then .aer "Unsupported Request" header else .unsupported header)) ∧
    (∀ header : Nat, Completes (.poisonedWrite header) s fun t =>
      t.rd O.poisonedReceived = counted (tyOf O.poisonedReceived) (s.rd O.poisonedReceived) 1 ∧ Only [O.poisonedReceived] s t ∧
      t.out.head? = some (.aer "Poisoned TLP" header)) ∧
    (s.host.flr = false → Completes (.doeRequest 0x1F4C 1 []) s fun t => t = s.emit (.doe (dwords (kdt s.mcState s.failReason)))) ∧
    (s.host.flr = false → ∀ (vendor type : Nat) (payload : List Nat), ¬(vendor = 0x1F4C ∧ type = 1) → ¬(vendor = 1 ∧ type = 0) →
      Completes (.doeRequest vendor type payload) s fun t => t = s) ∧
    (∀ off len, s.host.memSpace = false ∨ s.host.flr = true → ∀ (b : Bar) (w : Bool), s.memSupported b off len w = false) ∧
    (∀ off len, s.memSupported .bar4 off len true = false ∧ s.memSupported .rom off len true = false) ∧
    (∀ r, r < 64 → s.memOpen = true →
      s.memSupported .bar2 (4096 * r) 4 true = true ∧ s.memSupported .bar2 (4096 * r + 8) 4 true = false ∧
      s.memSupported .bar2 (4096 * r + 16) 4 true = false ∧
      s.bar2Read (4096 * r + 8) 4 = some (leBytes 4 (if r < 16 then s.rd (O.ringHead r) else s.rd (O.dringHead (r - 16))))) ∧
    (∀ n, n < 48 → s.bar4Word (8 * n) = (if bit (s.rd O.userAccess) n then s.rd (O.pcValue n) else 0) ∧
      s.bar4Word (0x200 + 8 * n) = (if bit (s.rd O.userAccess) n then s.rd (O.pcValue (48 + n)) else 0)) ∧
    (s.host.flr = false → ∀ off, s.configRead off = .fields (s.configFields.filter fun f => f.offset == off)) ∧
    (∀ f ∈ ([⟨0x00, 16, 16, 0x9A20⟩, ⟨0x08, 8, 24, 0x028000⟩, ⟨0x2C, 16, 16, 0x0001⟩, ⟨0x34, 0, 8, 0x40⟩, ⟨0x70, 0, 8, 0x10⟩,
        ⟨0x70, 8, 8, 0⟩, ⟨0x148, 0, 16, 3⟩, ⟨0x148, 20, 12, 0x158⟩, ⟨0x260, 0, 16, 0x1E⟩, ⟨0x260, 20, 12, 0⟩] : List ConfigField), f ∈ s.configFields)

/-- R108 to R112, R117, R123, R126: the commands of a DMA ring, its doorbells, and the messages of MSI-X. ARM writes the statuses that a ring owes where
their page needs no request, and asks for its translation otherwise. Clauses rest on log entries 6, 38, 39. -/
def Obligations.RingsAndDoorbells : Prop :=
  ∀ s : State, (∀ m, m < 48 → (s.dring m).owing = []) →
    (∀ (p : Path) (r : Fin 48), let n := r.val
      let good := s.rd (O.dringKind n) ≠ 0 ∧ s.rd (O.dringBase n) % 4096 = 0 ∧
        ringTargetGood (s.rd (O.dringKind n)) (s.rd (O.dringTarget n)) = true
      let room := s.armedInClass n < (ringClass (s.rd (O.dringKind n)) (s.rd (O.dringTarget n))).2
      s.gate p (O.dringCmd n) = .pass →
      (s.rd (O.dringState n) = RING_OFF → good → s.armBlocked = false → room →
        Accepts (.arm p r 0) p (O.dringCmd n) s fun t =>
          t.rd (O.dringState n) = RING_ARMED ∧ t.rd (O.dringHaltCause n) = 0 ∧ (t.dring n).flight = [] ∧ (t.dring n).fetched = 0 ∧
          (t.dring n).phase = true ∧ OnlyObjects [O.dringState n, O.dringHaltCause n] s t) ∧
      (s.rd (O.dringState n) = RING_HALTED → (s.dring n).owed = false → s.armBlocked = false → room →
        Accepts (.arm p r 0) p (O.dringCmd n) s fun t =>
          t.rd (O.dringState n) = RING_ARMED ∧ t.rd (O.dringHaltCause n) = 0 ∧ (t.dring n).flight = [] ∧
          (t.dring n).fetched = s.rd (O.dringHead n) ∧ OnlyObjects [O.dringState n, O.dringHaltCause n] s t) ∧
      (s.rd (O.dringState n) = RING_HALTED → (s.dring n).owed = true → s.host.atsEnable = false → (s.dring n).flight ≠ [] → (s.dring n).flight.length ≤ 16 →
        s.armBlocked = false → room →
        Accepts (.arm p r 0) p (O.dringCmd n) s fun t =>
          t.rd (O.dringState n) = RING_ARMED ∧ t.rd (O.dringHaltCause n) = 0 ∧ (t.dring n).flight = [] ∧
          t.rd (O.dringHead n) = (s.rd (O.dringHead n) + (s.dring n).flight.length) % s.dsize n ∧
          (t.dring n).fetched = t.rd (O.dringHead n) ∧
          OnlyObjects [O.dringState n, O.dringHaltCause n, O.dringHead n, O.dringCompleted n] s t) ∧
      (∀ (f : Flight) (l : List Flight) (page : Nat), s.rd (O.dringState n) = RING_HALTED → (s.dring n).owed = true →
        (s.dring n).flight = f :: l → s.missingPage (s.statusAddr n (s.rd (O.dringHead n))) 8 = some page → s.freeTag.isSome = true →
        s.armBlocked = false → room →
        Accepts (.arm p r 0) p (O.dringCmd n) s fun t =>
          t.rd (O.dringState n) = RING_ARMED ∧ (t.dring n).flight = [] ∧ (t.dring n).owing = f :: l ∧
          (t.dring n).waitPage = some ⟨page, f.slot⟩ ∧ t.rd (O.dringHead n) = s.rd (O.dringHead n)) ∧
      (s.rd (O.dringState n) = RING_OFF → ¬good → Refuses (.arm p r 0) p (O.dringCmd n) s .range) ∧
      (s.rd (O.dringState n) = RING_HALTING → Refuses (.arm p r 0) p (O.dringCmd n) s .busy) ∧
      (s.rd (O.dringState n) = RING_OFF ∧ good ∨ s.rd (O.dringState n) = RING_HALTED →
        (s.armBlocked = true → Refuses (.arm p r 0) p (O.dringCmd n) s .busy) ∧
        (s.armBlocked = false → ¬room → Refuses (.arm p r 0) p (O.dringCmd n) s .noResource)) ∧
      (s.rd (O.dringState n) = RING_ARMED → Accepts (.halt p r 0) p (O.dringCmd n) s fun t =>
        t.rd (O.dringState n) = RING_HALTING ∧ OnlyObjects [O.dringState n] s t ∧
        (toHost (s.rd (O.dringKind n)) = false → t.dring n = s.dring n) ∧
        (toHost (s.rd (O.dringKind n)) = true → (t.dring n).flight = (s.dring n).flight.takeWhile fun f => f.effect || f.length != 0)) ∧
      (s.rd (O.dringState n) ≠ RING_ARMED → Accepts (.halt p r 0) p (O.dringCmd n) s fun t => Reports s t) ∧
      (s.rd (O.dringState n) = RING_HALTED → Accepts (.reset p r 0) p (O.dringCmd n) s fun t =>
        t.rd (O.dringState n) = RING_OFF ∧ t.rd (O.dringHead n) = 0 ∧ t.rd (O.dringTail n) = 0 ∧ t.rd (O.dringHaltCause n) = 0 ∧
        t.dring n = {} ∧ OnlyObjects [O.dringState n, O.dringHead n, O.dringTail n, O.dringHaltCause n] s t) ∧
      (s.rd (O.dringState n) = RING_ARMED ∨ s.rd (O.dringState n) = RING_HALTING →
        Refuses (.reset p r 0) p (O.dringCmd n) s .notStopped)) ∧
    (∀ r : Fin 48, s.rd (O.dringState r.val) = RING_HALTING → (s.dring r.val).flight = [] → Completes (.ringHalted r) s fun t =>
      t.rd (O.dringState r.val) = RING_HALTED ∧ t.rd (O.dringHaltCause r.val) = 1 ∧
      Only [O.dringState r.val, O.dringHaltCause r.val] s t) ∧
    (∀ (ring : Fin 64) (value : BitVec 32), let n := ring.val - 16
      (s.alive = true → s.memOpen = true →
        (ring.val ≤ 10 → value.toNat < 2 ^ s.rd (O.ringSizeLog2 ring.val) → Completes (.doorbell ring value) s fun t =>
          t.rd (O.ringTail ring.val) = value.toNat ∧ t.doorbellReg ring.val 0 = value.toNat ∧ OnlyObjects [O.ringTail ring.val] s t) ∧
        (10 < ring.val ∧ ring.val < 16 ∨ ring.val ≤ 10 ∧ 2 ^ s.rd (O.ringSizeLog2 ring.val) ≤ value.toNat ∨
            16 ≤ ring.val ∧ (s.rd (O.dringState n) = RING_OFF ∨ s.rd (O.dringState n) ≠ RING_ARMED ∧ s.dsize n ≤ value.toNat) →
          Completes (.doorbell ring value) s fun t =>
            t.rd O.doorbellErrors = counted (tyOf O.doorbellErrors) (s.rd O.doorbellErrors) 1 ∧ OnlyObjects [O.doorbellErrors] s t) ∧
        (16 ≤ ring.val → s.rd (O.dringState n) ≠ RING_OFF → value.toNat < s.dsize n → Completes (.doorbell ring value) s fun t =>
          t.rd (O.dringTail n) = value.toNat ∧ t.doorbellReg ring.val 0 = value.toNat ∧ OnlyObjects [O.dringTail n] s t) ∧
        (16 ≤ ring.val → s.rd (O.dringState n) = RING_ARMED → s.dsize n ≤ value.toNat → Completes (.doorbell ring value) s fun t =>
          t.rd (O.dringState n) = RING_HALTED ∧ t.rd (O.dringHaltCause n) = 9 ∧ OnlyObjects [O.dringState n, O.dringHaltCause n] s t)) ∧
      (s.alive = true → s.memOpen = false → Completes (.doorbell ring value) s fun t =>
        t.rd O.urReceived = counted (tyOf O.urReceived) (s.rd O.urReceived) 1 ∧ Only [O.urReceived] s t) ∧
      (s.alive = false → Completes (.doorbell ring value) s fun t => t = s)) ∧
    (∀ v : Fin 64,
      ((s.vec v.val).unsent ≠ 0 → s.rd (O.coalTime v.val) ≠ 0 → (s.vec v.val).masked = false → s.canSend = true →
        Completes (.coalTimeExpiry v) s fun t =>
          t.out.head? = some (.msix v.val (s.vec v.val).addr (s.vec v.val).data) ∧ (t.vec v.val).unsent = 0 ∧
          t.rd (O.msixSent v.val) = counted (tyOf (O.msixSent v.val)) (s.rd (O.msixSent v.val)) 1) ∧
      ((s.vec v.val).unsent ≠ 0 → s.rd (O.coalTime v.val) ≠ 0 → (s.vec v.val).masked = true ∨ s.canSend = false →
        Completes (.coalTimeExpiry v) s fun t => (t.vec v.val).pending = true ∧ t.out = s.out) ∧
      (∀ (off : Fin 1024) (d : List Byte), off.val = 16 * v.val + 12 → d.length = 4 → s.alive = true → s.memOpen = true →
        ((s.vec v.val).pending = true → s.canSend = true → bit (leNat d) 0 = false → Completes (.msixUnmask ⟨off, d⟩) s fun t =>
          (t.vec v.val).masked = false ∧ (t.vec v.val).pending = false ∧
          t.out.head? = some (.msix v.val ((s.vec v.val).addr % 2 ^ 64) ((s.vec v.val).data % 2 ^ 32))) ∧
        ((s.vec v.val).pending = false ∨ s.canSend = false ∨ bit (leNat d) 0 = true → Completes (.msixUnmask ⟨off, d⟩) s fun t =>
          (t.vec v.val).masked = bit (leNat d) 0 ∧ (t.vec v.val).pending = (s.vec v.val).pending ∧ t.objs = s.objs)) ∧
      (∀ (off : Fin 1024) (d : List Byte), off.val = 16 * v.val → d.length = 8 → s.alive = true → s.memOpen = true →
        (s.vec v.val).pending = false → Completes (.msixUnmask ⟨off, d⟩) s fun t =>
          (t.vec v.val).addr = leNat d ∧ (t.vec v.val).data = (s.vec v.val).data % 2 ^ 32 ∧ (t.vec v.val).masked = (s.vec v.val).masked ∧
          t.objs = s.objs ∧ ∀ w, w ≠ v.val → t.vec w = s.vec w) ∧
      (∀ w : MsixWrite, s.alive = true → s.memOpen = false ∨ inMsixTable (0xFF0000 + w.offset.val) w.data.length = false →
        Completes (.msixUnmask w) s fun t => (∀ u, (t.vec u).masked = (s.vec u).masked) ∧
          t.rd O.urReceived = counted (tyOf O.urReceived) (s.rd O.urReceived) 1) ∧
      (∀ w : MsixWrite, s.alive = false → Completes (.msixUnmask w) s fun t => t = s))

/-- R113 to R115, R118 to R124: descriptors, the reads that fetch them and their data, their tags, and address translations. Clauses rest on log entries
6, 38, 39. -/
def Obligations.DescriptorsReadsAndTranslations : Prop :=
  let core := fun (f : Flight) => { f with issued := 0 }
  ∀ s : State, (∀ m, m < 48 → (s.dring m).owing = []) →
    (∀ (r : Fin 48) (d : Desc), let n := r.val
      s.takes n = true →
      (s.fetchRead n).isSome = true ∨ s.mayFetch n = true ∧ s.host.atsEnable = false ∧ s.freeTag.isSome = true →
      Completes (.descriptorFetch r d) s fun t =>
        (t.dring n).fetched = ((s.dring n).fetched + 1) % s.dsize n ∧ OnlyObjects [] s t ∧
        (s.descGood n d = true → (t.dring n).flight.map core = (s.dring n).flight.map core ++
          [{ slot := (s.dring n).fetched, desc := d, data := if toHost (s.rd (O.dringKind n)) then [] else zeros d.bufLength }]) ∧
        (s.descGood n d = false → (t.dring n).flight.map core = (s.dring n).flight.map core ++
          [{ slot := (s.dring n).fetched, desc := d, effect := true, status := Status.range.code, halt := 6 }])) ∧
    (∀ (r : Fin 48) (d : Desc), (s.fetchRead r.val).isNone = true → s.mayFetch r.val = false →
      Completes (.descriptorFetch r d) s fun t => t = s) ∧
    (∀ (r : Fin 48) (f : Flight) (l : List Flight), let n := r.val
      (s.dring n).flight = f :: l →
      (f.effect = true → s.live n = true → s.linkOpen = true → s.missingPage (s.statusAddr n f.slot) 8 = none →
        Completes (.descriptorComplete r) s fun t =>
          t.rd (O.dringHead n) = (s.rd (O.dringHead n) + 1) % s.dsize n ∧
          t.rd (O.dringCompleted n) = counted (tyOf (O.dringCompleted n)) (s.rd (O.dringCompleted n)) 1 ∧
          Out.dmaStatus (n + 16) (s.rd (O.dringHead n)) f.length f.result f.status (s.dring n).phase ∈ t.out ∧
          (f.halt ≠ 0 → (t.dring n).flight = [] ∧ t.rd (O.dringState n) = RING_HALTED ∧ t.rd (O.dringHaltCause n) = f.halt ∧
            OnlyObjects [O.dringHead n, O.dringCompleted n, O.dringState n, O.dringHaltCause n] s t) ∧
          (f.halt = 0 → (t.dring n).flight.map core = l.map core ∧ OnlyObjects [O.dringHead n, O.dringCompleted n] s t)) ∧
      (f.effect = false ∨ s.live n = false ∨ s.linkOpen = false → Completes (.descriptorComplete r) s fun t => t = s)) ∧
    (∀ (tag : Nat) (st : CplStatus) (data : List Byte) (last : Bool),
      (mfind s.host.reads tag = none → Completes (.completionReceived tag st data last) s fun t =>
        t.rd O.unexpectedCpls = counted (tyOf O.unexpectedCpls) (s.rd O.unexpectedCpls) 1 ∧ tag ∉ t.host.quarantine ∧
        OnlyObjects [O.unexpectedCpls, O.quarantinedTags] s t) ∧
      (∀ q : ReadReq, mfind s.host.reads tag = some q →
        (q.kind = .buffer → q.orphan = false → Completes (.completionReceived tag .success data last) s fun t =>
          OnlyObjects [] s t ∧
          (last = false → data.length < q.left → mfind t.host.reads tag = some { q with left := q.left - data.length }) ∧
          ∀ f ∈ (s.dring q.ring).flight, f.slot = q.slot → ∃ g ∈ (t.dring q.ring).flight,
            g.slot = q.slot ∧ g.arrived = f.arrived + min q.left data.length ∧
            g.data = splice f.data (q.offset + (q.length - q.left)) (data.take q.left)) ∧
        (q.orphan = true → Completes (.completionReceived tag .success data last) s fun t =>
          OnlyObjects [] s t ∧ ∀ n, (t.dring n).flight.map core = (s.dring n).flight.map core) ∧
        (q.kind = .buffer → q.orphan = false → st ≠ .success → q.ring < 48 → s.live q.ring = true →
          (s.dring q.ring).flight.head?.map Flight.slot = some q.slot →
          s.missingPage (s.statusAddr q.ring q.slot) 8 = none → Completes (.completionReceived tag st data last) s fun t =>
            t.rd (O.dringState q.ring) = RING_HALTED ∧ t.rd (O.dringHaltCause q.ring) = 7 ∧ (t.dring q.ring).flight = [] ∧
            Out.dmaStatus (q.ring + 16) (s.rd (O.dringHead q.ring)) 0 0 Status.readFailed.code (s.dring q.ring).phase ∈ t.out) ∧
        (s.host.cplTimeoutOff = false → Completes (.completionTimeout tag) s fun t =>
          mfind t.host.reads tag = none ∧ tag ∈ t.host.quarantine ∧ t.rd O.quarantinedTags = t.host.quarantine.length ∧
          t.rd O.cplTimeouts = counted (tyOf O.cplTimeouts) (s.rd O.cplTimeouts) 1) ∧
        (s.host.cplTimeoutOff = true → Completes (.completionTimeout tag) s fun t => t = s)) ∧
      (mfind s.host.reads tag = none → Completes (.unexpectedCpl tag) s fun t =>
        t.rd O.unexpectedCpls = counted (tyOf O.unexpectedCpls) (s.rd O.unexpectedCpls) 1 ∧ tag ∉ t.host.quarantine ∧
        OnlyObjects [O.unexpectedCpls, O.quarantinedTags] s t) ∧
      (Completes (.quarantineExpiry tag) s fun t =>
        t.host.quarantine = s.host.quarantine.filter (fun g => g ≠ tag) ∧ t.rd O.quarantinedTags = t.host.quarantine.length ∧
        OnlyObjects [O.quarantinedTags] s t)) ∧
    (∀ (ring : Fin 64) (page sizeLog2 tag : Nat) (q : ReadReq), s.translateRead ring.val page = some (tag, q) → q.orphan = false →
      (s.host.atsEnable = true → Completes (.translationCompletion ring page sizeLog2 true) s fun t =>
        (⟨page, min sizeLog2 18⟩ : AtsEntry) ∈ t.host.cache ∧ t.host.cache.length ≤ 1024 ∧ t.rd O.atsCacheUsed = t.host.cache.length ∧
        OnlyObjects [O.atsCacheUsed] s t) ∧
      (∀ e : EvRec, ring.val < 16 → (s.ring ring.val).waiting = [e] → Completes (.translationCompletion ring page sizeLog2 false) s fun t =>
        (t.ring ring.val).waiting = [] ∧
        t.rd (O.ringLost ring.val) = counted (tyOf (O.ringLost ring.val)) (s.rd (O.ringLost ring.val)) 1 ∧ OnlyObjects [] s t) ∧
      (∀ w : PageWait, let n := ring.val - 16
        16 ≤ ring.val → (s.dring n).waitPage = some w → s.live n = true → (s.dring n).flight.head?.map Flight.slot = some w.slot →
        Completes (.translationCompletion ring page sizeLog2 false) s fun t =>
          t.rd (O.dringState n) = RING_HALTED ∧ t.rd (O.dringHaltCause n) = 8 ∧ (t.dring n).flight = [] ∧
          Out.dmaStatus ring.val (s.rd (O.dringHead n)) 0 0 Status.translationFailed.code (s.dring n).phase ∈ t.out)) ∧
    (∀ (n : Fin 48) (f : Flight) (l : List Flight) (w : PageWait), (s.dring n.val).flight = [] → (s.dring n.val).waitPage = some w →
      let u := (s.updD n.val fun d => { d with owing := f :: l }).pageEnded (n.val + 16) false
      (u.dring n.val).owing = [] ∧ (u.dring n.val).flight = l ∧ (u.dring n.val).owed = true ∧ u.rd (O.dringState n.val) = RING_HALTED ∧
      u.rd (O.dringHaltCause n.val) = 8) ∧
    (∀ (ring : Fin 64) (page sizeLog2 : Nat) (granted : Bool), s.translateRead ring.val page = none →
      Completes (.translationCompletion ring page sizeLog2 granted) s fun t => t = s) ∧
    (∀ itag page sizeLog2 : Nat,
      (s.host.invalidates.length < 32 → Completes (.invalidateRequest itag page sizeLog2) s fun t =>
        t.host.cache = (s.host.cache.filter fun e => !e.overlaps page sizeLog2) ∧
        t.host.invalidates = s.host.invalidates ++ [(itag, s.readsIn page sizeLog2)] ∧
        t.rd O.atsCacheUsed = t.host.cache.length ∧ OnlyObjects [O.atsCacheUsed] s t) ∧
      (s.host.invalidates.find? (fun e => e.1 == itag) = some (itag, []) → Completes (.invalidateComplete itag) s fun t =>
        (t.host.invalidates.find? fun e => e.1 == itag) = none ∧ t.out.head? = some (.invalidateDone itag) ∧
        t.rd O.atsInvalidations = counted (tyOf O.atsInvalidations) (s.rd O.atsInvalidations) 1 ∧
        OnlyObjects [O.atsInvalidations] s t))

/-- R139, R141, R150, R151: PAIR_APPLY, ADMIN_UP, LOOPBACK and PRBS_MODE take effect at once, or are refused without effect. Clauses rest on log entries
19, 41, 42. -/
def Obligations.PairAndPortCommands : Prop :=
  ∀ (s : State) (p : Path),
    (∀ k : Fin 4, s.gate p (O.pairApply k.val) = .pass →
      (s.pairCheck k.val true (s.otnElsewhere k.val) = .ok → Accepts (.pairApply p k 0) p (O.pairApply k.val) s fun t =>
        t.rd (O.pairMode k.val) = s.rd (O.pairModeNext k.val) ∧
        (∀ j, j < 24 → t.rd (O.portRole (24 * k.val + j)) = s.rd (O.roleNext (24 * k.val + j))) ∧
        ∀ m, m < 4 → m ≠ k.val → t.rd (O.pairMode m) = s.rd (O.pairMode m)) ∧
      (s.pairCheck k.val true (s.otnElsewhere k.val) ≠ .ok →
        Refuses (.pairApply p k 0) p (O.pairApply k.val) s (s.pairCheck k.val true (s.otnElsewhere k.val)))) ∧
    (∀ port : Fin 96, let q := port.val
      s.gate p (O.adminUp q) = .pass →
      (s.portExists q = true → s.rd (O.adminUp q) = 0 → Accepts (.adminUp p port true) p (O.adminUp q) s fun t =>
        t.rd (O.adminUp q) = 1 ∧
        ∀ l, l ∈ s.lanesOf q → t.rd (O.laneState l) =
          (if s.rd (O.laneState l) = 2 then 2 else if s.rd (O.prbsMode l) = 0 then 1 else 0)) ∧
      (s.portExists q = false → Refuses (.adminUp p port true) p (O.adminUp q) s .range) ∧
      (s.rd (O.adminUp q) = 1 → Accepts (.adminUp p port false) p (O.adminUp q) s fun t =>
        t.rd (O.adminUp q) = 0 ∧ t.rd (O.portLinkState q) = 0 ∧ (∀ l, l ∈ s.lanesOf q → t.rd (O.laneState l) = 0) ∧
        (s.rd (O.linkDownHold q) = 0 → t.rd (O.lastDownCause q) = 1))) ∧
    (∀ (port : Fin 96) (mode : BitVec 8), let q := port.val
      s.gate p (O.loopback q) = .pass →
      (mode.toNat ≤ 2 → Accepts (.loopback p port mode) p (O.loopback q) s fun t => t.rd (O.loopback q) = mode.toNat) ∧
      (2 < mode.toNat → Refuses (.loopback p port mode) p (O.loopback q) s .range)) ∧
    (∀ (lane : Fin 240) (mode : BitVec 8), let l := lane.val
      s.gate p (O.prbsMode l) = .pass →
      (mode.toNat ≤ 3 → s.rd (O.prbsMode l) ≠ mode.toNat → Accepts (.prbsMode p lane mode) p (O.prbsMode l) s fun t =>
        t.rd (O.prbsMode l) = mode.toNat ∧ t.rd (O.prbsLock l) = 0) ∧
      (3 < mode.toNat → Refuses (.prbsMode p lane mode) p (O.prbsMode l) s .range))

/-- R144 to R146, R149, R151, R160, R162: what lanes and ports meet: training, loss of signal, alignment, faults, the hold of a link-down, FEC windows,
pattern checkers and the hold-off of a SyncE output. Clauses rest on log entries 6, 41. -/
def Obligations.LanesAndPortsFollowTheLine : Prop :=
  ∀ s : State,
    (∀ (lane : Fin 240) (taps : List Byte) (snr : Nat), let l := lane.val
      (s.rd (O.laneState l) = 1 → Completes (.laneLocked lane taps snr) s fun t =>
        t.rd (O.laneState l) = 2 ∧ t.rd (O.rxSnr l) = min snr 0xFFFF ∧
        (s.trains l = true → t.rd (O.trainedTaps l) = leNat (fit taps 6))) ∧
      (s.rd (O.laneState l) = 1 → Completes (.laneTrainFailed lane snr) s fun t =>
        t.rd (O.laneState l) = 3 ∧ t.rd (O.rxSnr l) = min snr 0xFFFF ∧ mget t.line.attempts 0 l = mget s.line.attempts 0 l + 1) ∧
      (s.rd (O.laneState l) = 3 → Completes (.laneTrainRetry lane) s fun t =>
        t.rd (O.laneState l) = (if s.rd (O.prbsMode l) = 0 then 1 else 0)) ∧
      (∀ los : Bool, s.rd (O.laneState l) = 2 → Completes (.laneSignalLoss lane los) s fun t =>
        t.rd (O.laneState l) = (if s.rd (O.prbsMode l) = 0 then 1 else 0) ∧
        t.rd (O.lockLosses l) = counted (tyOf (O.lockLosses l)) (s.rd (O.lockLosses l)) 1 ∧
        ∀ q, s.portOfLane l = some q → s.rd (O.portLinkState q) = 3 → s.rd (O.linkDownHold q) = 0 →
          t.rd (O.lastDownCause q) = (if los then 2 else 3)) ∧
      (∀ inSync : Bool, s.rd (O.prbsMode l) ≠ 0 → Completes (.prbsCheckerSync lane inSync) s fun t =>
        t.rd (O.prbsLock l) = b2n inSync ∧ Only [O.prbsLock l, O.prbsErrors l] s t)) ∧
    (∀ port : Fin 96, let q := port.val
      (s.rd (O.portLinkState q) = 2 → s.diagnostic q = false → s.isOtn q = false → s.outOfService q = false →
        Completes (.pcsAligned port) s fun t => t.rd (O.portLinkState q) = 3 ∧ OnlyObjects [O.portLinkState q] s t) ∧
      (3 ≤ s.rd (O.portLinkState q) → s.isOtn q = false →
        (∀ hiSer : Bool, Completes (.alignmentLoss port hiSer) s fun t => t.rd (O.portLinkState q) = 2 ∧
          (s.rd (O.portLinkState q) = 3 → s.rd (O.linkDownHold q) = 0 → t.rd (O.lastDownCause q) = (if hiSer then 5 else 4)) ∧
          OnlyObjects [O.portLinkState q, O.lastDownCause q, O.portLinkDowns q] s t) ∧
        (Completes (.faultReceived port .localFault) s fun t => t.rd (O.portLinkState q) = 4) ∧
        (Completes (.faultReceived port .remoteFault) s fun t => t.rd (O.portLinkState q) = 5) ∧
        (s.rd (O.portLinkState q) ≠ 3 → s.outOfService q = false → Completes (.faultReceived port .none) s fun t =>
          t.rd (O.portLinkState q) = 3)) ∧
      (∀ cause, mfind s.line.held q = some cause → Completes (.linkDownHoldExpiry port) s fun t =>
        t.rd (O.portLinkDowns q) = counted (tyOf (O.portLinkDowns q)) (s.rd (O.portLinkDowns q)) 1 ∧
        t.rd (O.lastDownCause q) = cause ∧ mfind t.line.held q = none ∧ OnlyObjects [O.portLinkDowns q, O.lastDownCause q] s t) ∧
      (∀ corrected uncorrectable symbols : Nat, s.receivesCodewords q = true →
        Completes (.fecWindowEnd port corrected uncorrectable symbols) s fun t =>
          t.rd (O.cwTotal q) = counted (tyOf (O.cwTotal q)) (s.rd (O.cwTotal q)) 8192 ∧
          t.rd (O.cwCorrected q) = counted (tyOf (O.cwCorrected q)) (s.rd (O.cwCorrected q))
            (if s.rd (O.fecMode q) = 1 then 0 else corrected) ∧
          t.rd (O.cwUncorrectable q) = counted (tyOf (O.cwUncorrectable q)) (s.rd (O.cwUncorrectable q)) uncorrectable ∧
          t.rd (O.symbolsCorrected q) = counted (tyOf (O.symbolsCorrected q)) (s.rd (O.symbolsCorrected q)) symbols ∧
          (s.rd (O.fecDegraded q) = 0 → s.rd (O.degradeSet q) ≤ symbols → t.rd (O.fecDegraded q) = 1) ∧
          (s.rd (O.fecDegraded q) = 1 → symbols < s.rd (O.degradeClear q) → t.rd (O.fecDegraded q) = 0) ∧
          Only [O.cwTotal q, O.cwCorrected q, O.cwUncorrectable q, O.symbolsCorrected q, O.fecDegraded q] s t) ∧
      (∀ corrected uncorrectable symbols : Nat, s.receivesCodewords q = false →
        Completes (.fecWindowEnd port corrected uncorrectable symbols) s fun t => t = s)) ∧
    (∀ n : Fin 2, s.rd (O.synceState n.val) = 2 → s.rd (O.synceSrc n.val) ≠ 0xFF → s.synceCauses n.val = 0 →
      Completes (.synceHoldoffExpiry n) s fun t => t.rd (O.synceState n.val) = 1 ∧ Only [O.synceState n.val] s t)

/-- R152 to R154, R157 to R159: sub-ports are bound and read, and the time of day is captured, loaded, stepped and tied to the pulse pins. Clauses rest
on log entries 6, 44, 45. -/
def Obligations.SubportsAndTimeOfDay : Prop :=
  ∀ (s : State) (p : Path),
    (∀ arg : BitVec 24, s.gate p O.subportCmd = .pass →
      (96 ≤ arg.toNat → arg.toNat < 512 → s.portExists (bits (s.rd O.subportData) 6 0) = true →
        Accepts (.bind p arg) p O.subportCmd s fun t =>
          mfind t.line.subports arg.toNat = some (bits (s.rd O.subportData) 6 0) ∧
          (∀ q, q ≠ arg.toNat → mfind t.line.subports q = mfind s.line.subports q) ∧
          t.rd O.subportResult = Status.ok.code ∧ OnlyObjects [O.subportResult] s t) ∧
      (96 ≤ arg.toNat → arg.toNat < 512 → Accepts (.unbind p arg) p O.subportCmd s fun t =>
          mfind t.line.subports arg.toNat = none ∧
          (∀ q, q ≠ arg.toNat → mfind t.line.subports q = mfind s.line.subports q) ∧
          t.rd O.subportResult = Status.ok.code ∧ OnlyObjects [O.subportResult] s t) ∧
      (arg.toNat < 96 → Completes (.unbind p arg) s fun t =>
        t.rd O.subportResult = Status.accessDenied.code ∧ t.ended p O.subportCmd .accessDenied ∧ Only [O.subportResult] s t) ∧
      (∀ q, arg.toNat < 512 → s.subportPort arg.toNat = some q → Accepts (.subportRead p arg) p O.subportCmd s fun t =>
        t.rd O.subportData = 128 + q ∧ t.rd O.subportResult = Status.ok.code ∧ Only [O.subportData, O.subportResult] s t)) ∧
    (s.gate p O.todCapture = .pass → Accepts (.todCapture p 0) p O.todCapture s fun t =>
      t.rd O.todSec = s.todSeconds ∧ t.rd O.todNs = s.todNanos ∧ Only [O.todSec, O.todNs] s t) ∧
    (s.gate p O.todSet = .pass →
      (Accepts (.todSetNow p 0) p O.todSet s fun t =>
        t.line.tod = (s.rd O.todSetSec * todSec + s.rd O.todSetNs * todNs) % todWrap ∧ t.line.armed = none ∧
        t.rd O.todSetPending = 0 ∧ OnlyObjects [O.todSetPending] s t) ∧
      (Accepts (.todSetArm p 0) p O.todSet s fun t =>
        t.line = { s.line with armed := some (s.rd O.todSetSec, s.rd O.todSetNs) } ∧ t.rd O.todSetPending = 1 ∧
        OnlyObjects [O.todSetPending] s t) ∧
      (Accepts (.todSetCancel p 0) p O.todSet s fun t =>
        t.line = { s.line with armed := none } ∧ t.rd O.todSetPending = 0 ∧ OnlyObjects [O.todSetPending] s t)) ∧
    (∀ arg : BitVec 24, s.gate p O.todStep = .pass → Accepts (.todStep p arg) p O.todStep s fun t =>
      t.line.tod = (((s.line.tod : Int) + arg.toInt * todNs) % todWrap).toNat ∧ OnlyObjects [] s t) ∧
    (s.running .clk = true → s.rd O.ppsOutEnable = 1 → s.line.ppsHigh = false → Completes .ppsOutPulse s fun t =>
      t.line.ppsHigh = true ∧ t.out.head? = some (.pps true) ∧ t.objs = s.objs) ∧
    (s.line.ppsHigh = true → Completes .ppsOutEnd s fun t =>
      t.line.ppsHigh = false ∧ t.out.head? = some (.pps false) ∧ t.objs = s.objs) ∧
    (s.running .clk = true → s.rd O.ppsInEnable = 1 →
      (Completes .ppsInEdge s fun t =>
        let at_ := (((s.line.tod : Int) + s.rdS O.ppsInCorr * todNs) % todWrap).toNat
        t.rd O.ppsInSec = at_ / todSec ∧ t.rd O.ppsInNs = at_ / todNs % 1000000000 ∧
        t.rd O.ppsInEdges = counted (tyOf O.ppsInEdges) (s.rd O.ppsInEdges) 1 ∧ t.line.ppsSeen = true ∧ t.line.armed = none ∧
        (∀ sec ns, s.line.armed = some (sec, ns) → t.line.tod = (sec * todSec + ns * todNs) % todWrap ∧ t.rd O.todSetPending = 0) ∧
        (s.line.armed = none → t.line.tod = s.line.tod) ∧
        OnlyObjects [O.ppsInSec, O.ppsInNs, O.ppsInEdges, O.todSetPending] s t) ∧
      (s.line.ppsSeen = true → Completes .ppsInLost s fun t => t.line.ppsSeen = false ∧ OnlyObjects [] s t))

/-- R168 to R174: a slice of a group hunts for alignment, holds it over the framing it sees and loses it with its markers; its overhead is counted, but
not while LINE does not run; LOF and LOM follow the state that has lasted 3.00 ms, and SM_DEG the seconds. Clauses rest on log entries 6, 46. -/
def Obligations.OtnFramesAreAligned : Prop :=
  ∀ (s : State) (g : Fin 12) (i : Fin 16), s.grpRuns g.val = true → i.val < s.groupN g.val → let y := (s.grp g.val).slice i.val
    (∀ (o : OtucObs) (clients : List ClientObs), (s.grp g.val).los = false → s.running .line = true →
      (y.hunting = true → Completes (.otucFramePeriod g i o clients) s fun t =>
        let r := y.older.noOverhead.hunt o.fas
        { (t.grp g.val).slice i.val with age := 0 } =
          { (if r.1.hunting then r.1 else { r.1 with mfas := some (o.mfas % 256) }) with age := 0 } ∧
        t.rd (O.candOverflows g.val) = counted (tyOf (O.candOverflows g.val)) (s.rd (O.candOverflows g.val)) r.2) ∧
      (y.hunting = false → o.markers = false ∨ (o.fas32 = false ∧ 4 ≤ y.misses) → Completes (.otucFramePeriod g i o clients) s fun t =>
        ((t.grp g.val).slice i.val).hunting = true ∧ ((t.grp g.val).slice i.val).inMulti = false ∧
        t.rd (O.oofEvents g.val) = counted (tyOf (O.oofEvents g.val)) (s.rd (O.oofEvents g.val)) 1) ∧
      (y.hunting = false → o.markers = true → o.fas32 = true → Completes (.otucFramePeriod g i o clients) s fun t =>
        ((t.grp g.val).slice i.val).hunting = false ∧ ((t.grp g.val).slice i.val).misses = 0 ∧
        ((t.grp g.val).slice i.val).smBdi = o.smBdi ∧ ((t.grp g.val).slice i.val).mfas = some (o.mfas % 256) ∧
        t.rd (O.smBipErrors g.val) = counted (tyOf (O.smBipErrors g.val)) (s.rd (O.smBipErrors g.val)) o.smBip ∧
        t.rd (O.pmBipErrors g.val) = counted (tyOf (O.pmBipErrors g.val)) (s.rd (O.pmBipErrors g.val)) o.pmBip ∧
        t.rd (O.smBeiCount g.val) = counted (tyOf (O.smBeiCount g.val)) (s.rd (O.smBeiCount g.val)) (beiCount o.smBei) ∧
        t.rd (O.pmBeiCount g.val) = counted (tyOf (O.pmBeiCount g.val)) (s.rd (O.pmBeiCount g.val)) (beiCount o.pmBei) ∧
        (i.val ∉ (s.grp g.val).rows → s.groupN g.val ≤ (s.grp g.val).rows.length + 1 → (t.grp g.val).rows = [] ∧
          (t.grp g.val).agree = !t.anySlice g.val fun x => x.mfas != ((t.grp g.val).slice 0).mfas || x.mfas.isNone))) ∧
    (∀ (o : OtucObs) (clients : List ClientObs), (s.grp g.val).los = false → s.running .line = false →
      Completes (.otucFramePeriod g i o clients) s fun t =>
        { (t.grp g.val).slice i.val with age := 0 } = { y.noOverhead with age := 0 } ∧
        t.rd (O.smBipErrors g.val) = s.rd (O.smBipErrors g.val) ∧ t.rd (O.oofEvents g.val) = s.rd (O.oofEvents g.val)) ∧
    (Completes (.integratedDefectTimer g i false) s fun t => ((t.grp g.val).slice i.val).lof = y.hunting ∧
      ∀ h, h ≠ g.val → t.grp h = s.grp h) ∧
    (Completes (.integratedDefectTimer g i true) s fun t => ((t.grp g.val).slice i.val).lom = !y.inMulti ∧
      ∀ h, h ≠ g.val → t.grp h = s.grp h) ∧
    (s.rd (O.degThreshold g.val) = 0 → Completes (.smDegSecond g) s fun t =>
      (t.grp g.val).smDeg = false ∧ (t.grp g.val).errored = 0) ∧
    (0 < s.rd (O.degThreshold g.val) → s.rd (O.degThreshold g.val) < (s.grp g.val).errored →
      Completes (.smDegSecond g) s fun t =>
        (t.grp g.val).badSecs = (s.grp g.val).badSecs + 1 ∧ (t.grp g.val).errored = 0 ∧
        (s.rd (O.degSeconds g.val) ≤ (s.grp g.val).badSecs + 1 → (t.grp g.val).smDeg = true))

/-- R179 to R184, R188: the pages of the time-slot interchange: entries are written, read, copied, cleared and swapped; the pages change places at the
next frame with MFAS 0x00; a descriptor's records are all checked before any is written. TSI_RESULT takes the status of every command. Clauses rest
on log entries 6, 46. -/
def Obligations.TributarySlotsAreInterchanged : Prop :=
  ∀ (s : State) (p : Path),
    (s.gate p O.tsiCmd = .pass →
      (s.fnState .otn = DISABLED → Completes (.tsiWrite p 0) s fun t =>
        t.rd O.tsiResult = Status.functionDisabled.code ∧ t.ended p O.tsiCmd .functionDisabled ∧ Only [O.tsiResult] s t) ∧
      (s.fnState .otn ≠ DISABLED → s.tsiPending = false →
        (tsiKeyGood (s.rd O.tsiKey) = true → tsiDataGood (s.rd O.tsiKey) (s.rd O.tsiData) = true →
          Accepts (.tsiWrite p 0) p O.tsiCmd s fun t =>
            t.rd O.tsiResult = Status.ok.code ∧ mget t.otn.standby 0 (s.rd O.tsiKey) = s.rd O.tsiData ∧
            (∀ k, k ≠ s.rd O.tsiKey → mget t.otn.standby 0 k = mget s.otn.standby 0 k) ∧ t.otn.active = s.otn.active ∧
            OnlyObjects [O.tsiResult] s t) ∧
        (Accepts (.tsiCopy p 0) p O.tsiCmd s fun t =>
          t.rd O.tsiResult = Status.ok.code ∧ t.otn = { s.otn with standby := s.otn.active } ∧ OnlyObjects [O.tsiResult] s t) ∧
        (Accepts (.tsiClear p 0) p O.tsiCmd s fun t =>
          t.rd O.tsiResult = Status.ok.code ∧ t.otn = { s.otn with standby := [] } ∧ OnlyObjects [O.tsiResult] s t) ∧
        (s.running .otn = true → s.tsiFirstBad s.otn.standby s.inForceNow = none → Accepts (.tsiSwap p 0) p O.tsiCmd s fun t =>
          t.rd O.tsiResult = Status.ok.code ∧ t.rd O.tsiSwapState = 1 ∧ Only [O.tsiResult, O.tsiSwapState] s t) ∧
        (∀ k, s.running .otn = true → s.tsiFirstBad s.otn.standby s.inForceNow = some k → Completes (.tsiSwap p 0) s fun t =>
          t.rd O.tsiErrorKey = k ∧ t.rd O.tsiResult = Status.range.code ∧ t.ended p O.tsiCmd .range ∧
          Only [O.tsiResult, O.tsiErrorKey] s t) ∧
        (s.running .otn = false → Completes (.tsiSwap p 0) s fun t =>
          t.rd O.tsiResult = Status.functionDisabled.code ∧ t.ended p O.tsiCmd .functionDisabled ∧ Only [O.tsiResult] s t)) ∧
      (s.fnState .otn ≠ DISABLED → tsiKeyGood (s.rd O.tsiKey) = true → ∀ active : Bool,
        Accepts (.tsiRead p active 0) p O.tsiCmd s fun t =>
          t.rd O.tsiData = mget (if active then s.otn.active else s.otn.standby) 0 (s.rd O.tsiKey) ∧
          t.rd O.tsiResult = Status.ok.code ∧ Only [O.tsiResult, O.tsiData] s t)) ∧
    (s.tsiPending = true → s.running .otn = true → Completes .tsiSwapped s fun t =>
      t.otn.active = s.otn.standby ∧ t.otn.standby = s.otn.active ∧ t.rd O.tsiSwapState = 0 ∧
      t.rd O.tsiActivePage = 1 - s.rd O.tsiActivePage ∧ t.rd O.tsiSwaps = counted (tyOf O.tsiSwaps) (s.rd O.tsiSwaps) 1) ∧
    (∀ (r : Fin 48) (slot : Nat) (recs : List (List Byte)), s.ringRecords r.val 0x00050001 8 = some (slot, recs) →
      s.fnState .otn ≠ DISABLED → s.tsiPending = false →
      let bad := firstBad (fun x => x.length == 8 && tsiKeyGood (le x 0 4) && tsiDataGood (le x 0 4) (le x 4 4)) recs 0
      (bad = none → Completes (.tsiRingRecords r) s fun t =>
        t.otn = { s.otn with standby := recs.foldl (fun m x => mset m 0 (le x 0 4) (le x 4 4)) s.otn.standby } ∧
        t.host = (s.tookEffect r.val slot .ok (8 * recs.length) 0).host ∧ t.objs = s.objs) ∧
      (∀ n, bad = some n → Completes (.tsiRingRecords r) s fun t => t = s.tookEffect r.val slot .range 0 n))

/-- R147, R192, R193, R198, R210, R219, R220, R221: a frame that a MAC receives is counted by what is wrong with it, or enters its slice; injected
packets and packets of an Evrad egress channel enter theirs. Clauses rest on log entries 6, 47, 48. -/
def Obligations.FramesEnterTheSlices : Prop :=
  ∀ s : State,
    (∀ (port : Fin 96) (frame : List Byte) (good sym : Bool) (bad : List BadRead), let p := port.val
      let ok := good && !(sym && s.rd (O.fecMode p) == 1)
      s.isOtn p = false → s.running .line = true → s.rd (O.portLinkState p) = 3 →
      (s.rd (O.loopback p) = 1 → Completes (.frameReceived port none frame ⟨good, sym⟩ bad) s fun t => t = s) ∧
      (s.rd (O.loopback p) ≠ 1 → (ok = false → Completes (.frameReceived port none frame ⟨good, sym⟩ bad) s fun t =>
        t.rd (O.rxFcsErrors p) = counted (tyOf (O.rxFcsErrors p)) (s.rd (O.rxFcsErrors p)) 1 ∧ Only [O.rxFcsErrors p] s t) ∧
      (ok = true → frame.length + 4 < 64 → Completes (.frameReceived port none frame ⟨good, sym⟩ bad) s fun t =>
        t.rd (O.rxUndersize p) = counted (tyOf (O.rxUndersize p)) (s.rd (O.rxUndersize p)) 1 ∧ Only [O.rxUndersize p] s t) ∧
      (ok = true → 64 ≤ frame.length + 4 → s.rd (O.maxFrame p) < frame.length + 4 →
        Completes (.frameReceived port none frame ⟨good, sym⟩ bad) s fun t =>
          t.rd (O.rxOversize p) = counted (tyOf (O.rxOversize p)) (s.rd (O.rxOversize p)) 1 ∧ Only [O.rxOversize p] s t) ∧
      (ok = true → 64 ≤ frame.length + 4 → frame.length + 4 ≤ s.rd (O.maxFrame p) →
        (s.rd (O.protRole p) = 1 → Completes (.frameReceived port none frame ⟨good, sym⟩ bad) s fun t =>
          t.rd (O.stbyRxFrames p) = counted (tyOf (O.stbyRxFrames p)) (s.rd (O.stbyRxFrames p)) 1 ∧ Only [O.stbyRxFrames p] s t) ∧
        (s.rd (O.protRole p) ≠ 1 → s.rd (O.loopback p) = 2 → Completes (.frameReceived port none frame ⟨good, sym⟩ bad) s fun t =>
          t.rd (O.rxFrames p) = counted (tyOf (O.rxFrames p)) (s.rd (O.rxFrames p)) 1 ∧
          t.rd (O.rxBytes p) = counted (tyOf (O.rxBytes p)) (s.rd (O.rxBytes p)) (frame.length + 4) ∧
          Only [O.rxFrames p, O.rxBytes p] s t) ∧
        (s.rd (O.protRole p) ≠ 1 → s.rd (O.loopback p) ≠ 2 → let sl := s.steer p
          (s.running .parse = false ∨ s.storeFull sl frame.length = true → Completes (.frameReceived port none frame ⟨good, sym⟩ bad) s fun t =>
            t.rd (O.rxOverrun p) = counted (tyOf (O.rxOverrun p)) (s.rd (O.rxOverrun p)) 1 ∧
            t.rd (O.storeFullDrops sl) = counted (tyOf (O.storeFullDrops sl)) (s.rd (O.storeFullDrops sl)) 1 ∧
            Only [O.rxOverrun p, O.storeFullDrops sl] s t) ∧
          (s.running .parse = true → s.storeFull sl frame.length = false → Completes (.frameReceived port none frame ⟨good, sym⟩ bad) s fun t =>
            t.rd (O.rxFrames p) = counted (tyOf (O.rxFrames p)) (s.rd (O.rxFrames p)) 1 ∧
            t.rd (O.rxBytes p) = counted (tyOf (O.rxBytes p)) (s.rd (O.rxBytes p)) (frame.length + 4) ∧
            (s.dispatchRoom sl = true → s.rawOf sl = [] → ∃ k : Pkt,
              mget t.pk.dispatch [] sl = mget s.pk.dispatch [] sl ++ [k] ∧ k.frame = frame ∧ k.port = p ∧ k.slice = sl ∧
              k.id = s.pk.nextId) ∧
            (s.dispatchRoom sl = false ∨ s.rawOf sl ≠ [] → ∃ k : RawPkt,
              t.rawOf sl = s.rawOf sl ++ [k] ∧ k.frame = frame ∧ k.port = p)))))) ∧
    (∀ (port : Fin 96) (q : Fin 512) (frame : List Byte) (good sym : Bool) (bad : List BadRead),
      s.isOtn port.val = true → s.running .line = true →
      s.clientFrames port.val q.val = false → Completes (.frameReceived port (some q) frame ⟨good, sym⟩ bad) s fun t => t = s) ∧
    (∀ (r : Fin 48) (f : Flight) (bad : List BadRead), s.injection r.val 1 = some f →
      let st := s.injectCheck f (decide (f.desc.arg < 96) && s.portExists f.desc.arg)
      let sl := (s.slicesOf f.desc.arg).headD 0
      (st = .ok → s.storeFull sl f.desc.bufLength = false → Completes (.injectPort r bad) s fun t =>
        t.rd (O.hostInjected sl) = counted (tyOf (O.hostInjected sl)) (s.rd (O.hostInjected sl)) 1 ∧
        t.dring r.val = (s.tookEffect r.val f.slot .ok f.desc.bufLength 0).dring r.val) ∧
      (st ≠ .ok → Completes (.injectPort r bad) s fun t => t = s.tookEffect r.val f.slot st f.desc.bufLength 0)) ∧
    (∀ (r : Fin 48) (f : Flight), s.injection r.val 2 = some f →
      let st := s.injectCheck f (decide (f.desc.arg < 2 ^ 41))
      let sl := s.rd (O.dringTarget r.val) % 8
      (st = .ok → (mget s.pk.chanIn [] sl).length < channelRoom → Completes (.injectQueue r) s fun t =>
        t.rd (O.hostInjected sl) = counted (tyOf (O.hostInjected sl)) (s.rd (O.hostInjected sl)) 1 ∧
        (s.rd (O.evradState sl) = 1 → ∃ k : ChanPkt, mget t.pk.chanIn [] sl = mget s.pk.chanIn [] sl ++ [k] ∧
          k.frame = f.data.take f.desc.bufLength) ∧
        t.dring r.val = (s.tookEffect r.val f.slot .ok f.desc.bufLength 0).dring r.val) ∧
      (st ≠ .ok → Completes (.injectQueue r) s fun t => t = s.tookEffect r.val f.slot st f.desc.bufLength 0)) ∧
    (∀ (n : Fin 8) (k : EgPkt) (rest : List EgPkt) (bad : List BadRead), mget s.pk.chanEg [] n.val = k :: rest →
      s.running .parse = true → s.storeFull (8 + n.val) k.frame.length = false → s.dispatchRoom (8 + n.val) = true →
      Completes (.egressSliceInput n bad) s fun t =>
        mget t.pk.chanEg [] n.val = rest ∧ ∃ q : Pkt,
          mget t.pk.dispatch [] (8 + n.val) = mget s.pk.dispatch [] (8 + n.val) ++ [q] ∧ q.port = k.port ∧ q.seq = k.seq ∧
          q.slice = 8 + n.val)

/-- R209 to R213, R215, R216, R226 to R229, R237 to R239: the head of a dispatch queue goes to a free thread; a pass ends with its outcome or an
exception; packets leave the reorder stage in the order of their port, and a straggler gives up its place. Clauses rest on log entries 6, 48, 50. -/
def Obligations.PacketsRunAndKeepTheirOrder : Prop :=
  ∀ s : State,
    (∀ (slice : Fin 16) (bad : List BadRead) (p : Pkt) (rest : List Pkt) (c : Nat), s.running .eng = true →
      mget s.pk.dispatch [] slice.val = p :: rest → s.nextCluster slice.val = some c → s.accepts slice.val c = true →
      Completes (.dispatch slice bad) s fun t =>
        (∃ x : Pass, t.pk.passes = s.pk.passes ++ [x] ∧ x.pkt = p ∧ x.cluster = c ∧ x.start = s.pipe ∧ x.skipped = false) ∧
        (s.rawOf slice.val = [] → mget t.pk.dispatch [] slice.val = rest)) ∧
    (∀ (slice : Fin 16) (bad : List BadRead), s.running .eng = false ∨ mget s.pk.dispatch [] slice.val = [] ∨ s.nextCluster slice.val = none →
      Completes (.dispatch slice bad) s fun t => t = s) ∧
    (∀ (c : Fin 48) (packet : Nat) (res : PassResult) (x : Pass), s.passOf c.val packet = some x →
      (Completes (.passEnd c packet res) s fun t =>
        (∀ y, y ∈ t.pk.passes → y.pkt.id ≠ x.pkt.id) ∧
        t.rd (O.clusterPasses x.cluster) = counted (tyOf (O.clusterPasses x.cluster)) (s.rd (O.clusterPasses x.cluster)) 1) ∧
      (x.pkt.profile = 0 → res.exc = none → res.residence ≤ s.rd O.residenceLimit → dropOf x.pkt.md = false → x.skipped = false →
        Completes (.passEnd c packet res) s fun t =>
        (t.order (reorderKey (stageOf x.pkt.slice) x.pkt.port)).waiting =
          (s.order (reorderKey (stageOf x.pkt.slice) x.pkt.port)).waiting ++
            [{ pkt := x.pkt, trap := decide (trapOf x.pkt.md ≠ 0), ts := {} }]) ∧
      (x.pkt.profile = 0 → res.exc = none → res.residence ≤ s.rd O.residenceLimit → dropOf x.pkt.md = true →
        Completes (.passEnd c packet res) s fun t =>
        t.rd (O.engineDrops x.pkt.slice) = counted (tyOf (O.engineDrops x.pkt.slice)) (s.rd (O.engineDrops x.pkt.slice)) 1) ∧
      (x.misfit = false → x.pkt.profile ≠ 0 → le x.entry 4 2 < res.issue → Completes (.passEnd c packet res) s fun t =>
        t.rd (O.excCount 1) = counted (tyOf (O.excCount 1)) (s.rd (O.excCount 1)) 1) ∧
      (x.misfit = false → x.pkt.profile = 0 ∨ res.issue ≤ le x.entry 4 2 → s.rd O.residenceLimit < res.residence →
        Completes (.passEnd c packet res) s fun t =>
          t.rd (O.excCount 2) = counted (tyOf (O.excCount 2)) (s.rd (O.excCount 2)) 1) ∧
      (x.misfit = true → Completes (.passEnd c packet res) s fun t =>
        t.rd (O.excCount 5) = counted (tyOf (O.excCount 5)) (s.rd (O.excCount 5)) 1) ∧
      (∀ run : Overrun, x.pkt.profile ≠ 0 → x.entry ≠ [] → Completes (.cycleOverrun c packet run) s fun t =>
        (∀ y, y ∈ t.pk.passes → y.pkt.id ≠ x.pkt.id) ∧
        let k := if x.misfit then 5 else 1
        t.rd (O.excCount k) = counted (tyOf (O.excCount k)) (s.rd (O.excCount k)) 1) ∧
      (∀ run : Overrun, Completes (.residenceOverrun c packet run) s fun t =>
        (∀ y, y ∈ t.pk.passes → y.pkt.id ≠ x.pkt.id) ∧
        let k := if x.misfit then 5 else 2
        t.rd (O.excCount k) = counted (tyOf (O.excCount k)) (s.rd (O.excCount k)) 1)) ∧
    (∀ (stage : Fin 8) (port : Fin 96), let k := reorderKey stage.val port.val
      (∀ w : Waiting, (s.order k).waiting.find? (fun w => w.pkt.seq == (s.order k).expected) = some w → s.channelFull w = false →
        Completes (.reorderRelease stage port) s fun t =>
          (s.order k).expected < (t.order k).expected ∧ (∀ x, x ∈ (t.order k).waiting → x.pkt.seq ≠ w.pkt.seq) ∧
          (w.trap = false → w.pkt.slice < 8 → s.rd (O.evradState w.pkt.slice) = 1 →
            mget t.pk.chanIn [] w.pkt.slice = mget s.pk.chanIn [] w.pkt.slice ++ [⟨w.pkt.md, w.pkt.frame⟩]) ∧
          (w.trap = true → s.running .trap = true → s.trapBytes + w.pkt.frame.length ≤ 4194304 →
            t.pk.trap = s.pk.trap ++ [{ pkt := w.pkt, egress := decide (8 ≤ w.pkt.slice) }])) ∧
      (∀ x : Pass, x ∈ s.pk.passes → stageOf x.pkt.slice = stage.val → x.pkt.port = port.val → x.pkt.seq = (s.order k).expected →
        x.skipped = false → Completes (.reorderTimeout stage port) s fun t =>
          (s.order k).expected < (t.order k).expected ∧
          t.rd (O.reorderTimeouts stage.val) = counted (tyOf (O.reorderTimeouts stage.val)) (s.rd (O.reorderTimeouts stage.val)) 1 ∧
          OnlyObjects [O.reorderTimeouts stage.val] s t))

/-- R147, R150, R152, R156, R216 to R218, R409: the MAC sends the frames released to it or discards and counts them, and the trap path delivers its
packets to their rings. Clauses rest on log entries 6, 43, 44, 49. -/
def Obligations.FramesLeave : Prop :=
  ∀ s : State,
    (∀ (port : Fin 96) (f : TxFrame) (rest : List TxFrame), let p := port.val
      s.nextTx p = some (f, rest) →
      (s.rd (O.protRole p) = 1 ∨ s.rd (O.protRole p) = 2 → Completes (.frameTransmit port) s fun t =>
        t.macOf p = rest ∧ t.rd (O.stbyTxDiscards p) = counted (tyOf (O.stbyTxDiscards p)) (s.rd (O.stbyTxDiscards p)) 1 ∧
        OnlyObjects [O.stbyTxDiscards p] s t) ∧
      (s.rd (O.protRole p) ≠ 1 → s.rd (O.protRole p) ≠ 2 →
        (s.rd (O.portLinkState p) ≠ 3 ∨ s.rd (O.loopback p) = 2 ∨
            (s.running .line = false ∧ s.fnState .line ≠ STOPPING) → Completes (.frameTransmit port) s fun t =>
          t.macOf p = rest ∧ t.rd (O.txDiscards p) = counted (tyOf (O.txDiscards p)) (s.rd (O.txDiscards p)) 1 ∧
          OnlyObjects [O.txDiscards p] s t) ∧
        (s.rd (O.portLinkState p) = 3 → s.rd (O.loopback p) = 0 → s.running .line = true ∨ s.fnState .line = STOPPING →
          (s.isOtn p = true → s.clientMapped f.subport = false → s.otn.sending.contains f.subport = false →
            Completes (.frameTransmit port) s fun t => t.macOf p = rest ∧
              t.rd O.subportDrops = counted (tyOf O.subportDrops) (s.rd O.subportDrops) 1 ∧ OnlyObjects [O.subportDrops] s t) ∧
          ((s.isOtn p = false ∨ s.clientMapped f.subport = true ∨ s.otn.sending.contains f.subport = true) →
           Completes (.frameTransmit port) s fun t =>
            t.macOf p = rest ∧ t.rd (O.txFrames p) = counted (tyOf (O.txFrames p)) (s.rd (O.txFrames p)) 1 ∧
            (f.ts.action = 0 → t.out.head? = some (.frame p f.frame false) ∧
              t.rd (O.txBytes p) = counted (tyOf (O.txBytes p)) (s.rd (O.txBytes p)) (f.frame.length + 4)) ∧
            OnlyObjects [O.txFrames p, O.txBytes p, O.tsCaptureDrops] s t)))) ∧
    (∀ port : Fin 96, s.nextTx port.val = none → Completes (.frameTransmit port) s fun t => t = s) ∧
    (∀ (k : Trapped) (rest : List Trapped), s.pk.trap = k :: rest → let c := trapOf k.pkt.md; let n := s.rd (O.trapRing c) - 16
      (s.armedKind (s.rd (O.trapRing c)) 3 = false → Completes .trapDeliver s fun t =>
        t.pk.trap = rest ∧ t.rd (O.trapDrops c) = counted (tyOf (O.trapDrops c)) (s.rd (O.trapDrops c)) 1 ∧
        OnlyObjects [O.trapDrops c] s t) ∧
      (s.armedKind (s.rd (O.trapRing c)) 3 = true → s.rd (O.trapRate c) = 0 → s.rd (O.trapTruncate c) = 0 → s.canSend = true →
        (s.dring n).waitPage = none → s.host.atsEnable = false → (∀ f ∈ (s.dring n).flight, f.fence = false) →
        (cutItem (s.buffers n) (trapHeader k.pkt k.egress false ++ k.pkt.frame)).isSome = true →
        Completes .trapDeliver s fun t =>
          t.pk.trap = rest ∧ t.rd (O.trapPackets c) = counted (tyOf (O.trapPackets c)) (s.rd (O.trapPackets c)) 1 ∧
          OnlyObjects [O.trapPackets c] s t))

/-- R205, R206: the standby chain bank is copied, cleared and swapped by command; a swap that finds no bad stage is pending until the packets in hand
are through, and then the banks exchange their roles. Clauses rest on log entries 6, 19. -/
def Obligations.ChainBanksAreSwapped : Prop :=
  ∀ (s : State) (p : Path),
    (s.gate p O.chainCmd = .pass →
      (s.pk.swapAt ≠ none → Completes (.chainCopy p 0) s fun t =>
        t.rd O.chainResult = Status.busy.code ∧ t.ended p O.chainCmd .busy ∧ Only [O.chainResult] s t) ∧
      (∀ arg : BitVec 24, arg ≠ 0 → Completes (.chainSwap p arg) s fun t =>
        t.rd O.chainResult = Status.range.code ∧ t.ended p O.chainCmd .range ∧ Only [O.chainResult] s t) ∧
      (s.pk.swapAt = none →
        (Accepts (.chainCopy p 0) p O.chainCmd s fun t =>
          (∀ k, k ∈ stageKeys → t.rd k = s.stageObj k) ∧ t.rd O.chainResult = Status.ok.code ∧ Only (O.chainResult :: stageKeys) s t) ∧
        (Accepts (.chainClear p 0) p O.chainCmd s fun t =>
          (∀ k, k ∈ stageKeys → t.rd k = dfltOf k) ∧ t.rd O.chainResult = Status.ok.code ∧ Only (O.chainResult :: stageKeys) s t) ∧
        (chainStages.find? (fun st => s.stageBad st) = none → Accepts (.chainSwap p 0) p O.chainCmd s fun t =>
          t.pk = { s.pk with swapAt := some s.pipe } ∧ t.rd O.chainSwapState = 1 ∧ t.rd O.chainResult = Status.ok.code ∧
          OnlyObjects [O.chainResult, O.chainSwapState] s t) ∧
        (∀ st, chainStages.find? (fun st => s.stageBad st) = some st → Completes (.chainSwap p 0) s fun t =>
          t.rd O.chainErrorStage = (if st < 16 then st else 128 + (st - 16)) ∧ t.rd O.chainResult = Status.range.code ∧
          t.ended p O.chainCmd .range ∧ Only [O.chainResult, O.chainErrorStage] s t))) ∧
    (s.pk.swapAt ≠ none → Completes .chainSwapDone s fun t =>
      (∀ k, k ∈ stageKeys → t.rd k = s.stageObj k ∧ t.stageObj k = s.rd k) ∧ t.pk.swapAt = none ∧ t.rd O.chainSwapState = 0 ∧
      t.rd O.chainActiveBank = 1 - s.rd O.chainActiveBank ∧ t.rd O.chainSwaps = counted (tyOf O.chainSwaps) (s.rd O.chainSwaps) 1)

/-- R232, R233, R235, R236, R247: action profiles are written, read and cleared by command and by ring, and keep their old copy until the hold ends.
Clauses rest on log entries 6, 50. -/
def Obligations.ProfilesAreWrittenInPairs : Prop :=
  ∀ s : State,
    (∀ (p : Path) (arg : BitVec 24), s.gate p O.profCmd = .pass →
      (arg.toNat = 0 ∨ 4096 ≤ arg.toNat → Completes (.profileWrite p arg) s fun t =>
        t.rd O.profResult = Status.range.code ∧ t.ended p O.profCmd .range ∧ Only [O.profResult] s t) ∧
      (0 < arg.toNat → arg.toNat < 4096 →
        (s.mcodeBusy = false → (s.profile arg.toNat).hold = false →
          (profileGood s.pk.active (s.rdB O.profData 64) = true → Accepts (.profileWrite p arg) p O.profCmd s fun t =>
            t.profile arg.toNat = { entry := s.rdB O.profData 64, hold := true, gen := (s.profile arg.toNat).gen + 1 } ∧
            (∀ n, n ≠ arg.toNat → t.profile n = s.profile n) ∧ OnlyObjects [O.profResult] s t) ∧
          (Accepts (.profileClear p arg) p O.profCmd s fun t =>
            t.profile arg.toNat = { entry := [], hold := true, gen := (s.profile arg.toNat).gen + 1 } ∧
            (∀ n, n ≠ arg.toNat → t.profile n = s.profile n) ∧
            OnlyObjects [O.profResult] s t)) ∧
        (s.mcodeBusy = true ∨ (s.profile arg.toNat).hold = true → Completes (.profileWrite p arg) s fun t =>
          t.rd O.profResult = Status.busy.code ∧ t.ended p O.profCmd .busy ∧ Only [O.profResult] s t) ∧
        (Accepts (.profileRead p arg) p O.profCmd s fun t =>
          t.rd O.profData = leNat (s.profile arg.toNat).entry ∧ t.rd O.profPasses = (s.profile arg.toNat).passes ∧
          t.rd O.profIssueCycles = (s.profile arg.toNat).issue ∧ t.rd O.profResidence = (s.profile arg.toNat).residence ∧
          Only [O.profResult, O.profData, O.profPasses, O.profIssueCycles, O.profResidence] s t))) ∧
    (∀ n : Fin 4096, Completes (.profileHoldEnd n) s fun t =>
      t.profile n.val = { s.profile n.val with hold := false } ∧ t.objs = s.objs) ∧
    (∀ (r : Fin 48) (x : Flight), s.isTableRing r.val 0x00070001 = true → s.nextEffect r.val = some x →
      (x.desc.bufLength % 68 ≠ 0 → Completes (.profileRingWrite r) s fun t =>
        t.dring r.val = (s.tookEffect r.val x.slot .range x.desc.bufLength 0).dring r.val ∧ t.pk = s.pk ∧ t.objs = s.objs) ∧
      (x.desc.bufLength = 68 → s.mcodeBusy = false → x.record = 0 → s.profRecordGood (profRecord x.data 0) = true →
        (s.profile (le (profRecord x.data 0) 0 2)).hold = false → Completes (.profileRingWrite r) s fun t =>
          t.profile (le (profRecord x.data 0) 0 2) =
            { entry := (profRecord x.data 0).drop 4, hold := true, gen := (s.profile (le (profRecord x.data 0) 0 2)).gen + 1 } ∧
          t.dring r.val = (s.tookEffect r.val x.slot .ok 68 0).dring r.val ∧ t.objs = s.objs))

/-- R241, R243 to R246: microcode is loaded into the idle banks and switched in cluster by cluster, each once it has drained; a cluster whose bank met a
parity error returns when it is repaired, or goes out of service. Clauses rest on log entries 6, 50. -/
def Obligations.MicrocodeIsLoadedAndSwitched : Prop :=
  ∀ s : State,
    (∀ p : Path, s.gate p O.mcodeCmd = .pass →
      (s.rd O.mcodeState = 1 ∨ s.rd O.mcodeState = 3 → s.pk.staged ≠ none → Accepts (.load p 0) p O.mcodeCmd s fun t =>
        t.rd O.mcodeState = 2 ∧ t.pk = { s.pk with idle := none }) ∧
      (s.rd O.mcodeState = 2 ∨ s.rd O.mcodeState = 4 → Refuses (.load p 0) p O.mcodeCmd s .busy ∧
        Refuses (.switch p 0) p O.mcodeCmd s .busy) ∧
      (s.rd O.mcodeState = 3 → s.badProfile s.pk.idle = none → s.rd (O.clusterState 0) = 1 →
        Accepts (.switch p 0) p O.mcodeCmd s fun t =>
          t.rd O.mcodeState = 4 ∧ t.rd (O.clusterState 0) = 2 ∧ t.pk.turn = 0 ∧ t.pk.active = s.pk.active) ∧
      (s.rd O.mcodeState = 2 ∨ s.rd O.mcodeState = 3 → Accepts (.abort p 0) p O.mcodeCmd s fun t =>
        t.rd O.mcodeState = 1 ∧ t.rd O.mcodeResult = Status.ok.code ∧ t.pk = { s.pk with idle := none })) ∧
    (s.rd O.mcodeState = 2 →
      (s.badProfile s.pk.staged = none → Completes (.mcodeLoaded none) s fun t =>
        t.rd O.mcodeState = 3 ∧ t.rd O.mcodeResult = Status.ok.code ∧ t.pk = { s.pk with idle := s.pk.staged, staged := none }) ∧
      (∀ c : Fin 48, Completes (.mcodeLoaded (some c)) s fun t =>
        t.rd O.mcodeState = 1 ∧ t.rd O.mcodeResult = Status.integrity.code ∧ t.pk = s.pk)) ∧
    (∀ (c : Fin 48) (elapsed : Nat),
      (s.rd O.mcodeState = 4 → s.pk.turn = c.val → s.rd (O.clusterState c.val) = 2 → s.clusterPasses c.val = [] →
        Completes (.clusterSwitch c elapsed) s fun t =>
          t.rd (O.clusterBank c.val) = 1 - s.rd (O.clusterBank c.val) ∧ t.rd (O.clusterState c.val) = 1 ∧
          (c.val = 47 → t.rd O.mcodeState = 3 ∧ t.pk.active = s.pk.idle ∧ t.pk.idle = s.pk.active ∧
            t.rd O.mcodeSwitches = counted (tyOf O.mcodeSwitches) (s.rd O.mcodeSwitches) 1)) ∧
      (s.rd (O.clusterState c.val) = 3 → s.clusterPasses c.val = [] → ¬(s.rd O.mcodeState = 4 ∧ s.pk.turn = c.val) →
        ((mget s.pk.clusters {} c.val).out = false → Completes (.clusterRepairDone c) s fun t =>
          t.rd (O.clusterState c.val) = 1 ∧
          t.rd (O.parityRepairs c.val) = counted (tyOf (O.parityRepairs c.val)) (s.rd (O.parityRepairs c.val)) 1) ∧
        ((mget s.pk.clusters {} c.val).out = true → Completes (.clusterRepairDone c) s fun t => t.rd (O.clusterState c.val) = 4)))

/-- R255, R258, R259, R262, R270, R280: a TBL_CMD INSERT that its table takes stores the entry under the key it names and no other, and records OK and
whether the key was there; an index that is RETIRING is BUSY. A table command while FWD is DISABLED is refused with FUNCTION_DISABLED and recorded;
the statuses while it is STARTING or STOPPING are the model's choice (log entry 26). Clauses rest on log entry 51. -/
def Obligations.TableInsertsStore : Prop :=
  ∀ (s : State) (p : Path) (tid : Fin 8) (arg : BitVec 24) (a : TblArg) (bad : List BadRead), let x := tid.val + 1
    let key := s.rdBe (O.tblKey x) (tblKeyLen x)
    let data := s.rdBe (O.tblData x) (tblDataLen x)
    s.gate p (O.tblCmd x) = .pass →
    (s.fnState .fwd = DISABLED → s.workRefused .fwd = some .functionDisabled) ∧
    (∀ st, s.workRefused .fwd = some st → Completes (.tblInsert p tid ⟨arg, bad⟩) s fun t =>
      t.rd (O.tblStatus x) = st.code ∧ t.rd (O.tblFound x) = 0 ∧ t.ended p (O.tblCmd x) st ∧
      Only [O.tblStatus x, O.tblFound x, O.tblIndexState x] s t) ∧
    (s.workRefused .fwd = none → tblArg x arg (s.rd (O.tblLen x)) = none → Completes (.tblInsert p tid ⟨arg, bad⟩) s fun t =>
      t.rd (O.tblStatus x) = Status.range.code ∧ t.ended p (O.tblCmd x) .range ∧
      Only [O.tblStatus x, O.tblFound x, O.tblIndexState x] s t) ∧
    (s.workRefused .fwd = none → tblArg x arg (s.rd (O.tblLen x)) = some a → (∀ b ∈ bad, b.tid ≠ x) →
      (x = 1 → lpmOk 32 key a.len = true → routeOk data = true → s.fwd.bad4 = [] →
        (mfind s.fwd.v4 (key * 64 + a.len)).isSome = true ∨ s.fwd.v4.length < 8388608 →
        Accepts (.tblInsert p tid ⟨arg, bad⟩) p (O.tblCmd x) s fun t =>
          mfind t.fwd.v4 (key * 64 + a.len) = some data ∧
          (∀ k, k ≠ key * 64 + a.len → mfind t.fwd.v4 k = mfind s.fwd.v4 k) ∧
          t.rd (O.tblFound x) = b2n (mfind s.fwd.v4 (key * 64 + a.len)).isSome ∧ t.rd (O.tblStatus x) = Status.ok.code ∧
          t.rd (O.tblUsed x) = t.fwd.v4.length ∧
          Only [O.tblStatus x, O.tblFound x, O.tblUsed x] { s with fwd := { s.fwd with v4 := t.fwd.v4 } } t) ∧
      (x = 2 → lpmOk 128 key a.len = true → routeOk data = true → s.fwd.bad6 = [] →
        (mfind s.fwd.v6 (key * 256 + a.len)).isSome = true ∨ s.fwd.v6.length < 3145728 →
        Accepts (.tblInsert p tid ⟨arg, bad⟩) p (O.tblCmd x) s fun t =>
          mfind t.fwd.v6 (key * 256 + a.len) = some data ∧
          (∀ k, k ≠ key * 256 + a.len → mfind t.fwd.v6 k = mfind s.fwd.v6 k) ∧
          t.rd (O.tblFound x) = b2n (mfind s.fwd.v6 (key * 256 + a.len)).isSome ∧ t.rd (O.tblStatus x) = Status.ok.code ∧
          t.rd (O.tblUsed x) = t.fwd.v6.length ∧
          Only [O.tblStatus x, O.tblFound x, O.tblUsed x] { s with fwd := { s.fwd with v6 := t.fwd.v6 } } t) ∧
      (x = 3 → s.exactOk a.sub key = true → (a.age = true → s.rd (O.keyWidth a.sub) ≤ 64) → s.slotsUsed + s.slotsOf a.sub ≤ 4194304 →
        Accepts (.tblInsert p tid ⟨arg, bad⟩) p (O.tblCmd x) s fun t =>
          mfind t.fwd.exact (exactKey a.sub key) = some { data := data, age := a.age, hit := true, mark := false } ∧
          (∀ k, k ≠ exactKey a.sub key → mfind t.fwd.exact k = mfind s.fwd.exact k) ∧
          t.rd (O.tblFound x) = b2n (mfind s.fwd.exact (exactKey a.sub key)).isSome ∧
          Only [O.tblStatus x, O.tblFound x, O.tblUsed x, O.subEntries a.sub] { s with fwd := { s.fwd with exact := t.fwd.exact } } t) ∧
      (x = 4 → a.halves ≠ 0 → bridgeOk data = true → s.fwd.half0.length < 2097152 → s.fwd.half1.length < 2097152 →
        Accepts (.tblInsert p tid ⟨arg, bad⟩) p (O.tblCmd x) s fun t =>
          (∀ h, h < 2 → bit a.halves h = true →
            mfind (t.fwd.half h) key = some { data := data, hit := true, mark := false } ∧
            ∀ k, k ≠ key → mfind (t.fwd.half h) k = mfind (s.fwd.half h) k) ∧
          (∀ h, h < 2 → bit a.halves h = false → t.fwd.half h = s.fwd.half h) ∧
          Only [O.tblStatus x, O.tblFound x, O.tblUsed x, O.halfEntries 0, O.halfEntries 1]
            { s with fwd := { s.fwd with half0 := t.fwd.half0, half1 := t.fwd.half1 } } t) ∧
      (5 ≤ x → key < tblIndexes x → indexOk x data = true →
        (s.fwd.idxState x key ≠ 2 → Accepts (.tblInsert p tid ⟨arg, bad⟩) p (O.tblCmd x) s fun t =>
          mfind t.fwd.index (idxKey x key) = some { state := 1, data := data } ∧
          (∀ k, k ≠ idxKey x key → mfind t.fwd.index k = mfind s.fwd.index k) ∧
          t.rd (O.tblIndexState x) = 1 ∧
          Only [O.tblStatus x, O.tblFound x, O.tblUsed x, O.tblIndexState x, O.retiringCount]
            { s with fwd := { s.fwd with index := t.fwd.index } } t) ∧
        (s.fwd.idxState x key = 2 → Completes (.tblInsert p tid ⟨arg, bad⟩) s fun t =>
          t.ended p (O.tblCmd x) .busy ∧ t.rd (O.tblStatus x) = Status.busy.code ∧
          Only [O.tblStatus x, O.tblFound x, O.tblIndexState x] s t)))

/-- R254, R262, R264, R270, R283, R284: DELETE takes out the entry of the key and no other; SEARCH finds the entry, or with LONGEST the longest prefix
of the address; NEXT gives the first entry after its cursor; FLUSH_PORT queues a flush of halves that are not being flushed; RETIRE makes an index
RETIRING, tagged with the epoch. A SEARCH that reads a bad word finds nothing and is counted, and the entry that holds the word is removed, as it is
where a DELETE reads it. Clauses rest on log entry 51. -/
def Obligations.TableCommandsAnswer : Prop :=
  ∀ (s : State) (p : Path) (tid : Fin 8) (arg : BitVec 24) (a : TblArg) (bad : List BadRead), let x := tid.val + 1
    let key := s.rdBe (O.tblKey x) (tblKeyLen x)
    let shown := [O.tblStatus x, O.tblFound x, O.tblData x, O.tblLen x, O.tblIndexState x]
    s.gate p (O.tblCmd x) = .pass → s.workRefused .fwd = none → tblArg x arg (s.rd (O.tblLen x)) = some a →
    (x = 1 → (∀ b ∈ bad, b.tid ≠ x) → lpmOk 32 key a.len = true → Accepts (.tblDelete p tid ⟨arg, bad⟩) p (O.tblCmd x) s fun t =>
      mfind t.fwd.v4 (key * 64 + a.len) = none ∧ (∀ k, k ≠ key * 64 + a.len → mfind t.fwd.v4 k = mfind s.fwd.v4 k) ∧
      t.rd (O.tblFound x) = b2n (mfind s.fwd.v4 (key * 64 + a.len)).isSome ∧
      Only [O.tblStatus x, O.tblFound x, O.tblUsed x] { s with fwd := { s.fwd with v4 := t.fwd.v4 } } t) ∧
    (x = 2 → (∀ b ∈ bad, b.tid ≠ x) → lpmOk 128 key a.len = true → Accepts (.tblDelete p tid ⟨arg, bad⟩) p (O.tblCmd x) s fun t =>
      mfind t.fwd.v6 (key * 256 + a.len) = none ∧ (∀ k, k ≠ key * 256 + a.len → mfind t.fwd.v6 k = mfind s.fwd.v6 k) ∧
      t.rd (O.tblFound x) = b2n (mfind s.fwd.v6 (key * 256 + a.len)).isSome ∧
      Only [O.tblStatus x, O.tblFound x, O.tblUsed x] { s with fwd := { s.fwd with v6 := t.fwd.v6 } } t) ∧
    (x = 3 → s.exactOk a.sub key = true → Accepts (.tblDelete p tid ⟨arg, bad⟩) p (O.tblCmd x) s fun t =>
      mfind t.fwd.exact (exactKey a.sub key) = none ∧ (∀ b ∈ bad, b.tid = 3 → mfind t.fwd.exact b.key = none) ∧
      (∀ k, k ≠ exactKey a.sub key → (∀ b ∈ bad, b.tid = 3 → b.key ≠ k) → mfind t.fwd.exact k = mfind s.fwd.exact k) ∧
      ((∀ b ∈ bad, b.tid ≠ 3) → t.rd (O.tblFound x) = b2n (mfind s.fwd.exact (exactKey a.sub key)).isSome)) ∧
    (x = 4 → (∀ b ∈ bad, b.tid ≠ x) → a.halves ≠ 0 → Accepts (.tblDelete p tid ⟨arg, bad⟩) p (O.tblCmd x) s fun t =>
      (∀ h, h < 2 → bit a.halves h = true →
        mfind (t.fwd.half h) key = none ∧ ∀ k, k ≠ key → mfind (t.fwd.half h) k = mfind (s.fwd.half h) k) ∧
      ∀ h, h < 2 → bit a.halves h = false → t.fwd.half h = s.fwd.half h) ∧
    (5 ≤ x → Completes (.tblDelete p tid ⟨arg, bad⟩) s fun t => t.ended p (O.tblCmd x) .range ∧ t.fwd = s.fwd) ∧
    (∀ d, badOf bad x = [] → x = 1 → a.longest = false → s.fwd.bad4 = [] → lpmOk 32 key a.len = true →
      mfind s.fwd.v4 (key * 64 + a.len) = some d → Accepts (.tblSearch p tid ⟨arg, bad⟩) p (O.tblCmd x) s fun t =>
        t.rd (O.tblFound x) = 1 ∧ t.rd (O.tblData x) = leNat (beBytes (tblDataLen x) d) ∧ Only shown s t) ∧
    (∀ d n, badOf bad x = [] → x = 1 → a.longest = true → s.fwd.bad4 = [] → n ≤ 32 →
      mfind s.fwd.v4 (key4 (key / 2 ^ 32) (prefixOf 32 (key % 2 ^ 32) n) n) = some d →
      (∀ m, n < m → m ≤ 32 → mfind s.fwd.v4 (key4 (key / 2 ^ 32) (prefixOf 32 (key % 2 ^ 32) m) m) = none) →
      Accepts (.tblSearch p tid ⟨arg, bad⟩) p (O.tblCmd x) s fun t =>
        t.rd (O.tblFound x) = 1 ∧ t.rd (O.tblData x) = leNat (beBytes (tblDataLen x) d) ∧ t.rd (O.tblLen x) = n ∧ Only shown s t) ∧
    (∀ d n, badOf bad x = [] → x = 2 → a.longest = true → s.fwd.bad6 = [] → n ≤ 128 →
      mfind s.fwd.v6 (key6 (key / 2 ^ 128) (prefixOf 128 (key % 2 ^ 128) n) n) = some d →
      (∀ m, n < m → m ≤ 128 → mfind s.fwd.v6 (key6 (key / 2 ^ 128) (prefixOf 128 (key % 2 ^ 128) m) m) = none) →
      Accepts (.tblSearch p tid ⟨arg, bad⟩) p (O.tblCmd x) s fun t =>
        t.rd (O.tblFound x) = 1 ∧ t.rd (O.tblData x) = leNat (beBytes (tblDataLen x) d) ∧ t.rd (O.tblLen x) = n ∧ Only shown s t) ∧
    (badOf bad x = [] → x = 3 → s.exactOk a.sub key = true → mfind s.fwd.exact (exactKey a.sub key) = none →
      Accepts (.tblSearch p tid ⟨arg, bad⟩) p (O.tblCmd x) s fun t => t.rd (O.tblFound x) = 0 ∧ Only [O.tblStatus x, O.tblFound x] s t) ∧
    (badOf bad x ≠ [] → x = 3 → s.exactOk a.sub key = true → Accepts (.tblSearch p tid ⟨arg, bad⟩) p (O.tblCmd x) s fun t =>
      t.rd (O.tblFound x) = 0 ∧ (∀ b ∈ bad, b.tid = 3 → mfind t.fwd.exact b.key = none) ∧
      (∀ k, (∀ b ∈ bad, b.tid = 3 → b.key ≠ k) → mfind t.fwd.exact k = mfind s.fwd.exact k) ∧
      t.rd (O.tblParityMisses x) = counted (tyOf (O.tblParityMisses x)) (s.rd (O.tblParityMisses x)) 1) ∧
    (∀ e, badOf bad x = [] → x = 4 → a.halves = 1 → mfind s.fwd.half0 key = some e →
      Accepts (.tblSearch p tid ⟨arg, bad⟩) p (O.tblCmd x) s fun t =>
      t.rd (O.tblFound x) = 1 ∧ t.rd (O.tblData x) = leNat (beBytes (tblDataLen x) e.data) ∧ Only shown s t) ∧
    (∀ e, badOf bad x = [] → 5 ≤ x → key < tblIndexes x → mfind s.fwd.index (idxKey x key) = some e → e.state = 1 ∨ e.state = 2 →
      Accepts (.tblSearch p tid ⟨arg, bad⟩) p (O.tblCmd x) s fun t =>
        t.rd (O.tblFound x) = 1 ∧ t.rd (O.tblData x) = leNat (beBytes (tblDataLen x) e.data) ∧
        t.rd (O.tblIndexState x) = e.state ∧ Only shown s t) ∧
    (∀ lo, lo = (if a.fromStart then 0 else cursorOf x (s.rdBe (O.tblCursor x) (tblCursorLen x)) + 1) →
      (∀ b ∈ bad, b.tid ≠ x) → x = 1 → s.fwd.bad4 = [] →
      (∀ k d, (k, d) ∈ s.fwd.v4 → Rising s.fwd.v4 = true → lo ≤ k → k < 2 ^ 54 → (∀ e ∈ s.fwd.v4, lo ≤ e.1 → k ≤ e.1) →
        Accepts (.tblNext p tid ⟨arg, bad⟩) p (O.tblCmd x) s fun t =>
          t.rd (O.tblFound x) = 1 ∧ t.rd (O.tblKey x) = leNat (beBytes 6 (k / 64)) ∧ t.rd (O.tblLen x) = k % 64 ∧
          t.rd (O.tblData x) = leNat (beBytes 4 d) ∧ t.rd (O.tblCursor x) = leNat (beBytes 7 (k / 64 * 256 + k % 64)) ∧
          t.fwd = s.fwd) ∧
      ((∀ e ∈ s.fwd.v4, e.1 < lo) → Accepts (.tblNext p tid ⟨arg, bad⟩) p (O.tblCmd x) s fun t =>
        t.rd (O.tblFound x) = 0 ∧ Only [O.tblStatus x, O.tblFound x] s t)) ∧
    (x = 4 → a.halves ≠ 0 → a.station < 512 →
      (s.flushing &&& a.halves = 0 → Accepts (.flushPort p tid arg) p (O.tblCmd x) s fun t =>
        t.fwd.flushes = s.fwd.flushes ++ [{ halves := a.halves, station := a.station, static := a.static, ring := none, start := s.pipe }] ∧
        t.rd O.flushBusy = s.flushing ||| a.halves ∧
        Only [O.tblStatus x, O.tblFound x, O.flushBusy] { s with fwd := { s.fwd with flushes := t.fwd.flushes } } t) ∧
      (s.flushing &&& a.halves ≠ 0 → Completes (.flushPort p tid arg) s fun t =>
        t.ended p (O.tblCmd x) .busy ∧ Only [O.tblStatus x, O.tblFound x] s t)) ∧
    (∀ e, 5 ≤ x → key < tblIndexes x → mfind s.fwd.index (idxKey x key) = some e → e.state = 2 ∨ s.fwd.retiring < 65536 →
      Accepts (.retire p tid arg) p (O.tblCmd x) s fun t =>
        mfind t.fwd.index (idxKey x key) = some { e with state := 2, tag := s.fwd.epoch } ∧
        (∀ k, k ≠ idxKey x key → mfind t.fwd.index k = mfind s.fwd.index k) ∧ t.rd (O.tblIndexState x) = 2)

/-- R268, R269, R271, R274 to R276, R280 to R283, R285: learners store what they are asked to, sweeps, each entry at its place in the walk, clear hits,
mark and age out entries that were not hit since the last sweep, a flush takes out the entries of its station that its walk has still to pass, a bad
entry that a learner, a sweep or a flush reads is removed, and an epoch frees the indexes whose epochs have drained. Clauses rest on log entries 6,
51, 52. -/
def Obligations.TablesLearnAgeAndFlush : Prop :=
  ∀ s : State,
    (∀ (half : Fin 2) (r : LearnReq) (l : List LearnReq) (bad : List BadRead), let h := half.val
      s.running .fwd = true → s.fwd.requests h = r :: l → r.station < 512 →
      (s.rd (O.learnMode r.station) = 1 → (∀ b ∈ bad, b.tid = 4 → b.key = r.key) →
        mfind (s.fwd.half h) r.key = none ∨ badOf bad 4 ≠ [] → (s.fwd.half h).length < 2097152 →
        Completes (.learnPerform ⟨half, bad⟩) s fun t =>
          mfind (t.fwd.half h) r.key = some { data := s.learnedWord r.station, hit := true, mark := false } ∧
          (∀ k, k ≠ r.key → mfind (t.fwd.half h) k = mfind (s.fwd.half h) k) ∧ t.fwd.half (1 - h) = s.fwd.half (1 - h) ∧
          t.fwd.requests h = l ∧ t.rd (O.learnQueueDepth h) = l.length ∧
          t.rd (O.halfLearns h) = counted (tyOf (O.halfLearns h)) (s.rd (O.halfLearns h)) 1) ∧
      (∀ e, badOf bad 4 = [] → mfind (s.fwd.half h) r.key = some e →
        (s.rd (O.learnMode r.station) = 1 → agrees e.data r.station = false → staticOf e.data = false →
          Completes (.learnPerform ⟨half, bad⟩) s fun t =>
            mfind (t.fwd.half h) r.key = some { data := s.learnedWord r.station, hit := true, mark := e.mark } ∧
            (∀ k, k ≠ r.key → mfind (t.fwd.half h) k = mfind (s.fwd.half h) k) ∧ t.fwd.requests h = l ∧
            t.rd (O.halfMoves h) = counted (tyOf (O.halfMoves h)) (s.rd (O.halfMoves h)) 1) ∧
        (agrees e.data r.station = true ∨ staticOf e.data = true → Completes (.learnPerform ⟨half, bad⟩) s fun t =>
          t.fwd.half h = s.fwd.half h ∧ t.fwd.requests h = l ∧
          t.rd (O.learnSuperseded h) = counted (tyOf (O.learnSuperseded h)) (s.rd (O.learnSuperseded h)) 1))) ∧
    (∀ w : Fin 3, s.running .fwd = true → (if w.val < 2 then s.rd O.bridgeAgePeriod else s.rd O.exactAgePeriod) ≠ 0 →
      Completes (.sweepStart w) s fun t =>
        mfind t.fwd.sweeps w.val = some { start := s.pipe } ∧
        (w.val < 2 → mfind t.fwd.filter w.val = none) ∧
        (mfind s.fwd.sweeps w.val = none → Only [] { s with fwd := { s.fwd with sweeps := t.fwd.sweeps, filter := t.fwd.filter } } t)) ∧
    (∀ (w : Fin 3) (key : Nat) (bad kb : Bool) (x : AgeSweep), s.running .fwd = true → mfind s.fwd.sweeps w.val = some x →
      key ∈ x.seen ∨ sweepPlace w.val key ≠ s.sweepAt x →
      Completes (.sweepVisit w key bad kb) s fun t => t = s) ∧
    (∀ (half : Fin 2) (key : Nat) (e : BridgeEntry) (x : AgeSweep), let h := half.val; let visit := Instr.sweepVisit (half.castLE (by decide)) key
      s.running .fwd = true → mfind s.fwd.sweeps h = some x → key ∉ x.seen → sweepPlace h key = s.sweepAt x →
      mfind (s.fwd.half h) key = some e →
      (∀ kb, Completes (visit true kb) s fun t =>
        mfind (t.fwd.half h) key = none ∧ ∀ k, k ≠ key → mfind (t.fwd.half h) k = mfind (s.fwd.half h) k) ∧
      (staticOf e.data = true → Completes (visit false false) s fun t =>
        mfind t.fwd.sweeps h = some { x with seen := key :: x.seen } ∧
        Only [] { s with fwd := { s.fwd with sweeps := t.fwd.sweeps } } t) ∧
      (staticOf e.data = false →
        (e.hit = true → Completes (visit false false) s fun t =>
          mfind (t.fwd.half h) key = some { e with hit := false, mark := false } ∧
          ∀ k, k ≠ key → mfind (t.fwd.half h) k = mfind (s.fwd.half h) k) ∧
        (e.hit = false → e.mark = false → Completes (visit false false) s fun t =>
          mfind (t.fwd.half h) key = some { e with mark := true } ∧
          ∀ k, k ≠ key → mfind (t.fwd.half h) k = mfind (s.fwd.half h) k) ∧
        (e.hit = false → e.mark = true → Completes (visit false false) s fun t =>
          mfind (t.fwd.half h) key = none ∧ ∀ k, k ≠ key → mfind (t.fwd.half h) k = mfind (s.fwd.half h) k))) ∧
    (∀ (key : Nat) (e : ExactEntry) (x : AgeSweep), s.running .fwd = true → mfind s.fwd.sweeps 2 = some x → key ∉ x.seen → sweepPlace 2 key = s.sweepAt x →
      mfind s.fwd.exact key = some e → e.age = true →
      (e.hit = true → Completes (.sweepVisit 2 key false false) s fun t =>
        mfind t.fwd.exact key = some { e with hit := false, mark := false }) ∧
      (e.hit = false → e.mark = true → Completes (.sweepVisit 2 key false false) s fun t =>
        mfind t.fwd.exact key = none ∧ ∀ k, k ≠ key → mfind t.fwd.exact k = mfind s.fwd.exact k)) ∧
    (∀ (f : Flush) (l : List Flush) (bad0 bad1 : List BadRead), s.fwd.flushes = f :: l →
      Completes (.flushDone bad0 bad1) s fun t =>
        t.fwd.flushes = l ∧
        (∀ (h k : Nat) (e : BridgeEntry), h < 2 →
          ((k, e) ∈ t.fwd.half h ↔ (k, e) ∈ s.fwd.half h ∧ (∀ b ∈ if h = 0 then bad0 else bad1, b.tid = 4 → b.key ≠ k) ∧
            ¬(bit f.halves h = true ∧ agrees e.data f.station = true ∧ (staticOf e.data = true → f.static = true) ∧
              (s.flushAt f = 0 ∨ s.flushAt f ≤ placeOf h k)))) ∧
        OnlyObjects [O.halfEntries 0, O.halfEntries 1, O.tblUsed 4, O.flushBusy] s t) ∧
    (bit s.pwr.released 1 = false ∨ s.fwd.epoch - s.oldest = 32767 → Completes .epochAdvance s fun t => t = s) ∧
    (bit s.pwr.released 1 = true → s.fwd.epoch - s.oldest ≠ 32767 → Completes .epochAdvance s fun t =>
      t.fwd.epoch = s.fwd.epoch + 1 ∧ t.fwd.period = s.rd O.epochPeriod ∧
      (∀ k e, mfind s.fwd.index k = some e → e.state = 2 → e.tag + 1 < s.stamps.foldl min (s.fwd.epoch + 1) →
        mfind t.fwd.index k = none) ∧
      (s.fwd.index = [] → t.rd O.epoch = (s.fwd.epoch + 1) % 65536 ∧ Only [O.epoch, O.oldestUndrained] { s with fwd := t.fwd } t))

/-- R291, R298, R301, R305: ASC_INSERT queues the row write that gives the entry a hole among the rows of its priority, or rewrites the row that holds
its identity; a full table refuses it. ASC_DELETE queues the clearing of the row that holds the identity. Both answer in the ASC objects. Clauses
rest on log entry 53. -/
def Obligations.AssociativeEntriesAreWritten : Prop :=
  ∀ (s : State) (p : Path) (arg : BitVec 24) (e : AscEntry), let x := arg.toNat % 16
    let rows := (s.ascTable x).rows
    s.gate p O.ascCmd = .pass → s.workRefused .assoc = none → arg.toNat % 2 ^ 23 < 16 → s.ascW x ≠ 0 → s.ascEntry x = some e →
    s.rd (O.holeInterval x) = 0 → (s.ascTable x).due = [] → (s.ascTable x).bad = [] →
    (entryOk e = false →
      Completes (.ascInsert p arg) s (fun t => t.ended p O.ascCmd .range ∧ t.asc = s.asc) ∧
      Completes (.ascDelete p arg) s (fun t => t.ended p O.ascCmd .range ∧ t.asc = s.asc)) ∧
    (entryOk e = true →
      (∀ r, identity rows e = some r → Accepts (.ascInsert p arg) p O.ascCmd s fun t =>
        (t.ascTable x).due = [.write r e false] ∧ (t.ascTable x).rows = rows ∧
        t.rd O.ascRow = r ∧ t.rd O.ascFound = 1 ∧ t.rd O.ascWrites = 1 ∧ t.rd (O.ascEntries x) = s.rd (O.ascEntries x)) ∧
      (identity rows e = none → s.capacityOf x ≤ s.rd (O.ascEntries x) → Completes (.ascInsert p arg) s fun t =>
        t.ended p O.ascCmd .noResource ∧ t.rd O.ascStatus = Status.noResource.code ∧ (t.ascTable x).rows = rows ∧
        (t.ascTable x).due = []) ∧
      (∀ h, identity rows e = none → s.rd (O.ascEntries x) < s.capacityOf x → Rising rows = true → h < s.rowsOf x →
        hole rows h = true → (∀ r ∈ rows, r.1 < h → r.2.prio ≤ e.prio) → (∀ r ∈ rows, h < r.1 → e.prio < r.2.prio) →
        Accepts (.ascInsert p arg) p O.ascCmd s fun t =>
          ∃ g, g ≤ h ∧ hole rows g = true ∧ (∀ r ∈ rows, r.1 < g → r.2.prio ≤ e.prio) ∧ (∀ r ∈ rows, g < r.1 → e.prio < r.2.prio) ∧
            (t.ascTable x).due = [.write g e false] ∧ (t.ascTable x).rows = rows ∧ t.rd O.ascRow = g ∧ t.rd O.ascFound = 0 ∧
            t.rd (O.ascEntries x) = s.rd (O.ascEntries x) + 1 ∧
            t.rd (O.ascInserts x) = counted (tyOf (O.ascInserts x)) (s.rd (O.ascInserts x)) 1) ∧
      (∀ r, identity rows e = some r → Accepts (.ascDelete p arg) p O.ascCmd s fun t =>
        (t.ascTable x).due = [.clear r false] ∧ (t.ascTable x).rows = rows ∧ t.rd O.ascFound = 1 ∧
        t.rd (O.ascEntries x) = s.rd (O.ascEntries x) - 1 ∧
        t.rd (O.ascDeletes x) = counted (tyOf (O.ascDeletes x)) (s.rd (O.ascDeletes x)) 1) ∧
      (identity rows e = none → Accepts (.ascDelete p arg) p O.ascCmd s fun t =>
        (t.ascTable x).due = [] ∧ (t.ascTable x).rows = rows ∧ t.rd O.ascFound = 0 ∧
        t.rd (O.ascEntries x) = s.rd (O.ascEntries x)))

/-- R291 to R295, R302, R305, R307, R308: a search finds the valid matching row with the lowest ROW; READ and NEXT give rows; a row write takes effect
in its update slot; a row that fails its parity check is removed, and a search that meets it misses. Clauses rest on log entries 6, 52, 53. -/
def Obligations.AssociativeSearchesFindTheLowestRow : Prop :=
  ∀ s : State,
    (∀ (p : Path) (arg : BitVec 24), let x := arg.toNat % 16
      s.gate p O.ascCmd = .pass → s.workRefused .assoc = none → arg.toNat % 2 ^ 23 < 16 → s.ascW x ≠ 0 →
      (s.ascTable x).due = [] → (s.ascTable x).bad = [] → Rising (s.ascTable x).rows = true →
      (∀ word r e, s.running .assoc = true → s.ascNum O.ascValue x = some word → (r, e) ∈ (s.ascTable x).rows → e.matches word = true →
        (∀ y ∈ (s.ascTable x).rows, y.2.matches word = true → r ≤ y.1) →
        Accepts (.ascSearch p ⟨arg, false, false, false⟩) p O.ascCmd s (fun t =>
          t.rd O.ascFound = 1 ∧ t.rd O.ascRow = r ∧ t.rd O.ascTag = e.tag ∧ t.rd O.ascPriority = e.prio ∧
          t.rd (O.ascHits x) = counted (tyOf (O.ascHits x)) (s.rd (O.ascHits x)) 1 ∧ t.asc.tables = s.asc.tables) ∧
        ∀ b tb pb : Bool, (b || tb || pb) = true → Accepts (.ascSearch p ⟨arg, b, tb, pb⟩) p O.ascCmd s fun t =>
          t.rd O.ascFound = 0 ∧ (t.ascTable x).bad = [r] ∧ (t.ascTable x).rows = (s.ascTable x).rows ∧
          t.rd (O.parityRemoved x) = counted (tyOf (O.parityRemoved x)) (s.rd (O.parityRemoved x)) 1) ∧
      (∀ word b tb pb, s.ascNum O.ascValue x = some word → (∀ y ∈ (s.ascTable x).rows, y.2.matches word = false) →
        Accepts (.ascSearch p ⟨arg, b, tb, pb⟩) p O.ascCmd s fun t => t.rd O.ascFound = 0 ∧ t.asc.tables = s.asc.tables) ∧
      (∀ e, s.rd O.ascRow < s.rowsOf x → mfind (s.ascTable x).rows (s.rd O.ascRow) = some e →
        Accepts (.ascRead p arg) p O.ascCmd s fun t =>
          t.rd O.ascFound = 1 ∧ t.rd O.ascRow = s.rd O.ascRow ∧ t.rd O.ascTag = e.tag ∧ t.rd O.ascPriority = e.prio ∧
          t.rd O.ascValue = leNat (beBytes 80 (e.value * 2 ^ (640 - s.ascBits x))) ∧
          t.rd O.ascMask = leNat (beBytes 80 (e.mask * 2 ^ (640 - s.ascBits x))) ∧ t.asc = s.asc) ∧
      (s.rowsOf x ≤ s.rd O.ascRow → Completes (.ascRead p arg) s fun t => t.ended p O.ascCmd .range ∧ t.asc = s.asc) ∧
      (∀ r e, bit arg.toNat 23 = true → (r, e) ∈ (s.ascTable x).rows → (∀ y ∈ (s.ascTable x).rows, r ≤ y.1) →
        Accepts (.ascNext p arg) p O.ascCmd s fun t =>
          t.rd O.ascFound = 1 ∧ t.rd O.ascRow = r ∧ t.rd O.ascTag = e.tag ∧ (t.ascTable x).rows = (s.ascTable x).rows) ∧
      ((∀ y ∈ (s.ascTable x).rows, y.1 ≤ s.rd O.ascRow) → bit arg.toNat 23 = false → (s.ascTable x).cursor = none →
        Accepts (.ascNext p arg) p O.ascCmd s fun t => t.rd O.ascFound = 0 ∧ t.asc = s.asc)) ∧
    (∀ (x : Fin 16) (call : EngineCall) (word : Nat), s.running .assoc = true → s.ascW x.val ≠ 0 → Rising (s.ascTable x.val).rows = true →
      (∀ r e, (r, e) ∈ (s.ascTable x.val).rows → e.matches word = true → (∀ y ∈ (s.ascTable x.val).rows, y.2.matches word = true → r ≤ y.1) →
        r ∉ (s.ascTable x.val).bad → (s.ascTable x.val).holds r = true →
        Completes (.assocSearch x call word false false false) s (fun t =>
          t.out.head? = some (.searchResult x.val (some (ascResult r e.tag))) ∧ t.asc.tables = s.asc.tables) ∧
        Completes (.assocSearch x call word true false false) s (fun t =>
          t.out.head? = some (.searchResult x.val none) ∧ (t.ascTable x.val).bad = (s.ascTable x.val).bad ++ [r] ∧
          t.rd (O.ascEntries x.val) = s.rd (O.ascEntries x.val) - 1)) ∧
      ((∀ y ∈ (s.ascTable x.val).rows, y.2.matches word = false) → Completes (.assocSearch x call word false false false) s fun t =>
        t.out.head? = some (.searchResult x.val none) ∧ t.asc.tables = s.asc.tables)) ∧
    (∀ x : Fin 16,
      (∀ r b, (s.ascTable x.val).bad = r :: b → Completes (.rowWrite x false false false) s fun t =>
        mfind (t.ascTable x.val).rows r = none ∧ (∀ k, k ≠ r → mfind (t.ascTable x.val).rows k = mfind (s.ascTable x.val).rows k) ∧
        (t.ascTable x.val).bad = b ∧ (t.ascTable x.val).due = (s.ascTable x.val).due) ∧
      (∀ r e f d, (s.ascTable x.val).bad = [] → (s.ascTable x.val).due = .write r e f :: d → Completes (.rowWrite x false false false) s fun t =>
        mfind (t.ascTable x.val).rows r = some e ∧ (∀ k, k ≠ r → mfind (t.ascTable x.val).rows k = mfind (s.ascTable x.val).rows k) ∧
        (t.ascTable x.val).due = d) ∧
      (∀ a b e f d, (s.ascTable x.val).bad = [] → (s.ascTable x.val).due = .copy a b f :: d → mfind (s.ascTable x.val).rows a = some e →
        Completes (.rowWrite x false false false) s (fun t =>
          mfind (t.ascTable x.val).rows b = some e ∧ (∀ k, k ≠ b → mfind (t.ascTable x.val).rows k = mfind (s.ascTable x.val).rows k) ∧
          (t.ascTable x.val).due = d) ∧
        (a ≠ b → Completes (.rowWrite x true false false) s fun t => mfind (t.ascTable x.val).rows a = none))) ∧
    (∀ (slice : Fin 24) (i : Nat) (e : AscEntry), let x := s.rd (O.sliceTable slice.val); let row := s.rowOfSlice x slice.val i
      x < 16 → s.running .assoc = true → mfind (s.ascTable x).rows row = some e →
      (Completes (.scrubRow slice i false false false) s fun t => (t.ascTable x) = s.ascTable x ∧ OnlyObjects [O.scrubPasses] s t) ∧
      (row ∉ (s.ascTable x).bad → Completes (.scrubRow slice i true false false) s fun t =>
        (t.ascTable x).bad = (s.ascTable x).bad ++ [row] ∧
        ((s.ascTable x).holds row = true →
          t.rd (O.parityRemoved x) = counted (tyOf (O.parityRemoved x)) (s.rd (O.parityRemoved x)) 1))) ∧
    (∀ (slice : Fin 24) (i : Nat) (bad tb pb : Bool), let x := s.rd (O.sliceTable slice.val)
      x < 16 → s.running .assoc = true → mfind (s.ascTable x).rows (s.rowOfSlice x slice.val i) = none →
      Completes (.scrubRow slice i bad tb pb) s fun t => t.asc.tables = s.asc.tables ∧ OnlyObjects [O.scrubPasses] s t)

/-- R266, R267, R286, R306, R312, R316, R360, R377: a descriptor of records takes effect with OK when every record does, with the status and number of
the first that fails, with RANGE when its length is no multiple of a record, and with FUNCTION_DISABLED while its function is. That it waits while
FWD or ASSOC is between its states is the model's choice (log entry 26). Clauses rest on log entries 6, 38. -/
def Obligations.RecordRingsTakeEffect : Prop :=
  ∀ (s : State) (r : Fin 48) (f : Flight), let n := r.val
    let took := fun (t : State) (st : Status) (i : Nat) => (t.dring n).flight = setFlight (s.dring n).flight f.slot fun y =>
      { y with effect := true, status := st.code, length := f.desc.bufLength, result := i }
    s.nextEffect n = some f →
    (∀ (x : Fin 8) (bad : List RecordRead), s.isTableRing n (0x00080001 + x.val) = true →
      (s.fnState .fwd = DISABLED → Completes (.tableRingRecords ⟨r, bad⟩) s fun t => took t .functionDisabled 0 ∧ t.fwd = s.fwd) ∧
      (s.between .fwd = true → f.desc.opcode ≠ 5 → Completes (.tableRingRecords ⟨r, bad⟩) s fun t => t = s) ∧
      (s.workRefused .fwd = none → f.desc.bufLength % recordLen (x.val + 1) ≠ 0 → f.desc.opcode ≠ 3 → f.desc.opcode ≠ 4 →
        Completes (.tableRingRecords ⟨r, bad⟩) s fun t => took t .range 0 ∧ t.fwd = s.fwd) ∧
      (∀ a key data, s.workRefused .fwd = none → x.val = 4 → (∀ b ∈ bad, b.read.tid ≠ 5) → f.desc.opcode = 1 → f.desc.bufLength = 24 → f.data.length = 24 →
        recordOf 5 1 f.data = some (a, key, data) → key < 1048576 → indexOk 5 data = true → s.fwd.idxState 5 key ≠ 2 →
        Completes (.tableRingRecords ⟨r, bad⟩) s fun t =>
          took t .ok 0 ∧ mfind t.fwd.index (idxKey 5 key) = some { state := 1, data := data }) ∧
      (∀ a key data, s.workRefused .fwd = none → x.val = 3 → f.desc.opcode = 5 → f.desc.bufLength = 20 → f.data.length = 20 →
        f.record = 0 → f.busy = false → s.fwd.flushes = [] → recordOf 4 5 f.data = some (a, key, data) → a.halves ≠ 0 → a.station < 512 →
        Completes (.tableRingRecords ⟨r, bad⟩) s fun t =>
          t.fwd.flushes = [{ halves := a.halves, station := a.station, static := a.static, ring := some (n, f.slot, 0), start := s.pipe }] ∧
          (t.dring n).flight = setFlight (s.dring n).flight f.slot fun y => { y with record := 0, busy := true })) ∧
    (∀ x : Fin 16, s.isTableRing n (0x00090000 + x.val) = true →
      (s.fnState .assoc = DISABLED → Completes (.assocRingRecords r) s fun t => took t .functionDisabled 0 ∧ t.asc = s.asc) ∧
      (s.between .assoc = true → Completes (.assocRingRecords r) s fun t => t = s) ∧
      (s.workRefused .assoc = none → s.ascW x.val = 0 ∨ 2 < f.desc.opcode → Completes (.assocRingRecords r) s fun t =>
        took t .range 0 ∧ t.asc = s.asc) ∧
      (s.workRefused .assoc = none → s.ascW x.val ≠ 0 → f.desc.opcode ≤ 2 → f.desc.bufLength = 8 + 40 * s.ascW x.val →
        f.data.length = f.desc.bufLength →
        (be f.data 2 2 ≠ 0 → Completes (.assocRingRecords r) s fun t => took t .range 0 ∧ t.asc = s.asc) ∧
        (∀ (e : AscEntry) (i : Nat), f.desc.opcode = 1 → be f.data 2 2 = 0 → e = { prio := be f.data 0 2, tag := be f.data 4 4, value := be f.data 8 (20 * s.ascW x.val), mask := be f.data (8 + 20 * s.ascW x.val) (20 * s.ascW x.val) } →
          entryOk e = true → (s.ascTable x.val).due = [] → (s.ascTable x.val).bad = [] → s.rd (O.holeInterval x.val) = 0 →
          identity (s.ascTable x.val).rows e = some i → Completes (.assocRingRecords r) s fun t =>
            took t .ok 0 ∧ mfind (t.ascTable x.val).rows i = some e ∧
            ∀ k, k ≠ i → mfind (t.ascTable x.val).rows k = mfind (s.ascTable x.val).rows k))) ∧
    (s.isTableRing n 0x000A0001 = true →
      (s.fnState .buf = DISABLED → Completes (.qbufRingRecords r) s fun t => took t .functionDisabled 0 ∧ t.buf = s.buf) ∧
      (s.fnState .buf ≠ DISABLED → f.desc.bufLength = 8 → f.data.length = 8 → le f.data 0 4 < 1048576 → bits (le f.data 4 4) 15 6 = 0 →
        Completes (.qbufRingRecords r) s fun t => took t .ok 0 ∧ (t.queue (le f.data 0 4)).attr = le f.data 4 4 ∧
          ∀ q, q ≠ le f.data 0 4 → t.queue q = s.queue q) ∧
      (s.fnState .buf ≠ DISABLED → f.desc.bufLength = 16 → f.data.length = 16 → le f.data 0 4 < 1048576 → bits (le f.data 4 4) 15 6 = 0 →
        1048576 ≤ le f.data 8 4 → Completes (.qbufRingRecords r) s fun t =>
          took t .range 1 ∧ (t.queue (le f.data 0 4)).attr = le f.data 4 4)) ∧
    (s.isTableRing n 0x000C0001 = true →
      (s.fnState .sched = DISABLED → Completes (.nodeRingRecords r) s fun t => took t .functionDisabled 0 ∧ t.sched = s.sched) ∧
      (s.fnState .sched ≠ DISABLED → f.desc.bufLength = 16 → f.data.length = 16 → le f.data 1 3 = 0 →
        s.nodeCheck (le f.data 0 1) (le f.data 4 4) (le f.data 8 8) = .ok → Completes (.nodeRingRecords r) s fun t =>
          took t .ok 0 ∧ (t.node (nodeKey (le f.data 0 1) (le f.data 4 4))).record = le f.data 8 8)) ∧
    (s.isTableRing n 0x000D0001 = true →
      (s.fnState .pol = DISABLED → Completes (.polRingRecords r) s fun t => took t .functionDisabled 0 ∧ t.pol = s.pol) ∧
      (∀ c : PolProf, s.fnState .pol ≠ DISABLED → f.desc.bufLength = 8 → f.data.length = 8 → le f.data 6 2 = 0 →
        1 ≤ le f.data 0 4 → le f.data 0 4 < 2097152 → s.polProfile (le f.data 4 2) = some c → Completes (.polRingRecords r) s fun t =>
          took t .ok 0 ∧ (t.policer (le f.data 0 4)).profile = le f.data 4 2 ∧
          ∀ q, q ≠ le f.data 0 4 → t.policer q = s.policer q))

/-- R315, R316, R350, R335 to R338, R352: QBUF_CMD writes and reads a queue's attributes; BPM_CMD lends a free buffer of the smallest pool that fits, in
its next generation, takes it back through its handle, and checks a handle without any change; each records its status. What an engine writes
through a handle it reads back; a rejected handle reads as zeros. Clauses rest on log entries 56, 59. -/
def Obligations.QueueAttributesAndBufferHandles : Prop :=
  ∀ (s : State) (p : Path),
    (s.gate p O.qbufCmd = .pass →
      (s.fnState .buf = DISABLED → Completes (.qbufWrite p 0) s fun t =>
        t.ended p O.qbufCmd .functionDisabled ∧ t.rd O.qbufResult = Status.functionDisabled.code ∧ Only [O.qbufResult] s t) ∧
      (s.fnState .buf ≠ DISABLED → bits (s.rd O.qbufData) 15 6 ≠ 0 → Completes (.qbufWrite p 0) s fun t =>
        t.ended p O.qbufCmd .range ∧ t.rd O.qbufResult = Status.range.code ∧ Only [O.qbufResult] s t) ∧
      (s.fnState .buf ≠ DISABLED → s.rd O.qbufQueue < 1048576 →
        (bits (s.rd O.qbufData) 15 6 = 0 → Accepts (.qbufWrite p 0) p O.qbufCmd s fun t =>
          t.queue (s.rd O.qbufQueue) = { s.queue (s.rd O.qbufQueue) with attr := s.rd O.qbufData } ∧
          (∀ q, q ≠ s.rd O.qbufQueue → t.queue q = s.queue q) ∧ t.rd O.qbufResult = Status.ok.code ∧
          Only [O.qbufResult] { s with buf := t.buf } t) ∧
        (Accepts (.qbufRead p 0) p O.qbufCmd s fun t => let q := s.queue (s.rd O.qbufQueue)
          t.rd O.qbufData = q.attr ∧ t.rd O.qbufState = (if q.refillWait then 2 else b2n q.spilling) ∧ t.rd O.qbufOnchip = q.onchip ∧
          t.rd O.qbufSegments = q.inHbm ∧ t.rd O.qbufAvg = q.avg / 256 ∧
          Only [O.qbufData, O.qbufState, O.qbufOnchip, O.qbufSegments, O.qbufAvg, O.qbufResult] s t))) ∧
    (s.gate p O.bpmCmd = .pass →
      (∀ (arg : BitVec 24), 1 ≤ arg.toNat → arg.toNat ≤ 10240 → s.running .bpm = false → Completes (.bpmAlloc p arg) s fun t =>
        t.ended p O.bpmCmd .noResource ∧ t.rd O.bpmResult = Status.noResource.code) ∧
      (s.fnState .bpm = DISABLED → Completes (.bpmFree p 0) s (fun t => t.ended p O.bpmCmd .functionDisabled ∧ Only [O.bpmResult] s t) ∧
        Completes (.bpmCheck p 0) s (fun t => t.ended p O.bpmCmd .functionDisabled ∧ Only [O.bpmResult] s t))) ∧
    (s.fnState .bpm ≠ DISABLED → Rising s.bpm.mem = true → ∀ (h : BitVec 32) (n i offset : Nat) (d : List Byte), s.checkHandle h.toNat false = (0, n, i) →
      offset + d.length ≤ poolBytes n →
      let u := s.engineRequest (.write h offset d)
      u.out.head? = some (.pool .ok h.toNat []) ∧
      (u.engineRequest (.read h offset d.length)).out.head? = some (.pool .ok h.toNat d)) ∧
    (s.fnState .bpm ≠ DISABLED → ∀ (h : BitVec 32) (kind n i offset len : Nat), s.checkHandle h.toNat false = (kind, n, i) → kind ≠ 0 →
      (s.engineRequest (.read h offset len)).out.head? = some (.pool (rejectStatus kind) h.toNat (zeros len))) ∧
    (s.gate p O.bpmCmd = .pass → s.fnState .bpm ≠ DISABLED →
      (∀ (arg : BitVec 24) (n : Nat), 1 ≤ arg.toNat → n < 8 → arg.toNat ≤ poolBytes n → (∀ r, r < n → poolBytes r < arg.toNat) →
        (∀ i, s.running .bpm = true → s.poolFreeOf n ≠ 0 → i < s.poolTotal n → (s.poolBuf n i).used = false →
          Accepts (.bpmAlloc p arg) p O.bpmCmd s fun t =>
            ∃ j, j < s.poolTotal n ∧ (s.poolBuf n j).used = false ∧
              t.poolBuf n j = { gen := ((s.poolBuf n j).gen + 1) % 16, used := true } ∧ t.rd O.bpmHandle = t.handleOf n j ∧
              (∀ i, i ≠ j → t.poolBuf n i = s.poolBuf n i) ∧ t.rd O.bpmResult = Status.ok.code ∧
              Only [O.bpmHandle, O.bpmResult, O.poolLow n] { s with bpm := t.bpm } t) ∧
        (s.poolFreeOf n = 0 → Completes (.bpmAlloc p arg) s fun t =>
          t.ended p O.bpmCmd .noResource ∧ t.rd O.bpmResult = Status.noResource.code ∧
          t.rd (O.allocFails n) = counted (tyOf (O.allocFails n)) (s.rd (O.allocFails n)) 1 ∧ Only [O.allocFails n, O.bpmResult] s t)) ∧
      (∀ arg : BitVec 24, arg = 0 ∨ 10240 < arg.toNat → Completes (.bpmAlloc p arg) s fun t =>
        t.ended p O.bpmCmd .range ∧ Only [O.bpmResult] s t) ∧
      (∀ n i, s.checkHandle (s.rd O.bpmHandle) true = (0, n, i) →
        Accepts (.bpmFree p 0) p O.bpmCmd s (fun t =>
          t.poolBuf n i = { s.poolBuf n i with used := false } ∧ (∀ k, k ≠ n * 65536 + i → mget t.bpm.bufs {} k = mget s.bpm.bufs {} k) ∧
          Only [O.bpmResult] { s with bpm := t.bpm } t) ∧
        Accepts (.bpmCheck p 0) p O.bpmCmd s (fun t => t.rd O.bpmResult = Status.ok.code ∧ Only [O.bpmResult] s t)) ∧
      (∀ kind n i, s.checkHandle (s.rd O.bpmHandle) true = (kind, n, i) → kind ≠ 0 →
        Completes (.bpmFree p 0) s (fun t =>
          t.ended p O.bpmCmd (rejectStatus kind) ∧ t.bpm = s.bpm ∧ t.rd O.bpmResult = (rejectStatus kind).code ∧
          t.rd (O.rangeRejects - 1 + kind) = counted (tyOf (O.rangeRejects - 1 + kind)) (s.rd (O.rangeRejects - 1 + kind)) 1) ∧
        Completes (.bpmCheck p 0) s (fun t => t.ended p O.bpmCmd (rejectStatus kind) ∧ Only [O.bpmResult] s t))) ∧
    (∀ n i, s.bpm.layout = [8192, 4096, 2048, 1024, 512, 256, 128, 51] → n < 8 → i < s.poolTotal n → (s.poolBuf n i).gen < 16 →
      ((s.poolBuf n i).used = true → s.checkHandle (s.handleOf n i) true = (0, n, i)) ∧
      ((s.poolBuf n i).used = false → s.checkHandle (s.handleOf n i) true = (4, n, i)))

/-- R318 to R323, R325, R348: a SPILLING queue's oldest 8 cells of TAIL become a segment on the next channel; a written segment is in HBM; stored
segments are read in order, queues taking turns, and join HEAD in order, and free their segment; a trim is reported once; the flush time of a
light-trap ring completes the descriptor that holds records. Clauses rest on log entries 6, 55, 57. -/
def Obligations.SegmentsSpillAndRefill : Prop :=
  ∀ (s : State) (q : Nat),
    ((s.queue q).spilling = false ∨ (s.queue q).tail < 8 → Completes (.segmentWriteIssue q) s fun t => t = s) ∧
    (∀ c, (s.queue q).spilling = true → 8 ≤ (s.queue q).tail → s.nextChannel = some c → s.writeAllowed q = true →
      Completes (.segmentWriteIssue q) s fun t =>
        (∃ id, t.queue q = { s.queue q with
            tail := (s.queue q).tail - 8, blocked := (s.queue q).blocked - 1, segs := (s.queue q).segs ++ [{ id := id, phase := .writing }] } ∧
          (mget s.buf.fresh 0 c < 786432 → id = c * 1048576 + mget s.buf.fresh 0 c)) ∧
        (∀ j, j ≠ q → t.queue j = s.queue j) ∧ t.buf.lastChan = c ∧ Only [] { s with buf := t.buf } t) ∧
    ((s.queue q).spilling = true → 8 ≤ (s.queue q).tail → s.writeAllowed q = false → Completes (.segmentWriteIssue q) s fun t =>
      (t.queue q).segs = (s.queue q).segs ∧ (t.queue q).tail = (s.queue q).tail ∧ (t.queue q).blocked = max (s.queue q).blocked ((s.queue q).tail / 8) ∧
      t.rd (O.spillBlocked (s.queue q).bufProfile) =
        (if (s.queue q).blocked < (s.queue q).tail / 8 then counted (tyOf (O.spillBlocked (s.queue q).bufProfile))
          (s.rd (O.spillBlocked (s.queue q).bufProfile)) ((s.queue q).tail / 8 - (s.queue q).blocked)
        else s.rd (O.spillBlocked (s.queue q).bufProfile))) ∧
    (∀ id, { id := id, phase := .writing } ∈ (s.queue q).segs → Completes (.segmentWriteDone q id) s fun t =>
      t.queue q = { s.queue q with segs := setPhase (s.queue q).segs id .stored } ∧ (∀ j, j ≠ q → t.queue j = s.queue j) ∧
      Only [O.segmentsWritten (s.queue q).bufProfile] { s with buf := t.buf } t) ∧
    (∀ g : Seg, (s.queue q).segs.find? (fun g => g.phase != .reading && g.phase != .read) = some g →
      (g.phase = .stored → s.running .buf = true → s.running .hbm = true → s.channelReads g.channel = true →
        (s.queue q).head + 8 * (s.queue q).incoming < s.rd (O.refillTarget (s.queue q).bufProfile) →
        ((s.queue q).segs.filter fun g => g.phase == .reading).length < 32 → s.refillOf (s.queue q) = some g ∧
        ((q, s.queue q) ∈ s.buf.queues → s.refillTurn.isSome = true) ∧ (s.refillTurn = some q → Completes (.segmentReadIssue q) s fun t =>
          t.queue q = { s.queue q with segs := setPhase (s.queue q).segs g.id .reading } ∧ (∀ j, j ≠ q → t.queue j = s.queue j) ∧
          t.buf.turn = q + 1 ∧ Only [] { s with buf := t.buf } t)) ∧
      (g.phase = .writing → Completes (.segmentReadIssue q) s fun t => t = s)) ∧
    (s.refillTurn ≠ some q → Completes (.segmentReadIssue q) s fun t => t = s) ∧
    (∀ (id : Nat) (err : HbmErr) (b : Seg) (l : List Seg), (∀ x ∈ b :: l, x.id ≠ id) → b.phase ≠ .read → (∀ x ∈ (s.queue q).pkts, x.lost = false) →
      (s.queue q).segs = { id := id, phase := .reading } :: b :: l → Completes (.segmentReadDone q id .clean err) s fun t =>
        t.queue q = { s.queue q with segs := b :: l, head := (s.queue q).head + 8 } ∧ (∀ j, j ≠ q → t.queue j = s.queue j) ∧
        mget t.buf.freed [] (id / 1048576) = mget s.buf.freed [] (id / 1048576) ++ [id % 1048576] ∧
        t.rd (O.segmentsRead (s.queue q).bufProfile) =
          counted (tyOf (O.segmentsRead (s.queue q).bufProfile)) (s.rd (O.segmentsRead (s.queue q).bufProfile)) 1) ∧
    (∀ (id : Nat) (err : HbmErr) (b : Seg) (l : List Seg), b.id ≠ id → b.phase ≠ .read → (∀ x ∈ (s.queue q).pkts, x.lost = false) →
      (s.queue q).segs = b :: l → { id := id, phase := .reading } ∈ l → Completes (.segmentReadDone q id .clean err) s fun t =>
        t.queue q = { s.queue q with segs := setPhase (s.queue q).segs id .read } ∧ ∀ j, j ≠ q → t.queue j = s.queue j) ∧
    (∀ (ch : Fin 64) (x : Nat × Nat × Nat), s.buf.trims.find? (fun t => t.1 == ch.val) = some x → Completes (.trimDone ch) s fun t =>
      t.buf = { s.buf with trims := s.buf.trims.erase x } ∧ Only [] { s with buf := t.buf } t) ∧
    (∀ (r : Fin 48) (f : Flight), s.rd (O.dringKind r.val) = 5 → (s.buffers r.val).head? = some f →
      (f.length = 0 → Completes (.ltFlushTimeExpiry r) s fun t => t = s) ∧
      (f.length ≠ 0 → Completes (.ltFlushTimeExpiry r) s fun t =>
        (t.dring r.val).flight = setFlight (s.dring r.val).flight f.slot (fun y =>
          { y with effect := true, status := Status.ok.code, length := f.length, result := f.length / 160 }) ∧
        (∀ n, n ≠ r.val → t.dring n = s.dring n) ∧ Only [] { s with host := t.host } t))

/-- R19, R317, R322, R341 to R344, R354, R361, R362, R366, R372: a scheduler takes the head of the queue that it picked, never one of lower precedence;
the meter and ingress admission place or drop a packet; core cells close, cross the core and are released in order, and a missing one is given up.
Clauses rest on log entries 6, 54, 58. -/
def Obligations.PacketsCrossTheTDie : Prop :=
  ∀ s : State,
    (∀ (k c : Nat) (u : State), s.pick k = some (c, u) →
      c ∈ s.children k ∧ s.eligible 6 c = true ∧
      (s.committed c = false → ∀ d ∈ s.children k, s.eligible 6 d = true → s.committed d = false) ∧
      ∀ d ∈ s.children k, s.eligible 6 d = true → s.committed d = s.committed c → (s.node c).prio ≤ (s.node d).prio) ∧
    (∀ (turn : PickTurn) (path : List Nat) (u : State) (x : QPkt) (l : List QPkt), let k := turn.scheduler; let q := path.getLastD 0 % 2 ^ 20
      s.running .sched = true → s.running .buf = true → s.schedHeld k.val = false →
      State.descend 6 s.refreshNodes k.val = some (path, u) → (u.queue q).pkts = x :: l → (∀ y ∈ l, y.lost = false) →
      (k.val < 8 ∨ s.rd (O.evradState k.val) = 1) →
      Completes (.schedulerPick turn) s fun t =>
        (t.queue q).pkts = l ∧ t.rd O.eccCorrected = counted (tyOf O.eccCorrected) (s.rd O.eccCorrected) (min turn.corrected (x.cells * 32)) ∧
        (turn.bad = true → t.rd O.eccDrops = counted (tyOf O.eccDrops) (s.rd O.eccDrops) 1 ∧ t.swc = s.swc ∧ t.pk = s.pk) ∧ t.rd (O.schedPackets k.val) = counted (tyOf (O.schedPackets k.val)) (s.rd (O.schedPackets k.val)) 1 ∧
        t.rd (O.schedBytes k.val) = counted (tyOf (O.schedBytes k.val)) (s.rd (O.schedBytes k.val)) x.frame.length) ∧
    (∀ turn : PickTurn, s.running .sched = false ∨ s.running .buf = false ∨ s.schedHeld turn.scheduler.val = true →
      Completes (.schedulerPick turn) s fun t => t = s) ∧
    (∀ (n : Fin 8) (ecc : Ecc) (part : Fin 2) (x : ChanPkt) (l : List ChanPkt), mget s.pk.chanIn [] n.val = x :: l →
      policerOf x.md = 0 →
      (s.sched.iqDevices ≤ destOf x.md → Completes (.meter n ecc part) s fun t =>
        mget t.pk.chanIn [] n.val = l ∧ t.rd O.iqRangeDrops = counted (tyOf O.iqRangeDrops) (s.rd O.iqRangeDrops) 1 ∧
        Only [O.iqRangeDrops] { s with pk := t.pk, ev := t.ev } t) ∧
      (∀ q h, q = s.sched.iqBase + (n.val * s.sched.iqDevices + destOf x.md) * 8 + tcOf x.md →
        h = s.buildHeader x.md (colourOf x.md) x.frame → destOf x.md < s.sched.iqDevices → s.running .buf = true →
        Rising s.buf.queues = true → (s.node (nodeKey 5 q)).attached = true → (s.queue q).session = none →
        averaged (s.queue q) s.pipe (s.rd (O.ewmaWeight (s.queue q).congProfile)) <
          s.rd (key (0x7500 + (s.queue q).congProfile) (3 + 3 * min (hdrColour h) 2)) * 256 →
        (s.queue q).depth + cellsOf x.frame.length ≤ s.rd (O.queueLimit (s.queue q).bufProfile) →
        cellsOf x.frame.length ≤ s.cellsFor q → Completes (.meter n ecc part) s fun t =>
          mget t.pk.chanIn [] n.val = l ∧
          (t.queue q).pkts = (s.queue q).pkts ++ [{ hdr := h, frame := x.frame, cells := cellsOf x.frame.length }] ∧
          (t.queue q).attr = (s.queue q).attr ∧ (t.queue q).segs = (s.queue q).segs ∧
          (t.queue q).head + (t.queue q).tail = (s.queue q).head + (s.queue q).tail + cellsOf x.frame.length) ∧
      (s.running .buf = false → destOf x.md < s.sched.iqDevices →
        (s.queue (s.sched.iqBase + (n.val * s.sched.iqDevices + destOf x.md) * 8 + tcOf x.md)).session = none →
        Completes (.meter n ecc part) s fun t =>
          mget t.pk.chanIn [] n.val = l ∧ t.rd O.stoppedDrops = counted (tyOf O.stoppedDrops) (s.rd O.stoppedDrops) 1 ∧ t.buf = s.buf)) ∧
    (∀ i o : Fin 16,
      ((s.staging i.val o.val).open_ = [] → Completes (.cellCloseTimeout i o) s fun t => t = s) ∧
      ((s.staging i.val o.val).open_ ≠ [] → Completes (.cellCloseTimeout i o) s fun t =>
        t.staging i.val o.val = { closed := (s.staging i.val o.val).closed ++
            [{ input := i.val, output := o.val, seq := (s.staging i.val o.val).next, frags := (s.staging i.val o.val).open_,
               order := s.swc.nextOrd, since := 0 }], open_ := [], next := ((s.staging i.val o.val).next + 1) % 1024 } ∧
        t.rd (O.inFillBytes i.val) = counted (tyOf (O.inFillBytes i.val)) (s.rd (O.inFillBytes i.val))
          (256 - fragBytes (s.staging i.val o.val).open_) ∧ Only [O.inFillBytes i.val] { s with swc := t.swc } t)) ∧
    (∀ (i : Fin 16) (c : CoreCell), let m := (i.val + s.coreSlot % 16) % 16
      s.running .swc = true → s.voq m ((m + s.coreSlot % 16) % 16) = [] → s.cellToSend i.val m = some c →
      Completes (.coreCellSend i) s fun t =>
        (t.staging i.val c.output).closed = (s.staging i.val c.output).closed.tail ∧
        t.voq m c.output = s.voq m c.output ++ [{ c with since := s.pipe }] ∧
        t.rd (O.inCells i.val) = counted (tyOf (O.inCells i.val)) (s.rd (O.inCells i.val)) 1) ∧
    (∀ (i : Fin 16) (c : CoreCell) (l : List CoreCell), let m := (i.val + s.coreSlot % 16) % 16
      let o := (m + s.coreSlot % 16) % 16
      s.fnState .swc = STOPPING → s.voq m o = c :: l → c.since < s.pipe → o ∉ s.swc.holding → s.reseqHeld o < 256 →
      c.input < 16 →
      Completes (.coreCellSend i) s fun t =>
        t.voq m o = l ∧ (t.reseqOf o c.input).held = (s.reseqOf o c.input).held ++ [{ c with since := (s.reseqOf o c.input).cycles }] ∧
        OnlyObjects [O.reseqOccupancy o, O.reseqPeak o] s t) ∧
    (∀ (o i : Fin 16) (c : CoreCell),
      (s.reseqOf o.val i.val).held.find? (fun c => c.seq == (s.reseqOf o.val i.val).expected) = some c → s.coreDrains = true →
      (mget s.swc.fifo [] o.val).length < 64 →
      (o.val < 8 → s.running .fab = false → Completes (.coreOutputRelease o i) s fun t =>
        mget t.swc.fifo [] o.val = mget s.swc.fifo [] o.val ++ [c] ∧
        (t.reseqOf o.val i.val).expected = ((s.reseqOf o.val i.val).expected + 1) % 1024 ∧
        (t.reseqOf o.val i.val).held = (s.reseqOf o.val i.val).held.erase c ∧
        t.rd (O.outCells o.val) = counted (tyOf (O.outCells o.val)) (s.rd (O.outCells o.val)) 1) ∧
      (8 ≤ o.val → mget s.swc.fifo [] o.val = [] → (∀ f ∈ c.frags, f.last = none) → Completes (.coreOutputRelease o i) s fun t =>
        (t.reseqOf o.val i.val).expected = ((s.reseqOf o.val i.val).expected + 1) % 1024 ∧
        (t.reseqOf o.val i.val).held = (s.reseqOf o.val i.val).held.erase c ∧
        t.rd (O.outCells o.val) = counted (tyOf (O.outCells o.val)) (s.rd (O.outCells o.val)) 1 ∧ t.buf = s.buf)) ∧
    (∀ o i : Fin 16, s.coreDrains = true → s.missedLong (s.reseqOf o.val i.val) = true → Completes (.reseqTimeout o i) s fun t =>
        (t.reseqOf o.val i.val).expected = ((s.reseqOf o.val i.val).expected + 1) % 1024 ∧
        (t.reseqOf o.val i.val).held = (s.reseqOf o.val i.val).held ∧
        t.rd O.coreCellsLost = counted (tyOf O.coreCellsLost) (s.rd O.coreCellsLost) 1) ∧
    (∀ o i : Fin 16, s.coreDrains = false ∨ s.missedLong (s.reseqOf o.val i.val) = false → Completes (.reseqTimeout o i) s fun t => t = s)

/-- R358 to R360, R365, R367, R369, R378: NODE_CMD WRITE stores the record that it checked, and a record that breaks a rule of R360 is refused and
changes nothing; SHAPE_CMD writes and reads a profile; a backlogged queue left out of its fair share breaks FAIR. Clauses rest on log entries 6, 59,
60. -/
def Obligations.NodesAndShapersAreRecorded : Prop :=
  ∀ (s : State) (p : Path),
    (∀ (arg : BitVec 24), let level := arg.toNat
      let n := s.rd O.nodeNumber
      let v := s.rd O.nodeData
      let refused := fun (st : Status) => Completes (.nodeWrite p arg) s fun t =>
        t.ended p O.nodeCmd st ∧ t.rd O.nodeResult = st.code ∧ Only [O.nodeResult] s t
      s.gate p O.nodeCmd = .pass →
      (s.fnState .sched = DISABLED → refused .functionDisabled) ∧
      (s.fnState .sched ≠ DISABLED →
        (level < 1 ∨ 5 < level ∨ levelNodes level ≤ n ∨ bits v 8 1 ≠ 0 ∨ parentOk level (bits v 63 44) = false ∨
          (bit v 0 = true ∧ bits v 40 29 = 0) ∨ (level ≠ 5 ∧ bits v 12 9 ≠ 0) → refused .range) ∧
        (1 ≤ level → level ≤ 5 → n < levelNodes level → bits v 8 1 = 0 → parentOk level (bits v 63 44) = true →
          (level = 5 ∨ bits v 12 9 = 0) →
          (bit v 0 = true → bits v 40 29 ≠ 0 → 3 ≤ level → (s.node (nodeKey (level - 1) (bits v 63 44))).attached = false → refused .range) ∧
          (bit v 0 = false → s.children (nodeKey level n) ≠ [] → s.otherRoot level (s.node (nodeKey level n)).parent (bits v 63 44) = false →
            refused .busy) ∧
          (level = 5 → bit v 0 = true → bits v 40 29 ≠ 0 → (s.node (nodeKey 4 (bits v 63 44))).attached = true → s.children (nodeKey 5 n) = [] →
            treeRule s.sched.iqBase s.sched.iqDevices n (s.treeOf 6 5 (bits v 63 44)) = true →
            s.sched.limit < s.reserved - (s.queue n).reserve + s.reserveFor s.sched.reserves n v → refused .noResource) ∧
          (s.nodeCheck level n v = .ok → Accepts (.nodeWrite p arg) p O.nodeCmd s fun t =>
            (t.node (nodeKey level n)).record = v ∧ (∀ k, k ≠ nodeKey level n → (t.node k).record = (s.node k).record) ∧
            (∀ q, (t.queue q).reserve = if level = 5 ∧ q = n then s.reserveFor s.sched.reserves n v else (s.queue q).reserve) ∧
            t.rd O.nodeResult = Status.ok.code)) ∧
        (1 ≤ level → level ≤ 5 → n < levelNodes level → Accepts (.nodeRead p arg) p O.nodeCmd s fun t =>
          t.rd O.nodeData = (s.node (nodeKey level n)).record ∧ (∀ k, (t.node k).record = (s.node k).record) ∧
          (level ≠ 5 → t.rd O.nodeFlags = 0) ∧ (level = 5 → bit (t.rd O.nodeStatus) 4 = (s.queue n).refillWait)))) ∧
    (∀ arg : BitVec 24, s.gate p O.shapeCmd = .pass → s.fnState .sched ≠ DISABLED →
      (65536 ≤ arg.toNat ∨ arg = 0 ∨ (s.rd O.shapePir ≠ 0 ∧ s.rd O.shapePir < s.rd O.shapeCir) → Completes (.shapeWrite p arg) s fun t =>
        t.ended p O.shapeCmd .range ∧ t.rd O.shapeResult = Status.range.code ∧ Only [O.shapeResult] s t) ∧
      (arg.toNat < 65536 → arg ≠ 0 → s.rd O.shapePir = 0 ∨ s.rd O.shapeCir ≤ s.rd O.shapePir →
        Accepts (.shapeWrite p arg) p O.shapeCmd s fun t =>
          t.shape arg.toNat = { cir := s.rd O.shapeCir, cbs := s.rd O.shapeCbs, pir := s.rd O.shapePir, pbs := s.rd O.shapePbs,
                                adj := s.rdS O.shapeLenAdj } ∧
          (∀ n, n ≠ arg.toNat → t.shape n = s.shape n) ∧ t.rd O.shapeResult = Status.ok.code) ∧
      (arg.toNat < 65536 → Accepts (.shapeRead p arg) p O.shapeCmd s fun t => let x := s.shape arg.toNat
        t.rd O.shapeCir = x.cir ∧ t.rd O.shapeCbs = x.cbs ∧ t.rd O.shapePir = x.pir ∧ t.rd O.shapePbs = x.pbs ∧
        t.rd O.shapeLenAdj = ofS32 x.adj ∧
        Only [O.shapeCir, O.shapeCbs, O.shapePir, O.shapePbs, O.shapeLenAdj, O.shapeUsers, O.shapeResult] s t)) ∧
    (∀ q : Nat, s.running .sched = true → s.refreshNodes.queueEligible q = true → s.refreshNodes.committed (nodeKey 5 q) = false →
      Completes (.fairWindowExpiry q) s fun t =>
        bit (t.queue q).flags 2 = true ∧ t.rd O.fairBreaks = counted (tyOf O.fairBreaks) (s.rd O.fairBreaks) 1 ∧
        (t.queue q).pkts = (s.queue q).pkts) ∧
    (∀ q : Nat, s.running .sched = false → Completes (.fairWindowExpiry q) s fun t => t = s)

/-- R371 to R377, R379, R445, R448: POL_CMD assigns a profile and fills both buckets, PPROF_CMD checks and stores a profile, both read back what they
hold; a policer meters a packet red when both its buckets are short of it, and the walker refreshes an old extension policer. Clauses rest on log
entries 6, 59, 61. -/
def Obligations.PolicersMeterByTheirProfiles : Prop :=
  ∀ (s : State) (p : Path),
    (∀ arg : BitVec 24, let n := arg.toNat
      s.gate p O.polCmd = .pass → s.fnState .pol ≠ DISABLED →
      (n = 0 ∨ 4194304 ≤ n → Completes (.polWrite p arg) s fun t =>
        t.ended p O.polCmd .range ∧ t.rd O.polResult = Status.range.code ∧ Only [O.polResult] s t) ∧
      (2097152 ≤ n → n < 4194304 → s.qifUp (n % 2) = false → Completes (.polWrite p arg) s fun t =>
        t.ended p O.polCmd .functionDisabled ∧ Only [O.polResult] s t) ∧
      (∀ f : PolProf, s.polProfile (s.rd O.polProfile) = some f → 1 ≤ n →
        (n < 2097152 → Accepts (.polWrite p arg) p O.polCmd s fun t =>
          t.policer n = { profile := s.rd O.polProfile, tc := f.cbs * byteUnits, tp := f.pbs * byteUnits, time := s.pipe } ∧
          (∀ m, m ≠ n → t.policer m = s.policer m) ∧ t.rd O.polResult = Status.ok.code ∧
          Only [O.polResult] { s with pol := t.pol } t) ∧
        (2097152 ≤ n → n < 4194304 → s.qifUp (n % 2) = true → Accepts (.polWrite p arg) p O.polCmd s fun t =>
          t.policer n = { profile := s.rd O.polProfile, tc := f.cbs * 256, tp := f.pbs * 256, time := s.pipe / 64 % 4294967296 } ∧
          (∀ m, m ≠ n → t.policer m = s.policer m) ∧ (mfind t.pol.dirty n).isSome = true)) ∧
      (∀ (f : PolProf) (ecc : Ecc) (part : Fin 2), 1 ≤ n → n < 2097152 → s.polProfile (s.policer n).profile = some f →
        Accepts (.polRead p ⟨arg, ecc, part⟩) p O.polCmd s fun t =>
        t.rd O.polProfile = (s.policer n).profile ∧
        t.rd O.polCbal = (refillBuckets (s.policer n) f false s.pipe).tc / byteUnits ∧
        t.rd O.polPbal = (refillBuckets (s.policer n) f false s.pipe).tp / byteUnits ∧
        Only [O.polProfile, O.polCbal, O.polPbal, O.polResult] s t) ∧
      (∀ (f : PolProf) (part : Fin 2), 2097152 ≤ n → n < 4194304 → s.qifUp (n % 2) = true → s.polProfile (s.policer n).profile = some f →
        Accepts (.polRead p ⟨arg, .clean, part⟩) p O.polCmd s fun t =>
          t.rd O.polProfile = (s.policer n).profile ∧ t.pol = s.pol ∧
          t.rd O.polCbal = (refillBuckets (s.policer n) f true (s.pipe / 64 % 4294967296)).tc / 256 ∧
          t.rd O.polPbal = (refillBuckets (s.policer n) f true (s.pipe / 64 % 4294967296)).tp / 256)) ∧
    (∀ arg : BitVec 24, s.gate p O.pprofCmd = .pass → s.fnState .pol ≠ DISABLED → arg.toNat < 65536 →
      (arg = 0 ∨ (s.rd O.pprofMode = 0 ∧ (s.rd O.pprofPir = 0 ∨ s.rd O.pprofPir < s.rd O.pprofCir ∨ s.rd O.pprofCoupled = 1)) →
        Completes (.pprofWrite p arg) s fun t => t.ended p O.pprofCmd .range ∧ Only [O.pprofResult] s t) ∧
      (arg ≠ 0 → s.rd O.pprofMode ≠ 0 ∨ (s.rd O.pprofPir ≠ 0 ∧ s.rd O.pprofCir ≤ s.rd O.pprofPir ∧ s.rd O.pprofCoupled ≠ 1) →
        Accepts (.pprofWrite p arg) p O.pprofCmd s fun t =>
          t.polProfile arg.toNat = some
            { mode := s.rd O.pprofMode, aware := s.rd O.pprofAware == 1, coupled := s.rd O.pprofCoupled == 1,
              cir := s.rd O.pprofCir, cbs := s.rd O.pprofCbs, pir := s.rd O.pprofPir, pbs := s.rd O.pprofPbs, adj := s.rdS O.pprofLenAdj,
              pass := s.rd O.pprofRedAction == 1 } ∧
          (∀ m, m ≠ arg.toNat → t.polProfile m = s.polProfile m) ∧ Only [O.pprofResult] { s with pol := t.pol } t) ∧
      (∀ f : PolProf, s.polProfile arg.toNat = some f → Accepts (.pprofRead p arg) p O.pprofCmd s fun t =>
        t.rd O.pprofMode = f.mode ∧ t.rd O.pprofAware = b2n f.aware ∧ t.rd O.pprofCoupled = b2n f.coupled ∧ t.rd O.pprofCir = f.cir ∧
        t.rd O.pprofCbs = f.cbs ∧ t.rd O.pprofPir = f.pir ∧ t.rd O.pprofPbs = f.pbs ∧ t.rd O.pprofLenAdj = ofS32 f.adj ∧
        t.rd O.pprofRedAction = b2n f.pass ∧ t.pol = s.pol)) ∧
    (∀ (n : Fin 8) (ecc : Ecc) (part : Fin 2) (x : ChanPkt) (l : List ChanPkt) (f : PolProf), let i := policerOf x.md
      let y := refillBuckets (s.policer i) f false s.pipe
      let b := polLength f x.frame.length * byteUnits
      mget s.pk.chanIn [] n.val = x :: l → s.running .pol = true → i ≠ 0 → i < 2097152 → s.polProfile (s.policer i).profile = some f →
      y.tc < b → y.tp < b →
      f.pass = false → Completes (.meter n ecc part) s fun t =>
        t.rd O.polRed = counted (tyOf O.polRed) (s.rd O.polRed) 1 ∧ t.rd O.polRedDrops = counted (tyOf O.polRedDrops) (s.rd O.polRedDrops) 1 ∧
        t.policer i = y ∧ mget t.pk.chanIn [] n.val = l ∧ t.buf = s.buf ∧ Only [O.polRed, O.polRedDrops] { s with pk := t.pk, pol := t.pol, ev := t.ev } t) ∧
    (∀ (f : PolProf) (x : Policer) (colour b : Nat), f.aware = false → f.mode = 0 →
      (x.tp < b → meter f x colour b = (2, x)) ∧
      (b ≤ x.tp → x.tc < b → meter f x colour b = (1, { x with tp := x.tp - b })) ∧
      (b ≤ x.tp → b ≤ x.tc → meter f x colour b = (0, { x with tp := x.tp - b, tc := x.tc - b }))) ∧
    (∀ (n : Nat) (part : Fin 2), let now := s.pipe / 64 % 4294967296
      let accesses := fun (t : State) (k : Nat) =>
        t.rd (O.qifAccesses (n % 2)) = counted (tyOf (O.qifAccesses (n % 2))) (s.rd (O.qifAccesses (n % 2))) k
      2097152 ≤ n → n < 4194304 → s.qifUp (n % 2) = true →
      (∀ f : PolProf, s.polProfile (s.policer n).profile = some f → 1073741824 < (now + 4294967296 - (s.policer n).time) % 4294967296 →
        Completes (.policerWalk ⟨n, .clean, part⟩) s fun t =>
          t.policer n = refillBuckets (s.policer n) f true now ∧ mfind t.pol.dirty n = none ∧ accesses t 2) ∧
      ((now + 4294967296 - (s.policer n).time) % 4294967296 ≤ 1073741824 → Completes (.policerWalk ⟨n, .clean, part⟩) s fun t =>
        t.pol = s.pol ∧ accesses t 1) ∧
      (part = 1 → Completes (.policerWalk ⟨n, .uncorrectable, part⟩) s fun t =>
        t.policer n = { s.policer n with profile := 0, time := now } ∧ mfind t.pol.dirty n = none ∧ accesses t 2)) ∧
    (∀ visit : PolVisit, visit.policer < 2097152 → Completes (.policerWalk visit) s fun t => t = s)

/-- R383 to R387, R394, R395, R397, R398: framing aligns a lane and carries RX_OK, XOFF and the in-band beacon; a cell is checked, held in its stream
and released in order; a gap that times out is given up; rebuilt packets enter the core, streams taking turns. Clauses rest on log entries 6, 63,
64. -/
def Obligations.FabricCellsAreReceivedInOrder : Prop :=
  ∀ s : State,
    (∀ (lane : Fin 144) (framing : BitVec 64), let f := lane.val
      let w := framing.toNat
      let good := bits w 63 56 = 0xB8 ∧ bits w 7 0 = crc8 ((beBytes 8 w).take 7)
      (s.laneHears f = false → Completes (.framingReceived lane framing) s fun t => t = s) ∧
      (s.laneHears f = true → ¬good → Completes (.framingReceived lane framing) s fun t =>
        t.flane f = { s.flane f with good := 0, bad := min ((s.flane f).bad + 1) 3, aligned := (s.flane f).aligned && decide ((s.flane f).bad < 2) } ∧
        (∀ j, j ≠ f → t.flane j = s.flane j) ∧ Only [] { s with fab := t.fab } t) ∧
      (s.laneHears f = true → good → Completes (.framingReceived lane framing) s fun t =>
        (t.flane f).good = min ((s.flane f).good + 1) 3 ∧ (t.flane f).bad = 0 ∧
        (t.flane f).aligned = ((s.flane f).aligned || decide (2 ≤ (s.flane f).good)) ∧
        (t.flane f).rxOk = bit w 50 ∧ (t.flane f).xoff = bit w 49 ∧
        (bit w 54 = true → s.fabLive = true →
          (bits w 53 51 = planeOfLane f → (t.plane (planeOfLane f)).missIn = 0 ∧ bit (t.rd (O.planePaths (planeOfLane f))) 0 = true) ∧
          (bits w 53 51 ≠ planeOfLane f → t.rd (O.beaconMismatches (planeOfLane f)) =
            counted (tyOf (O.beaconMismatches (planeOfLane f))) (s.rd (O.beaconMismatches (planeOfLane f))) 1)))) ∧
    (∀ (lane : Fin 144) (header : BitVec 128) (payload : List Byte), let g := groupOfLane lane.val
      let source := cellGet header 106 96
      let seq := cellGet header 95 80
      let x := s.rxStream g source
      let c : RxCell := { seq := seq, valid := cellGet header 79 71, cont := bit header.toNat 70, start := cellGet header 69 61,
                          payload := payload, time := s.pipe }
      (s.laneHears lane.val = false ∨ (s.flane lane.val).aligned = false ∨ s.fabLive = false →
        Completes (.cellReceived lane header payload) s fun t => t = s) ∧
      (s.laneHears lane.val = true → (s.flane lane.val).aligned = true → s.fabLive = true →
        (cellGet header 31 0 ≠ cellCrc header payload → Completes (.cellReceived lane header payload) s fun t =>
          t.rd (O.rxCrcErrors g) = counted (tyOf (O.rxCrcErrors g)) (s.rd (O.rxCrcErrors g)) 1 ∧ Only [O.rxCrcErrors g] s t) ∧
        (cellGet header 31 0 = cellCrc header payload → cellGet header 117 107 ≠ s.myDevice →
          Completes (.cellReceived lane header payload) s fun t =>
            t.rd (O.rxDiscards g) = counted (tyOf (O.rxDiscards g)) (s.rd (O.rxDiscards g)) 1 ∧ Only [O.rxDiscards g] s t) ∧
        (cellGet header 31 0 = cellCrc header payload → cellGet header 127 124 = 4 → cellGet header 56 32 = 0 → cellGet header 120 118 = g →
          cellGet header 117 107 = s.myDevice → cellGet header 60 58 = planeOfLane lane.val →
          (4096 ≤ s.reasm g → Completes (.cellReceived lane header payload) s fun t =>
            t.rd (O.reasmOverflows g) = counted (tyOf (O.reasmOverflows g)) (s.rd (O.reasmOverflows g)) 1 ∧ Only [O.reasmOverflows g] s t) ∧
          (∀ e, s.reasm g < 4096 → bit header.toNat 57 = false → x.expected = some e →
            (4095 < (seq + 65536 - e) % 65536 → Completes (.cellReceived lane header payload) s fun t =>
              t.rd (O.lateCells g) = counted (tyOf (O.lateCells g)) (s.rd (O.lateCells g)) 1 ∧ Only [O.lateCells g] s t) ∧
            ((seq + 65536 - e) % 65536 ≤ 4095 → seq ≠ e → (∀ y ∈ x.held, y.seq ≠ seq ∧ y.seq ≠ e) →
              Completes (.cellReceived lane header payload) s fun t =>
                t.rxStream g source = { x with held := x.held ++ [c] } ∧ (∀ j, j ≠ source → t.rxStream g j = s.rxStream g j) ∧
                t.rd (O.rxCells g) = counted (tyOf (O.rxCells g)) (s.rd (O.rxCells g)) 1) ∧
            (seq = e → e < 65536 → x.held = [] → x.skip = false → x.partial_ ≠ [] → bit header.toNat 70 = true →
              Completes (.cellReceived lane header payload) s fun t =>
                (t.rxStream g source).expected = some ((e + 1) % 65536) ∧ (t.rxStream g source).held = [] ∧
                (t.rxStream g source).ready = x.ready ++ (cutPackets (x.partial_ ++ payload.take c.valid) 16).1 ∧
                (t.rxStream g source).partial_ = (cutPackets (x.partial_ ++ payload.take c.valid) 16).2))))) ∧
    (∀ (g : Fin 8) (source : Fin 2048), let x := s.rxStream g.val source.val
      (∀ e, s.fabLive = true → x.expected = some e → x.held ≠ [] → (∀ y ∈ x.held, y.seq ≠ (e + 1) % 65536) →
        Completes (.fabReseqTimeout g source) s fun t =>
          (t.rxStream g.val source.val).expected = some ((e + 1) % 65536) ∧ (t.rxStream g.val source.val).held = x.held ∧
          (t.rxStream g.val source.val).partial_ = [] ∧ (t.rxStream g.val source.val).ready = x.ready ∧
          t.rd (O.reseqLost g.val) = counted (tyOf (O.reseqLost g.val)) (s.rd (O.reseqLost g.val)) 1) ∧
      (x.held = [] → Completes (.fabReseqTimeout g source) s fun t => t = s) ∧
      (s.streamTurn g.val ≠ some source.val → Completes (.reassemblyRelease g source) s fun t => t = s) ∧
      (∀ y l, x.ready = y :: l →
        (s.inputTakes g.val y = true ↔
          ∀ o, s.coreOutput (8 + g.val) y.hdr = some o → s.coreRoom (8 + g.val) o y.frame.length = true) ∧
        (s.inputTakes g.val y = true → (s.streamTurn g.val).isSome = true) ∧
        (s.inputTakes g.val y = false → Rising s.fab.rx = true → s.streamTurn g.val ≠ some source.val) ∧
        (s.fabLive = true → s.streamTurn g.val = some source.val →
          Completes (.reassemblyRelease g source) s fun t =>
            t.rxStream g.val source.val = { x with ready := l } ∧ mget t.fab.turn 0 g.val = source.val + 1 ∧
            t.rd (O.rxPackets g.val) = counted (tyOf (O.rxPackets g.val)) (s.rd (O.rxPackets g.val)) 1 ∧
            (s.coreOutput (8 + g.val) y.hdr = none →
              t.rd O.coreMisroutes = counted (tyOf O.coreMisroutes) (s.rd O.coreMisroutes) 1 ∧ t.swc = s.swc)))) ∧
    (∀ f : Nat, s.laneHears f = true ↔ s.flaneLocked f = true ∧ s.rd (O.prbsMode (laneIdx f)) = 0) ∧
    (∀ (x : RxStream) (c : RxCell), x.skip = false → x.partial_ ≠ [] → x.lose.2 = 1 ∧
      (c.cont = true → bytesToCome x.partial_ ≤ 256 → (x.lose.1.take c).2 = 1) ∧
      (c.cont = true → 256 < bytesToCome x.partial_ → (x.lose.1.take c).2 = 0))

/-- R386, R390 to R392, R396, R398, R400 to R402: the open cell of a stream closes with fill bytes, a closed cell joins the queue of the next usable
lane, beacons leave on every lane that runs no pattern, and a plane joins, fails when every watched path has missed six beacons, waits, returns, or
is taken out. Clauses rest on log entries 6, 63, 64. -/
def Obligations.FabricSendsAndWatchesItsPlanes : Prop :=
  ∀ s : State,
    (∀ (g : Fin 8) (dest : Fin 2048), let x := s.txStream g.val dest.val
      (x.bytes = [] ∨ s.fabLive = false → Completes (.fabCellCloseTimeout g dest) s fun t => t = s) ∧
      (x.bytes ≠ [] → x.bytes.length ≤ 256 → s.fabLive = true →
        Completes (.fabCellCloseTimeout g dest) s fun t =>
          (∃ c : FabCell, t.waitingCells g.val = s.waitingCells g.val ++ [c] ∧ c.dest = dest.val ∧ c.seq = x.next ∧ c.valid = x.bytes.length ∧
            c.payload.take c.valid = x.bytes ∧ c.payload.length = 256 ∧ c.sync = !x.begun ∧ c.prio = x.prio ∧ c.start = x.start) ∧
          t.txStream g.val dest.val = { x with bytes := [], cont := false, start := 0x1FF, prio := 0, next := (x.next + 1) % 65536, begun := true } ∧
          t.rd (O.txFillBytes g.val) = counted (tyOf (O.txFillBytes g.val)) (s.rd (O.txFillBytes g.val)) (256 - x.bytes.length) ∧
          Only [O.txFillBytes g.val] { s with fab := t.fab } t)) ∧
    (∀ (g : Fin 8) (c : FabCell) (l : List FabCell), s.waitingCells g.val = c :: l →
      (s.nextLane g.val = none → Completes (.fabCellSend g) s fun t => t = s) ∧
      (∀ k, s.nextLane g.val = some k → s.running .fab = false ∨ l ≠ [] ∨ mget s.swc.fifo [] g.val = [] → Completes (.fabCellSend g) s fun t =>
        t.waitingCells g.val = l ∧ (t.flane (rotationLane g.val k)).queue = (s.flane (rotationLane g.val k)).queue ++ [c] ∧
        mget t.fab.rotate 0 g.val = (k + 1) % 18 ∧ Only [] { s with fab := t.fab } t)) ∧
    (∀ g k : Nat, s.nextLane g = some k → k < 18 ∧ s.laneUsable (rotationLane g k) = true ∧ (s.flane (rotationLane g k)).queue.length < 8) ∧
    (s.running .fab = true → Completes .beaconSend s fun t =>
      t.fab = { s.fab with beacons := (s.fab.beacons + 1) % 65536 } ∧ t.objs = s.objs ∧
      t.out.length = s.out.length + ((List.range 144).filter fun f => s.rd (O.prbsMode (laneIdx f)) == 0).length) ∧
    (s.running .fab = false → Completes .beaconSend s fun t => t = s) ∧
    (∀ (plane : Fin 6) (frame : BitVec 32), let p := plane.val
      let w := frame.toNat
      (s.fabLive = true → s.sideWatched p = true → bits w 31 24 = 0xE5 → bits w 7 0 = crc8 ((beBytes 4 w).take 3) →
        (bits w 23 21 = p → Completes (.sidebandBeacon plane frame) s fun t =>
          (t.plane p).missSide = 0 ∧ bit (t.rd (O.planePaths p)) 1 = true ∧
          (s.rd (O.planeState p) = 3 → (s.plane p).missIn < 6 → t.rd (O.planeState p) = 4 ∧ (t.plane p).waitEnd = some (s.pclk + s.rd O.fabWtr)) ∧
          (s.rd (O.planeState p) = 2 → t.rd (O.planeState p) = 2)) ∧
        (bits w 23 21 ≠ p → Completes (.sidebandBeacon plane frame) s fun t =>
          t.rd (O.beaconMismatches p) = counted (tyOf (O.beaconMismatches p)) (s.rd (O.beaconMismatches p)) 1 ∧ Only [O.beaconMismatches p] s t)) ∧
      (s.fabLive = false ∨ s.sideWatched p = false ∨ bits w 31 24 ≠ 0xE5 ∨ bits w 7 0 ≠ crc8 ((beBytes 4 w).take 3) →
        Completes (.sidebandBeacon plane frame) s fun t => t = s)) ∧
    (∀ (plane : Fin 6) (sideband : Bool), let p := plane.val
      let misses := if sideband then O.sidebandMisses p else O.inbandMisses p
      (s.fabLive = false → Completes (.beaconMiss plane sideband) s fun t => t = s) ∧
      (s.fabLive = true → sideband = false ∨ s.sideWatched p = true →
        Completes (.beaconMiss plane sideband) s (fun t =>
          t.rd misses = counted (tyOf misses) (s.rd misses) 1 ∧
          t.plane p = (if s.rd (O.planeState p) = 2 ∨ s.rd (O.planeState p) = 4 then t.plane p
            else if sideband then { s.plane p with missSide := min ((s.plane p).missSide + 1) 6 }
            else { s.plane p with missIn := min ((s.plane p).missIn + 1) 6 })) ∧
        (s.rd (O.planeState p) = 4 → Completes (.beaconMiss plane sideband) s fun t =>
          t.rd (O.planeState p) = 3 ∧ (t.plane p).waitEnd = none) ∧
        (s.rd (O.planeState p) = 2 → (if sideband then (s.plane p).missSide = 5 ∧ 6 ≤ (s.plane p).missIn
            else (s.plane p).missIn = 5 ∧ (s.sideWatched p = false ∨ 6 ≤ (s.plane p).missSide)) →
          Completes (.beaconMiss plane sideband) s fun t =>
            t.rd (O.planeState p) = 3 ∧ bit (t.rd O.sprayPlanes) p = false ∧ t.rd (O.lastFailTime p) = s.pclk ∧
            t.rd (O.planeFailures p) = counted (tyOf (O.planeFailures p)) (s.rd (O.planeFailures p)) 1 ∧
            (∀ i, i < 24 → (t.flane (24 * p + i)).queue = []) ∧ (t.plane p).window = some (s.pipe + 2048)))) ∧
    (∀ plane : Fin 6, let p := plane.val
      (s.rd (O.planeState p) = 4 → Completes (.wtrExpiry plane) s fun t =>
        t.rd (O.planeState p) = 2 ∧ bit (t.rd O.sprayPlanes) p = true ∧ (t.plane p).waitEnd = none) ∧
      (s.rd (O.planeState p) ≠ 4 → Completes (.wtrExpiry plane) s fun t => t = s) ∧
      (s.rd (O.planeState p) = 1 → s.planeClean p = true → Completes (.joinComplete plane) s fun t =>
        t.rd (O.planeState p) = 2 ∧ bit (t.rd O.sprayPlanes) p = true) ∧
      (s.rd (O.planeState p) ≠ 1 ∨ s.planeClean p = false → Completes (.joinComplete plane) s fun t => t = s) ∧
      ((s.plane p).window = none → Completes (.removalWindowEnd plane) s fun t => t = s) ∧
      ((s.plane p).window.isSome = true → (∀ e ∈ s.fab.rx, e.2.held = []) → Completes (.removalWindowEnd plane) s fun t =>
        t.plane p = { s.plane p with window := none } ∧ t.fab.rx = s.fab.rx) ∧
      (∀ (g source : Nat) (x : RxStream) (c : RxCell) (e : Nat), (s.plane p).window.isSome = true → g < 8 → source < 2048 →
        s.fab.rx = [(g * 2048 + source, x)] → x.held = [c] → x.expected = some e → c.seq = (e + 1) % 65536 →
        Completes (.removalWindowEnd plane) s fun t =>
          (t.plane p).window = none ∧ (t.rxStream g source).held = [] ∧ (t.rxStream g source).expected = some ((c.seq + 1) % 65536) ∧
          t.rd (O.reseqLost g) = counted (tyOf (O.reseqLost g)) (s.rd (O.reseqLost g)) 1)) ∧
    (∀ (p : Path) (plane : Fin 6) (value : BitVec 8), s.gate p (O.planeAdmin plane.val) = .pass →
      (1 < value.toNat → Refuses (.planeAdmin p plane value) p (O.planeAdmin plane.val) s .range) ∧
      (value.toNat ≤ 1 → s.fabLive = false → Accepts (.planeAdmin p plane value) p (O.planeAdmin plane.val) s fun t =>
        t.rd (O.planeAdmin plane.val) = value.toNat ∧ Only [O.planeAdmin plane.val] s t) ∧
      (s.fabLive = true → s.rd (O.planeAdmin plane.val) ≠ value.toNat →
        (value = 1 → Accepts (.planeAdmin p plane value) p (O.planeAdmin plane.val) s fun t =>
          t.rd (O.planeAdmin plane.val) = 1 ∧ t.rd (O.planeState plane.val) = 5 ∧ (t.plane plane.val).waitEnd = none) ∧
        (value = 0 → Accepts (.planeAdmin p plane value) p (O.planeAdmin plane.val) s fun t =>
          t.rd (O.planeAdmin plane.val) = 0 ∧ t.rd (O.planeState plane.val) = 1)))

/-- R409 to R416, R418 to R422: the keeper's grant, RELINQUISH and ROLE_CMD decide which protected ports carry frames; a promotion passes through
SWITCHING and ends at SWITCHOVER_ACTIVE; losing READY demotes every protected port at once. Clauses rest on log entries 6, 65. -/
def Obligations.ProtectionRolesFollow : Prop :=
  ∀ s : State,
    (∀ level : Bool,
      (s.rd O.keepGrantLevel = b2n level → Completes (.keepGrantChange level) s fun t => t = s) ∧
      (s.rd O.keepGrantLevel ≠ b2n level → s.running .prot = false → Completes (.keepGrantChange level) s fun t =>
        t.rd O.keepGrantLevel = b2n level ∧ Only [O.keepGrantLevel] s t) ∧
      (s.rd O.keepGrantLevel ≠ b2n level → s.running .prot = true → Completes (.keepGrantChange level) s fun t =>
        t.rd O.keepGrantLevel = b2n level ∧
        (level = true → s.rd O.protWaiting = 1 → t.rd O.protWaiting = 0 ∧ t.prot.waitEnd = none) ∧
        ∀ p, p < 96 → s.rd (O.protMode p) = 1 →
          (level = true → s.prot.ready = true → s.rd (O.protRole p) = 1 → t.rd (O.protRole p) = 2) ∧
          (level = false → s.rd (O.protRole p) = 2 ∨ s.rd (O.protRole p) = 3 → t.rd (O.protRole p) = 1))) ∧
    (Completes .keepGrantGlitch s fun t =>
      t.rd O.grantGlitches = counted (tyOf O.grantGlitches) (s.rd O.grantGlitches) 1 ∧ Only [O.grantGlitches] s t) ∧
    (∀ (p : Fin 96) (gap : Nat),
      (s.rd (O.protRole p.val) = 2 → s.running .prot = true ∨ s.fnState .prot = STOPPING → 2048 + s.rd O.gapIdle ≤ gap →
        Completes (.switchoverActive p gap) s fun t =>
        t.rd (O.protRole p.val) = 3 ∧ t.rd (O.lastGap p.val) = 2048 + s.rd O.gapIdle ∧
        t.rd (O.portSwitchovers p.val) = counted (tyOf (O.portSwitchovers p.val)) (s.rd (O.portSwitchovers p.val)) 1 ∧
        Only [O.protRole p.val, O.lastGap p.val, O.portSwitchovers p.val] s t) ∧
      (s.rd (O.protRole p.val) ≠ 2 ∨ gap < 2048 + s.rd O.gapIdle → Completes (.switchoverActive p gap) s fun t => t = s)) ∧
    (∀ p : Path, s.gate p O.protRelinquish = .pass →
      (s.running .prot = false →
        Accepts (.relinquishSet p 0) p O.protRelinquish s (fun t =>
          t.prot = { s.prot with forced := true } ∧ Only [] { s with prot := t.prot } t) ∧
        Accepts (.relinquishClear p 0) p O.protRelinquish s (fun t =>
          t.prot = { s.prot with forced := false } ∧ Only [] { s with prot := t.prot } t)) ∧
      (s.running .prot = true → s.prot.ready = true → Accepts (.relinquishSet p 0) p O.protRelinquish s fun t =>
        t.prot.ready = false ∧ t.prot.forced = true ∧ t.rd O.keepStateLevel = 0 ∧ t.rd O.protWaiting = 0 ∧
        t.rd O.relinquishes = counted (tyOf O.relinquishes) (s.rd O.relinquishes) 1 ∧
        ∀ q, q < 96 → s.rd (O.protMode q) ≠ 0 → s.rd (O.protRole q) = 2 ∨ s.rd (O.protRole q) = 3 → t.rd (O.protRole q) = 1) ∧
      (s.running .prot = true → s.prot.ready = false → State.causes { s with prot := { s.prot with forced := false } } = 0 →
        Accepts (.relinquishClear p 0) p O.protRelinquish s fun t =>
          t.prot.ready = true ∧
          (s.rd O.protPreferred ≠ 1 → t.rd O.protWaiting = s.rd O.protWaiting ∧ t.rd O.keepStateLevel = b2n (s.rd O.protWaiting == 0)) ∧
          (s.rd O.protPreferred = 1 → s.rd O.keepGrantLevel = 0 → s.prot.first = false → s.prot.waitEnd = none →
            t.rd O.protWaiting = 1 ∧ t.prot.waitEnd = some (s.pclk + s.rd O.protWtr) ∧ t.rd O.keepStateLevel = 0))) ∧
    (∀ (p : Path) (port : Fin 96), let n := port.val
      s.gate p (O.roleCmd n) = .pass →
      (s.rd (O.protMode n) ≠ 2 → Refuses (.roleActivate p port 0) p (O.roleCmd n) s .range ∧ Refuses (.roleStandby p port 0) p (O.roleCmd n) s .range) ∧
      (s.rd (O.protMode n) = 2 →
        Accepts (.roleActivate p port 0) p (O.roleCmd n) s (fun t => n ∈ t.prot.want ∧
          (s.running .prot = true → s.prot.ready = true → s.rd (O.protRole n) = 1 → t.rd (O.protRole n) = 2) ∧
          (s.running .prot = false → Only [] { s with prot := t.prot } t)) ∧
        Accepts (.roleStandby p port 0) p (O.roleCmd n) s (fun t => n ∉ t.prot.want ∧
          (s.running .prot = true → s.rd (O.protRole n) = 2 ∨ s.rd (O.protRole n) = 3 → t.rd (O.protRole n) = 1)))) ∧
    (∀ (p : Path) (port : Fin 96) (value : BitVec 8), let n := port.val
      s.gate p (O.protMode n) = .pass →
      (2 < value.toNat → Refuses (.protMode p port value) p (O.protMode n) s .range) ∧
      (value.toNat ≤ 2 → s.rd (O.adminUp n) = 1 → Refuses (.protMode p port value) p (O.protMode n) s .notStopped) ∧
      (value.toNat ≤ 2 → s.rd (O.adminUp n) ≠ 1 → s.portExists n = true → s.isOtn n = false → s.rd (O.protMode n) ≠ value.toNat →
        Accepts (.protMode p port value) p (O.protMode n) s fun t =>
          t.rd (O.protMode n) = value.toNat ∧ n ∉ t.prot.want ∧ (value = 0 → t.rd (O.protRole n) = 0) ∧
          (value ≠ 0 → s.running .prot = false → t.rd (O.protRole n) = 1))) ∧
    (s.running .prot = true → s.rd O.protWaiting = 1 → Completes .protWtrExpiry s fun t =>
      t.rd O.protWaiting = 0 ∧ t.prot.waitEnd = none ∧ t.rd O.keepStateLevel = b2n s.prot.ready) ∧
    (s.rd O.protWaiting ≠ 1 → Completes .protWtrExpiry s fun t => t = s) ∧
    (∀ p : Path, s.gate p (O.fnCommand Fn.prot.code) = .pass → s.fnRefusal p .prot CMD_STOP = none → s.running .prot = true → s.prot.ready = true →
      Accepts (.stop p .prot 0) p (O.fnCommand Fn.prot.code) s fun t =>
        t.prot.ready = false ∧ t.rd O.relinquishes = counted (tyOf O.relinquishes) (s.rd O.relinquishes) 1 ∧
        t.rd O.keepStateLevel = s.rd O.keepStateLevel ∧ ∀ q, q < 96 → t.rd (O.protRole q) = s.rd (O.protRole q))

/-- R427 to R431, R434, R438, R440: CH_CMD moves a channel between its states as R434 says, or refuses; training decides by the narrowest eye; tracking
moves read delays; a hot stack takes its channels out of service and gives them back; the pattern helper runs on a channel that is OUT. Clauses rest
on log entries 6, 13, 66. -/
def Obligations.MemoryChannelsChangeState : Prop :=
  ∀ s : State,
    (∀ (p : Path) (ch : Fin 64), let c := ch.val
      let st := s.rd (O.chState c)
      s.gate p (O.chCmd c) = .pass →
      (s.running .hbm = false → Completes (.chDrain p ch 0) s fun t =>
        t.ended p (O.chCmd c) .functionDisabled ∧ t.rd (O.chResult c) = Status.functionDisabled.code ∧ Only [O.chResult c] s t) ∧
      (s.running .hbm = true →
        (st = 2 → Accepts (.chDrain p ch 0) p (O.chCmd c) s fun t =>
          t.rd (O.chState c) = (if s.chUsed c = 0 then 4 else 3) ∧ t.rd (O.chResult c) = Status.ok.code) ∧
        (st = 3 ∨ st = 4 → Accepts (.chDrain p ch 0) p (O.chCmd c) s fun t =>
          t.rd (O.chResult c) = Status.ok.code ∧ Only [O.chResult c] s t) ∧
        (st = 5 ∨ st = 6 → Completes (.chDrain p ch 0) s fun t =>
          t.ended p (O.chCmd c) .range ∧ t.rd (O.chResult c) = Status.range.code ∧ Only [O.chResult c] s t) ∧
        (st = 4 → s.rd (O.stackHot (c / 16)) ≠ 1 → Accepts (.chReleaseService p ch 0) p (O.chCmd c) s fun t => t.rd (O.chState c) = 2) ∧
        (st = 4 → s.rd (O.stackHot (c / 16)) = 1 → Accepts (.chReleaseService p ch 0) p (O.chCmd c) s fun t => t.rd (O.chState c) = 7) ∧
        (st = 5 ∨ st = 6 →
          Accepts (.chReleaseService p ch 0) p (O.chCmd c) s (fun t =>
            t.rd (O.chState c) = 1 ∧ mfind t.hbm.goal c = some 2 ∧ t.rd (O.chCapture c) = 0 ∧ t.rd (O.chFreezeCause c) = 0 ∧
            t.channelFreeSegs c = 786432) ∧
          Accepts (.chReleaseOut p ch 1) p (O.chCmd c) s (fun t => t.rd (O.chState c) = 1 ∧ mfind t.hbm.goal c = some 4)) ∧
        (st = 2 ∨ st = 3 → Completes (.chReleaseOut p ch 1) s fun t => t.ended p (O.chCmd c) .range ∧ Only [O.chResult c] s t) ∧
        (st = 4 → Accepts (.chRetrain p ch 0) p (O.chCmd c) s fun t => t.rd (O.chState c) = 1 ∧ mfind t.hbm.goal c = some 4) ∧
        (st = 2 ∨ st = 3 ∨ st = 5 ∨ st = 6 → Completes (.chRetrain p ch 0) s fun t =>
          t.ended p (O.chCmd c) .range ∧ Only [O.chResult c] s t) ∧
        (st = 1 ∨ st = 7 → Completes (.chDrain p ch 0) s fun t => t.ended p (O.chCmd c) .busy ∧ Only [O.chResult c] s t))) ∧
    (∀ (ch : Fin 64) (swept refined : List (List Nat)), let c := ch.val
      (s.rd (O.chState c) ≠ 1 → Completes (.channelTrained ch swept refined) s fun t => t = s) ∧
      (s.rd (O.chState c) = 1 → Completes (.channelTrained ch swept refined) s fun t =>
        let narrow := narrowest (t.rdB (O.chEyes c) 16)
        let trained := fun (i : Nat) (bad : List Nat) (lo n : Nat) =>
          ((t.rdB (O.chDelays c) 16).getD i 0).toNat ∈ centresOf bad lo n ∧ ((t.rdB (O.chEyes c) 16).getD i 0).toNat = eyeOf bad lo n
        (∀ i, i < 16 → (s.rd O.hbmRefine ≠ 1 → trained i (swept.getD i []) 0 128) ∧
          (s.rd O.hbmRefine = 1 → ∃ d ∈ centresOf (swept.getD i []) 0 128,
            trained i (refined.getD i []) (d - 16) (min (d + 16) 127 + 1 - (d - 16)))) ∧
        t.rd (O.chEyeMin c) = narrow ∧
        (narrow < s.rd O.hbmEyeMin → t.rd (O.chState c) = 6) ∧
        (s.rd O.hbmEyeMin ≤ narrow → mget s.hbm.goal 2 c = 2 → s.rd (O.stackHot (c / 16)) ≠ 1 → t.rd (O.chState c) = 2) ∧
        (s.rd O.hbmEyeMin ≤ narrow → mget s.hbm.goal 2 c = 4 → t.rd (O.chState c) = 4))) ∧
    (∀ (ch : Fin 64) (tests : List (Bool × Bool)), let c := ch.val
      (s.running .hbm = true → s.rd (O.chState c) = 2 ∨ s.rd (O.chState c) = 7 → Completes (.hbmTrack ch tests) s fun t =>
        (∀ i, i < 16 → (t.rdB (O.chDelays c) 16).getD i 0 = if i % 2 = 0
          then BitVec.ofNat 8 (tracked ((s.rdB (O.chDelays c) 16).getD i 0).toNat (tests.getD (i / 2) (true, true)))
          else (s.rdB (O.chDelays c) 16).getD i 0) ∧ Only [O.chDelays c] s t) ∧
      (s.running .hbm = false → Completes (.hbmTrack ch tests) s fun t => t = s)) ∧
    (∀ (stack : Fin 4) (temp : Int), let k := stack.val
      (s.fnState .hbm = DISABLED → Completes (.stackTempSample stack temp) s fun t => t = s) ∧
      (s.fnState .hbm ≠ DISABLED → Completes (.stackTempSample stack temp) s fun t =>
        t.rd (O.stackTemp k) = ofS32 temp ∧ t.rd (O.stackRefreshX2 k) = b2n (decide (8500 ≤ temp)) ∧
        (s.rd (O.stackHot k) = 0 → s.rdS O.hbmTempCrit ≤ temp → t.rd (O.stackHot k) = 1 ∧
          ∀ i, i < 16 → t.rd (O.chState (16 * k + i)) =
            if s.rd (O.chState (16 * k + i)) = 2 ∨ s.rd (O.chState (16 * k + i)) = 3 then 7 else s.rd (O.chState (16 * k + i))) ∧
        (s.rd (O.stackHot k) = 1 → temp ≤ s.rdS O.hbmTempCrit - 300 → t.rd (O.stackHot k) = 0 ∧
          ∀ i, i < 16 → s.rd (O.chState (16 * k + i)) = 7 → mget s.hbm.former 2 (16 * k + i) = 2 → t.rd (O.chState (16 * k + i)) = 2) ∧
        (s.rd (O.stackHot k) = 0 → temp < s.rdS O.hbmTempCrit → Only [O.stackTemp k, O.stackRefreshX2 k] s t))) ∧
    (∀ (p : Path) (arg : BitVec 24), s.gate p O.patCmd = .pass →
      (s.rd O.patState = 1 → Refuses (.patternRun p arg) p O.patCmd s .busy) ∧
      (s.rd O.patState ≠ 1 →
        (64 ≤ arg.toNat → Refuses (.patternRun p arg) p O.patCmd s .range) ∧
        (arg.toNat < 64 → s.rd (O.chState arg.toNat) ≠ 4 → Refuses (.patternRun p arg) p O.patCmd s .notStopped) ∧
        (arg.toNat < 64 → s.rd (O.chState arg.toNat) = 4 → Accepts (.patternRun p arg) p O.patCmd s fun t =>
          t.rd O.patState = 1 ∧ t.hbm.pattern = some arg.toNat ∧ Only [O.patState] { s with hbm := t.hbm } t))) ∧
    (∀ (errors delays eyes : List Byte),
      (s.hbm.pattern = none → Completes (.patternDone errors delays eyes) s fun t => t = s) ∧
      (∀ c, s.hbm.pattern = some c → Completes (.patternDone errors delays eyes) s fun t =>
        t.hbm.pattern = none ∧ t.rd O.patState = 2 ∧ t.rd O.patResult = Status.ok.code ∧
        (∀ b k, b < 8 → k < 128 → (t.rdB O.patErrors 1024).getD (128 * b + k) 0 =
          (if (if bits (s.rd O.patSweep) 1 0 = 0 then ((s.rdB (O.chDelays c) 16).getD (2 * b) 0).toNat = k
            else bits (s.rd O.patSweep) 14 8 ≤ k ∧ k ≤ bits (s.rd O.patSweep) 22 16) then errors.getD (128 * b + k) 0 else 0)) ∧
        OnlyObjects [O.patErrors, O.patState, O.patResult, O.chDelays c, O.chEyes c, O.chEyeMin c] s t))

/-- R325, R432, R433, R441, R448: an uncorrectable error freezes its channel with its cause, and every segment on the channel is lost from its queue; a
corrected error is counted; QDR address parity errors are replayed, and after 16 repeats the interface has FAILED. Clauses rest on log entries 6,
66, 67. -/
def Obligations.MemoryErrorsFreezeChannels : Prop :=
  ∀ s : State,
    let frozen := fun (t : State) (c cause segment : Nat) =>
      let b := t.rdB (O.chCapture c) 32
      t.rd (O.chState c) = 5 ∧ t.rd (O.chFreezeCause c) = cause ∧
      t.rd O.hbmFreezes = counted (tyOf O.hbmFreezes) (s.rd O.hbmFreezes) 1 ∧
      leNat (slice b 0 8) = s.pclk % 2 ^ 64 ∧ leNat (slice b 8 1) = cause ∧ leNat (slice b 9 1) < 2 ∧ leNat (slice b 11 1) < 32 ∧
      leNat (slice b 10 1) = segment % 1048576 % 48 ∧ leNat (slice b 12 2) = segment % 1048576 / 48 ∧ leNat (slice b 16 4) = segment ∧
      ∀ (q : Nat) (g : Seg), g ∈ (t.queue q).segs → g.channel ≠ c
    (∀ (q id : Nat) (err : HbmErr), { id := id, phase := .reading } ∈ (s.queue q).segs → id / 1048576 < 64 →
      Completes (.segmentReadDone q id .uncorrectable err) s fun t =>
        frozen t (id / 1048576) 1 id) ∧
    (∀ (q id : Nat) (ecc : Ecc) (err : HbmErr), (∀ g ∈ (s.queue q).segs, g.id ≠ id) →
      Completes (.segmentReadDone q id ecc err) s fun t => t = s) ∧
    (∀ (ch : Fin 64) (err : HbmErr), s.running .hbm = true → s.rd O.scrubInterval ≠ 0 → s.chLive ch.val = true → mget s.hbm.scrub 0 ch.val < 786432 →
      (Completes (.hbmScrub ch .clean err) s fun t =>
        mget t.hbm.scrub 0 ch.val = (mget s.hbm.scrub 0 ch.val + 1) % 786432 ∧ Only [] { s with hbm := t.hbm } t) ∧
      (Completes (.hbmScrub ch .corrected err) s fun t =>
        t.rd (O.chCe ch.val) = counted (tyOf (O.chCe ch.val)) (s.rd (O.chCe ch.val)) 1 ∧ OnlyObjects [O.chCe ch.val] s t) ∧
      (Completes (.hbmScrub ch .uncorrectable err) s fun t =>
        frozen t ch.val 2 (ch.val * 1048576 + mget s.hbm.scrub 0 ch.val))) ∧
    (∀ (ch : Fin 64) (ecc : Ecc) (err : HbmErr), s.running .hbm = false ∨ s.chLive ch.val = false →
      Completes (.hbmScrub ch ecc err) s fun t => t = s) ∧
    (∀ (ch : Fin 64) (err : HbmErr),
      (s.chLive ch.val = true → Completes (.hbmCommandParity ch err) s fun t =>
        frozen t ch.val 3 (ch.val * 1048576 + err.segment % 786432)) ∧
      (s.chLive ch.val = false → Completes (.hbmCommandParity ch err) s fun t => t = s)) ∧
    (∀ (i : Fin 4) (repeats : Nat),
      (s.rd (O.qifState i.val) ≠ 3 → Completes (.qdrAddressParity i repeats) s fun t => t = s) ∧
      (s.rd (O.qifState i.val) = 3 → Completes (.qdrAddressParity i repeats) s fun t =>
        t.rd (O.qifApErrors i.val) = counted (tyOf (O.qifApErrors i.val)) (s.rd (O.qifApErrors i.val)) (min repeats 16 + 1) ∧
        t.rd (O.qifReplays i.val) = counted (tyOf (O.qifReplays i.val)) (s.rd (O.qifReplays i.val)) (min repeats 16 + 1) ∧
        t.rd (O.qifState i.val) = (if repeats < 16 then 3 else 4) ∧
        Only [O.qifApErrors i.val, O.qifReplays i.val, O.qifState i.val] s t)) ∧
    (∀ report : List Nat, s.alive = true → s.fnState .qdr = STARTING → (s.fn .qdr).verdict = none → s.qdrBadEye report = none →
      Completes (.startDone .qdr report) s fun t => ∀ i ∈ s.qifEnabled, t.rd (O.qifState i) = 3 ∧ t.rd (O.qifEyeMin i) = min (report.getD i 255) 255 ∧
        (mfind s.qdr.filled i = none →
          t.rd (O.qifAccesses i) = counted (tyOf (O.qifAccesses i)) (s.rd (O.qifAccesses i)) (if i < 2 then 1048576 else 2097152)))

/-- R457 to R463, R467, R468, R470: FW_CMD takes a transfer through its states as R457's table says, and refuses what the table refuses; ABORT ends a
transfer even when FWUP does not run. A refused command changes nothing but FW_RESULT. Clauses rest on log entries 68, 69. -/
def Obligations.FirmwareCommandsFollowTheirTable : Prop :=
  ∀ (s : State) (p : Path), s.gate p O.fwCmd = .pass →
    let refused := fun (c : Instr) (st : Status) => Completes c s fun t =>
      t.ended p O.fwCmd st ∧ t.rd O.fwResult = st.code ∧ Only [O.fwResult] s t
    let st := s.rd O.fwState
    (s.fwReady = false → refused (.fwBegin p 1) .functionDisabled ∧ refused (.fwWrite p 0) .functionDisabled ∧
      refused (.fwVerify p 0) .functionDisabled ∧ refused (.fwConfirm p 0) .functionDisabled) ∧
    (st = 0 → Accepts (.fwAbort p 0) p O.fwCmd s fun t => t.rd O.fwResult = Status.ok.code ∧ Only [O.fwResult] s t) ∧
    (st ≠ 0 → Accepts (.fwAbort p 0) p O.fwCmd s fun t =>
      t.rd O.fwState = 0 ∧ t.rd O.fwKind = 0 ∧ t.rd O.fwTargetSlot = 0xFF ∧ t.rd O.fwResult = Status.ok.code ∧
      t.fw = { s.fw with buffers := [] } ∧ OnlyObjects [O.fwState, O.fwKind, O.fwTargetSlot, O.fwResult] s t) ∧
    (s.fwReady = true →
      (st ≠ 0 → refused (.fwBegin p 1) .busy ∧ refused (.fwBegin p 2) .busy) ∧
      (∀ kind : BitVec 24, st = 0 →
        (kind ≠ 1 → kind ≠ 2 → refused (.fwBegin p kind) .range) ∧
        (kind = 2 → s.mcState = 2 → refused (.fwBegin p kind) .functionDisabled) ∧
        (kind = 1 ∨ kind = 2 ∧ s.mcState ≠ 2 →
          (s.rd O.fwLength < 256 ∨ slotSize kind.toNat < s.rd O.fwLength → refused (.fwBegin p kind) .range) ∧
          (256 ≤ s.rd O.fwLength → s.rd O.fwLength ≤ slotSize kind.toNat → kind = 2 ∨ s.rd O.bootState ≠ 1 →
            Accepts (.fwBegin p kind) p O.fwCmd s fun t =>
              t.rd O.fwState = FW_ERASING ∧ t.rd O.fwKind = kind.toNat ∧ t.rd O.fwTargetSlot = s.fwTarget kind.toNat ∧
              t.rd O.fwReceived = 0 ∧ t.rd O.fwVerifyError = 0 ∧ t.rd O.fwResult = Status.ok.code ∧
              mfind t.fw.slots (slotIndex kind.toNat (s.fwTarget kind.toNat)) = some { length := s.rd O.fwLength } ∧
              (∀ i, i ≠ slotIndex kind.toNat (s.fwTarget kind.toNat) → mfind t.fw.slots i = mfind s.fw.slots i)))) ∧
      (st = 1 ∨ st = 3 → refused (.fwWrite p 0) .busy ∧ refused (.fwActivate p 0) .busy) ∧
      (st = 0 ∨ st = 4 ∨ st = 5 → refused (.fwWrite p 0) .range) ∧
      (let o := s.rd O.fwBlockOffset
       let n := s.rd O.fwBlockLength
       let data := (s.rdB O.fwBlock 4096).take n
       let slot := mget s.fw.slots {} s.fwSlot
       st = 2 →
        (crc32c data ≠ s.rd O.fwBlockCrc → Completes (.fwWrite p 0) s fun t =>
          t.ended p O.fwCmd .integrity ∧ t.fw = s.fw ∧
          t.rd O.fwBlockRejects = counted (tyOf O.fwBlockRejects) (s.rd O.fwBlockRejects) 1) ∧
        (crc32c data = s.rd O.fwBlockCrc → o % 4096 ≠ 0 ∨ slot.length < o + n → refused (.fwWrite p 0) .range) ∧
        (crc32c data = s.rd O.fwBlockCrc → o % 4096 = 0 → o + n ≤ slot.length → n = 4096 ∨ o + n = slot.length →
          mfind (slot.blocks ++ s.fw.buffers) o = none →
          (s.fw.buffers.length < 2 → Accepts (.fwWrite p 0) p O.fwCmd s fun t => t.fw = { s.fw with buffers := s.fw.buffers ++ [(o, data)] }) ∧
          (2 ≤ s.fw.buffers.length → refused (.fwWrite p 0) .busy))) ∧
      (st = 0 → refused (.fwVerify p 0) .range) ∧
      (st = 2 → (mget s.fw.slots {} s.fwSlot).complete = true → Accepts (.fwVerify p 0) p O.fwCmd s fun t =>
        t.rd O.fwState = FW_VERIFYING ∧ t.rd O.fwVerifyError = 0 ∧ t.fw = s.fw) ∧
      (st = 2 → (mget s.fw.slots {} s.fwSlot).complete = false → Accepts (.fwVerify p 0) p O.fwCmd s fun t =>
        t.rd O.fwState = FW_RECEIVING ∧ t.rd O.fwVerifyError = 1 ∧ t.rd O.fwResult = Status.integrity.code ∧ t.fw = s.fw) ∧
      (st = 0 ∨ st = 2 ∨ st = 5 → refused (.fwActivate p 0) .range) ∧
      (st = 4 → s.rd O.fwKind = 1 → s.mcState = 1 → s.rd O.bootState ≠ 1 → p ≠ .window → Accepts (.fwActivate p 0) p O.fwCmd s fun t =>
        t.fw = { s.fw with trial := some (s.rd O.fwTargetSlot), booted := false, records := s.fw.records + 1, writing := true,
                           other := { s.fw.written with good := true } } ∧
        t.recordCopy = 1 - s.recordCopy ∧ t.svc.reset = laterReset s.svc.reset .sys) ∧
      (st = 4 → s.rd O.fwKind ≠ 1 → s.running .eng = true → s.mcodeBusy = false → Completes (.fwActivate p 0) s fun t =>
        let img := s.slotImage s.fwSlot
        if signatureGood img then t.rd O.fwState = FW_STAGED ∧ t.pk.staged = some (imageBundle img) ∧ t.ended p O.fwCmd .ok
        else t.rd O.fwState = FW_VERIFIED ∧ t.pk = s.pk ∧ t.ended p O.fwCmd .signature) ∧
      (st = 1 ∨ st = 2 ∨ st = 3 → refused (.fwConfirm p 0) .busy ∧ refused (.fwRevert p 0) .busy) ∧
      (st = 4 → s.rd O.fwKind ≠ 2 → refused (.fwConfirm p 0) .range) ∧
      (st = 0 → s.rd O.bootState ≠ 1 → Accepts (.fwConfirm p 0) p O.fwCmd s fun t => Only [O.fwResult] s t) ∧
      (st = 0 → s.rd O.bootState = 1 → Accepts (.fwConfirm p 0) p O.fwCmd s fun t =>
        t.rd O.bootState = 0 ∧ t.fw.confirmed = some (s.rd O.bootSlot) ∧ t.fw.trial = none ∧ t.fw.store = some (1 - s.storeInForce) ∧
        t.recordCopy = 1 - s.recordCopy ∧ t.fw.writing = true ∧ t.fw.other = { s.fw.written with good := true } ∧
        t.fw.floorMc = max s.fw.floorMc (le (s.slotImage (slotIndex 1 (s.rd O.bootSlot))) 6 1)) ∧
      (st = 5 → Accepts (.fwConfirm p 0) p O.fwCmd s fun t =>
        t.rd O.fwState = 0 ∧ t.fw.engSlot = some (s.rd O.fwTargetSlot) ∧ t.fw.floorEng = max s.fw.floorEng (le (s.slotImage s.fwSlot) 6 1)) ∧
      (st = 0 ∨ st = 4 ∨ st = 5 →
        (s.rd O.bootState ≠ 1 → refused (.fwRevert p 0) .range) ∧
        (s.rd O.bootState = 1 → p ≠ .window → Accepts (.fwRevert p 0) p O.fwCmd s fun t =>
          t.fw = { s.fw with reason := 3 } ∧ t.svc.reset = laterReset s.svc.reset .sys)))

/-- R455, R456, R458 to R460, R462, R463: what ends an erase, a block, a verification and the confirm window, how the controller boots, and KEY_REVOKE.
A verification ends as the checks of R455 decide, and a boot as they decide for each slot. Clauses rest on log entries 6, 68, 69. -/
def Obligations.FirmwareImagesAreVerifiedAndBooted : Prop :=
  ∀ s : State,
    (s.alive = true → s.rd O.fwState = FW_ERASING →
      Completes .eraseDone s (fun t => t.rd O.fwState = FW_RECEIVING ∧ t.rd O.fwResult = Status.ok.code ∧ Only [O.fwState, O.fwResult] s t) ∧
      Completes .eraseTimeout s (fun t => t.rd O.fwState = 0 ∧ t.rd O.fwResult = Status.internal.code ∧ t.rd O.fwTargetSlot = 0xFF)) ∧
    (s.rd O.fwState ≠ FW_ERASING → Completes .eraseDone s (fun t => t = s) ∧ Completes .eraseTimeout s (fun t => t = s)) ∧
    (s.fw.buffers = [] → Completes .blockProgrammed s fun t => t = s) ∧
    (∀ o d rest, s.fw.buffers = (o, d) :: rest → Completes .blockProgrammed s fun t =>
      t.fw.buffers = rest ∧ mfind (mget t.fw.slots {} s.fwSlot).blocks o = some d ∧
      t.rd O.fwReceived = counted (tyOf O.fwReceived) (s.rd O.fwReceived) 1 ∧ t.rd O.fwResult = Status.ok.code ∧
      Only [O.fwReceived, O.fwResult] { s with fw := t.fw } t) ∧
    (s.alive = true → s.rd O.fwState = FW_VERIFYING → ∀ readBack : Bool,
      let code := if readBack then s.verifyError (s.rd O.fwKind) true (s.slotImage s.fwSlot) else 8
      Completes (.verifyDone readBack) s fun t =>
        if code = 0 then t.rd O.fwState = FW_VERIFIED ∧ t.rd O.fwImageVersion = le (s.slotImage s.fwSlot) 8 4 ∧
          t.rd O.fwResult = Status.ok.code ∧ (mget t.fw.slots {} s.fwSlot).good = true
        else t.rd O.fwState = FW_RECEIVING ∧ t.rd O.fwVerifyError = code ∧ t.fw = s.fw ∧
          t.rd O.fwResult = (if 3 ≤ code ∧ code ≤ 6 then Status.signature.code else Status.integrity.code)) ∧
    (s.rd O.fwState ≠ FW_VERIFYING → ∀ readBack : Bool, Completes (.verifyDone readBack) s fun t => t = s) ∧
    (s.alive = true → s.mcState = 1 → s.rd O.bootState = 1 → s.heldDown = false → s.pwr.down = none → Completes .confirmWindowExpiry s fun t =>
      t.pwr.resetting = some .sys ∧ t.alive = false ∧ t.mcState = 0 ∧ bit (t.rd O.resetCause) 3 = true ∧ t.fw.reason = 1) ∧
    (s.rd O.bootState ≠ 1 ∨ s.heldDown = true → Completes .confirmWindowExpiry s fun t => t = s) ∧
    (s.alive = true → s.mcState = 0 → ∀ goodA goodB : Bool,
      (Completes (.bootSelect false goodA goodB) s fun t => t.mcState = 3 ∧ t.failReason = 3 ∧ Only [] { s with mcState := 3, failReason := 3 } t) ∧
      (3 ≤ s.watchdogBoots s.mcConfirmed → 3 ≤ s.watchdogBoots (1 - s.mcConfirmed) → s.fw.trial = none →
        Completes (.bootSelect true goodA goodB) s fun t => t.mcState = 2 ∧ t.failReason = 2 ∧ t.rd O.bootState = 2) ∧
      (s.watchdogBoots s.mcConfirmed < 3 → s.fw.trial = none → Completes (.bootSelect true goodA goodB) s fun t =>
        t.mcState = (if s.bootVerifies s.mcConfirmed || s.bootVerifies (1 - s.mcConfirmed) then 1 else 2))) ∧
    (s.mcState ≠ 0 → ∀ f a b : Bool, Completes (.bootSelect f a b) s fun t => t = s) ∧
    (∀ goodB : Bool, s.alive = true → s.mcState = 0 → s.watchdogBoots s.mcConfirmed < 3 → s.fw.trial = none →
      s.bootVerifies s.mcConfirmed = true → s.storeInForce = 0 → Completes (.bootSelect true false goodB) s fun t =>
        t.mcState = 1 ∧ t.rd O.bootSlot = s.mcConfirmed ∧ t.rd O.settingsSkipped = 0 ∧ t.svc.key0 = none ∧ t.svc.key1 = none) ∧
    (∀ (p : Path) (arg : BitVec 24), s.gate p O.keyRevoke = .pass →
      (arg.toNat / 256 ≠ 0x4B52 ∨ 3 < arg.toNat % 256 → Refuses (.keyRevoke p arg) p O.keyRevoke s .range) ∧
      (arg.toNat / 256 = 0x4B52 → arg.toNat % 256 ≤ 3 → Completes (.keyRevoke p arg) s fun t =>
        if (s.mcState = 1 ∧ le (s.slotImage (slotIndex 1 (s.rd O.bootSlot))) 5 1 = arg.toNat % 256) ∨
            setBit s.revokeBits (arg.toNat % 256) true % 16 = 0xF
        then t.ended p O.keyRevoke .range ∧ Reports s t
        else t.ended p O.keyRevoke .ok ∧ t.fw = { s.fw with revoked := setBit s.fw.revoked (arg.toNat % 256) true }))

/-- R464 to R466, R471: SAVE keeps the persistent set with its values and the keys in the store that it names, or names the first entry that cannot be
kept; APPLY writes the values of the store again in their order, unless it has another format or failed its CRC, and counts those that are refused.
Clauses rest on log entries 37, 70. -/
def Obligations.SettingsAreSavedAndApplied : Prop :=
  ∀ (s : State) (p : Path), s.gate p O.settingsCmd = .pass →
    (∀ i, s.settingsEntries.findIdx? unsavable = some i → Completes (.settingsSave p 0) s fun t =>
      t.ended p O.settingsCmd .range ∧ t.rd O.settingsErrorEntry = i ∧ t.rd O.settingsResult = Status.range.code ∧ t.fw = s.fw ∧
      Only [O.settingsErrorEntry, O.settingsResult] s t) ∧
    (s.settingsEntries.findIdx? unsavable = none → s.settingsEntries.findSome? s.savedRefused = none →
      Accepts (.settingsSave p 0) p O.settingsCmd s fun t =>
      t.setStore s.saveStore = { format := s.rd O.settingsFormat, seq := (s.setStore s.saveStore).seq + 1, crcBad := false,
                                 entries := (fixedSet ++ s.settingsEntries).map fun k => (k, s.rd k),
                                 key0 := s.svc.key0, key1 := s.svc.key1 } ∧
      (∀ n, n ≠ s.saveStore → t.setStore n = s.setStore n) ∧
      t.rd O.settingsSaves = counted (tyOf O.settingsSaves) (s.rd O.settingsSaves) 1 ∧
      Only [O.settingsSaves, O.settingsResult] { s with fw := t.fw } t) ∧
    (∀ st : Status, s.settingsEntries.findIdx? unsavable = none → s.settingsEntries.findSome? s.savedRefused = some st → st ≠ .ok →
      Completes (.settingsSave p 0) s fun t =>
        t.ended p O.settingsCmd st ∧ t.rd O.settingsResult = st.code ∧ t.fw = s.fw ∧ Only [O.settingsResult] s t) ∧
    ((s.setStore s.saveStore).crcBad = true ∨ (s.setStore s.saveStore).format ≠ s.rd O.settingsFormat → s.savedNow = []) ∧
    ((s.setStore s.saveStore).crcBad = false → (s.setStore s.saveStore).format = s.rd O.settingsFormat →
      s.savedNow = (s.setStore s.saveStore).entries) ∧
    (Accepts (.settingsApply p 0) p O.settingsCmd s fun t => t.rd O.settingsResult = Status.ok.code ∧
      ∃ u, Reports s u ∧ ∀ k, reportKey k = false → k ≠ O.settingsResult →
        t.rd k = (u.loadEntries false s.savedNow).rd k) ∧
    (s.savedNow = [] → Accepts (.settingsApply p 0) p O.settingsCmd s fun t =>
      t.rd O.settingsSkipped = 0 ∧ Only [O.settingsSkipped, O.settingsResult] s t) ∧
    (∀ (k v : Nat) (r : Row), s.savedNow = [(k, v)] → s.savedRefused k = none → k ≠ O.settingsSkipped → k ≠ O.settingsResult → reportKey k = false →
      rowOf k = some r → r.acc = .rw → plainIndex (k / 256) = true → r.ty.holdsValue v = true → r.chk.ok v = true →
      Accepts (.settingsApply p 0) p O.settingsCmd s fun t =>
        t.rd k = v ∧ t.rd O.settingsSkipped = 0 ∧ Only [k, O.settingsSkipped, O.settingsResult] s t) ∧
    (∀ (k v : Nat) (st : Status), s.savedNow = [(k, v)] → s.savedRefused k = some st → st ≠ .ok →
      Accepts (.settingsApply p 0) p O.settingsCmd s fun t =>
        t.rd O.settingsSkipped = 1 ∧ Only [O.settingsSkipped, O.settingsResult] s t) ∧
    (∀ k v : Nat, s.savedNow = [(k, v)] → rowOf k = none → Accepts (.settingsApply p 0) p O.settingsCmd s fun t =>
      t.rd O.settingsSkipped = 1 ∧ Only [O.settingsSkipped, O.settingsResult] s t)

/-- R477 to R479: FREEZE and UNFREEZE govern FROZEN unless the pin does; a snapshot copies all 96 counters and counts itself, and a request within 16
XCLK cycles of the last is merged; the pin takes snapshots or freezes as SNAP_PIN_MODE says. Clauses rest on log entry 71. -/
def Obligations.CountersFreezeAndAreCopied : Prop :=
  ∀ s : State,
    let copied := fun (t : State) => (∀ n, n < 96 → t.rd (O.pcSnap n) = s.rd (O.pcValue n)) ∧
      t.rd O.snapGen = counted (tyOf O.snapGen) (s.rd O.snapGen) 1 ∧ t.perf.lastSnap = some s.ticks
    (∀ p : Path, s.gate p O.perfCmd = .pass →
      (s.rd O.snapPinMode = 2 → Refuses (.freeze p 0) p O.perfCmd s .busy ∧ Refuses (.unfreeze p 0) p O.perfCmd s .busy) ∧
      (s.rd O.snapPinMode ≠ 2 →
        Accepts (.freeze p 0) p O.perfCmd s (fun t =>
          t.rd O.frozen = 1 ∧ t.perf = { s.perf with latch := true } ∧ Only [O.frozen] { s with perf := t.perf } t) ∧
        Accepts (.unfreeze p 0) p O.perfCmd s (fun t =>
          t.rd O.frozen = 0 ∧ t.perf = { s.perf with latch := false } ∧ Only [O.frozen] { s with perf := t.perf } t)) ∧
      (s.snapMerges = false → Accepts (.snapshot p 0) p O.perfCmd s fun t =>
        copied t ∧ Only (O.snapGen :: (List.range 96).map O.pcSnap) { s with perf := t.perf } t) ∧
      (s.snapMerges = true → Accepts (.snapshot p 0) p O.perfCmd s fun t =>
        t.rd O.snapMerged = counted (tyOf O.snapMerged) (s.rd O.snapMerged) 1 ∧ Only [O.snapMerged] s t)) ∧
    (s.perf.snapHigh = false → s.rd O.snapPinMode = 1 → s.snapMerges = false → Completes (.snapPin true) s fun t => copied t ∧ t.perf.snapHigh = true) ∧
    (∀ level : Bool,
      (s.rd O.snapPinMode = 2 → Completes (.snapPin level) s fun t =>
        t.rd O.frozen = b2n (s.perf.latch || level) ∧ t.perf = { s.perf with snapHigh := level } ∧ Only [O.frozen] { s with perf := t.perf } t) ∧
      (s.rd O.snapPinMode = 0 → Completes (.snapPin level) s fun t =>
        t.rd O.frozen = b2n s.perf.latch ∧ t.perf = { s.perf with snapHigh := level })) ∧
    (∀ code n : Nat, ∀ o : Occurrence, s.rd O.frozen = 1 ∨ s.running .perf = false → s.perfEvent false code n o = s)

/-- R480 to R482, R484 to R488: STAT_CMD reads, clears and writes a pair, and refuses what R484 refuses; a bad parity zeroes an on-chip pair and is
counted, an ECC error that cannot be corrected zeroes the part of an extension pair that it meets; an export sweep starts at its period and reads
its pairs in order into the buffers of its ring, the sets that can read taking turns (the turn: the model's choice, log entry 72). Clauses rest on
log entries 6, 62, 72. -/
def Obligations.StatisticsAreReadAndExported : Prop :=
  ∀ s : State,
    (∀ (p : Path) (arg : BitVec 24) (ecc : Ecc) (part : Fin 2), let n := arg.toNat
      s.gate p O.statCmd = .pass →
      (n = 0 ∨ 6291455 < n → Completes (.statRead p arg ⟨false, ecc, part⟩) s fun t =>
        t.ended p O.statCmd .range ∧ t.rd O.statResult = Status.range.code ∧ Only [O.statResult] s t) ∧
      (2097152 ≤ n → n ≤ 6291455 → s.qifUp (pairIf n) = false → Completes (.statWrite p arg) s fun t =>
        t.ended p O.statCmd .functionDisabled ∧ t.perf = s.perf ∧ Only [O.statResult] s t) ∧
      (1 ≤ n → n < 2097152 →
        Accepts (.statRead p arg ⟨false, ecc, part⟩) p O.statCmd s (fun t =>
          t.rd O.statBytes = (s.pair n).1 ∧ t.rd O.statPackets = (s.pair n).2 ∧ Only [O.statBytes, O.statPackets, O.statResult] s t) ∧
        Accepts (.statRead p arg ⟨true, ecc, part⟩) p O.statCmd s (fun t =>
          t.rd O.statBytes = 0 ∧ t.rd O.statPackets = 0 ∧ t.pair n = (0, 0) ∧
          t.rd O.statParityResets = counted (tyOf O.statParityResets) (s.rd O.statParityResets) 1) ∧
        Accepts (.statReadClear p arg ⟨false, ecc, part⟩) p O.statCmd s (fun t =>
          t.rd O.statBytes = (s.pair n).1 ∧ t.rd O.statPackets = (s.pair n).2 ∧ t.pair n = (0, 0) ∧
          (∀ m, m ≠ n → t.pair m = s.pair m) ∧ Only [O.statBytes, O.statPackets, O.statResult] { s with perf := t.perf } t) ∧
        Accepts (.statWrite p arg) p O.statCmd s (fun t =>
          t.pair n = (s.rd O.statBytes, s.rd O.statPackets) ∧ (∀ m, m ≠ n → t.pair m = s.pair m) ∧
          Only [O.statResult] { s with perf := t.perf } t)) ∧
      (2097152 ≤ n → n ≤ 6291455 → s.qifUp (pairIf n) = true → ∀ bad : Bool,
        Accepts (.statRead p arg ⟨bad, .clean, part⟩) p O.statCmd s (fun t =>
          t.rd O.statBytes = (s.pair n).1 ∧ t.rd O.statPackets = (s.pair n).2 ∧ ∀ m, t.pair m = s.pair m) ∧
        Accepts (.statRead p arg ⟨bad, .uncorrectable, part⟩) p O.statCmd s (fun t =>
          (t.rd O.statBytes, t.rd O.statPackets) = (if part = 0 then (0, (s.pair n).2) else ((s.pair n).1, 0)) ∧
          t.pair n = (if part = 0 then (0, (s.pair n).2) else ((s.pair n).1, 0)) ∧ (∀ m, m ≠ n → t.pair m = s.pair m) ∧
          t.rd (O.qifUe (pairIf n)) = counted (tyOf (O.qifUe (pairIf n))) (s.rd (O.qifUe (pairIf n))) 1))) ∧
    (∀ e : Fin 16,
      (s.running .perf = false → Completes (.exportPeriod e) s fun t => t = s) ∧
      (s.running .perf = true → (mfind s.perf.sweeps e.val).isSome = true → Completes (.exportPeriod e) s fun t =>
        t.rd (O.expOverruns e.val) = counted (tyOf (O.expOverruns e.val)) (s.rd (O.expOverruns e.val)) 1 ∧ Only [O.expOverruns e.val] s t) ∧
      (∀ n, s.running .perf = true → mfind s.perf.sweeps e.val = none → n < 48 → s.armed n = true → s.serves e.val n = true →
        s.rd (O.expCount e.val) ≠ 0 → Completes (.exportPeriod e) s fun t =>
          mfind t.perf.sweeps e.val = some { next := s.rd (O.expFirst e.val), left := s.rd (O.expCount e.val),
                                             sweep := t.rd (O.expSweeps e.val), clear := s.rd (O.expClear e.val) == 1 } ∧
          t.rd (O.expSweeps e.val) = counted (tyOf (O.expSweeps e.val)) (s.rd (O.expSweeps e.val)) 1) ∧
      (∀ (w : Sweep) (n : Nat) (f : Flight), mfind s.perf.sweeps e.val = some w → s.exportRing e.val = some n → (s.buffers n).head? = some f →
        s.exportTurn = some e.val → s.missingPage (f.desc.bufAddr + f.length) 24 = none →
        (f.fence = true → ∀ g, (s.dring n).flight.head? = some g → g.effect = false ∨ g.slot = f.slot) →
        w.next < 2097152 → ∀ (ecc : Ecc) (part : Fin 2), Completes (.exportPairRead ⟨e, ⟨false, ecc, part⟩⟩) s fun t =>
          t.out.head? = some (.dmaWrite (f.desc.bufAddr + f.length) (exportRecord w.next w.sweep (s.pair w.next)) s.host.relaxed) ∧
          t.pair w.next = (if w.clear then (0, 0) else s.pair w.next) ∧ (∀ m, m ≠ w.next → t.pair m = s.pair m) ∧
          mfind t.perf.sweeps e.val = (if w.left ≤ 1 then none else some { w with next := w.next + 1, left := w.left - 1 }) ∧
          t.perf.turn = (e.val + 1) % 16) ∧
      (s.exportReady e.val = true → s.exportTurn.isSome = true) ∧
      (∀ (bad : Bool) (ecc : Ecc) (part : Fin 2), s.exportTurn ≠ some e.val → Completes (.exportPairRead ⟨e, ⟨bad, ecc, part⟩⟩) s fun t => t = s))

/-- A step takes the command at the front of the queue and is its effect on the state with the queue's rest; with an empty queue one root clock cycle
passes (the model's choice, log entry 2), and nothing passes while every domain is held. Clauses rest on log entries 1, 2. -/
def Obligations.StepsTakeTheFrontCommand : Prop :=
  (∀ (c : Instr) (rest : List Instr) (s : State), step { s with pending := c :: rest } = exec c { s with pending := rest }) ∧
  (∀ s : State, s.pending = [] → ∃ t, step s = .next t ∧ t.pending = [] ∧
    (s.pwr.released ≠ 0 → t.ticks = s.ticks + 1) ∧ (s.pwr.released = 0 → t = s))

/-- R30: after POR every object of the catalogue holds its default; the queue is empty, the objects are in canonical form, the boot monitor has not
chosen an image (R130), and PCLK is released. Clauses rest on log entries 3, 4, 5. -/
def Obligations.ResetLeavesTheDefaults : Prop :=
  State.reset.pending = [] ∧ Canonical State.reset.objs = true ∧ State.reset.mcState = 0 ∧ State.reset.alive = true ∧
  (∀ k r, rowOf k = some r → State.reset.rd k = r.dflt) ∧
  (∀ f : Fn, State.reset.fnState f = dfltOf (O.state f)) ∧
  (∀ slot : Nat, State.reset.kdpKey slot = none)

/-- Every step of every state answers a next state, takes exactly the front command from the queue, and keeps the objects in their canonical form: no
command and no clock cycle stops the block. Clauses rest on log entries 6, 9, 15. -/
def Obligations.EveryStepCompletesAndKeepsTheObjectsCanonical : Prop :=
  ∀ s : State, Canonical s.objs = true → ∃ t, step s = .next t ∧ t.pending = s.pending.tail ∧ Canonical t.objs = true

/-- R456: no step lowers a security floor or clears a revoke bit. -/
def Obligations.SecurityFloorsNeverFall : Prop := ∀ s t : State, step s = .next t → FloorsHold s.fw t.fw

/-- R25: an access to an object that does not exist ends with NO_OBJECT when its index holds no object and with NO_SUBINDEX when the index holds others,
by every path, as a read and as a write, and changes nothing. -/
def Obligations.AbsentObjectsRefuseEveryAccess : Prop :=
  ∀ (s : State) (p : Path) (index sub : Nat) (st : Status), s.gate p (objKey index sub) = .pass → rowOf (objKey index sub) = none →
    (indexHolds (objKey index sub / 256) = false ∧ st = .noObject ∨ indexHolds (objKey index sub / 256) = true ∧ st = .noSubindex) →
    (∀ (offset : Nat) (data : List Byte), p ≠ .window ∨ (offset = 0 ∧ data.length = 8) →
      Refuses (.objectWrite p index sub offset data) p (objKey index sub) s st) ∧
    (p ≠ .window → Refuses (.rcRead p index sub) p (objKey index sub) s st) ∧
    (p = .window →
      (∀ (upper : Bool) (half : BitVec 32), Refuses (.windowHalfWrite upper index sub half) p (objKey index sub) s st) ∧
      (Completes (.rcRead p index sub) s fun t =>
        Reports s t ∧ t.out.head? = some (.readDone (objKey index sub) st (List.replicate 8 0xFF))) ∧
      (∀ upper : Bool, s.svc.capture = none → Completes (.windowHalfRead upper index sub) s fun t =>
        Reports s t ∧ t.out.head? = some (.readDone (objKey index sub) st (List.replicate 4 0xFF))))

/-- R4: a write to an object of 0xF000 to 0xFFFF ends with ACCESS_DENIED by every path and changes no object. The lower half of a longer object is only
staged (R34); the upper half that would commit both is refused. -/
def Obligations.VendorObjectsAreReadOnly : Prop :=
  ∀ (s : State) (p : Path) (index sub : Nat) (r : Row), s.gate p (objKey index sub) = .pass → rowOf (objKey index sub) = some r →
    0xF000 ≤ objKey index sub / 256 →
    (p ≠ .window → ∀ (offset : Nat) (data : List Byte), Completes (.objectWrite p index sub offset data) s fun t =>
      Reports { s with svc := { s.svc with staging := t.svc.staging } } t ∧ t.ended p (objKey index sub) .accessDenied) ∧
    (p = .window →
      (∀ data : List Byte, data.length = 8 → Refuses (.objectWrite p index sub 0 data) p (objKey index sub) s .accessDenied) ∧
      (∀ half : BitVec 32, Refuses (.windowHalfWrite true index sub half) p (objKey index sub) s .accessDenied) ∧
      (∀ half : BitVec 32,
        (r.ty.size ≤ 4 → Refuses (.windowHalfWrite false index sub half) p (objKey index sub) s .accessDenied) ∧
        (4 < r.ty.size → Completes (.windowHalfWrite false index sub half) s fun t => Reports s t)))

/-- R12, R38, R47, R55, R78, R79, R106, R127, R131: what meets an access before its object answers, by every path, for commands, reads and writes alike.
Nothing answers before PCLK is released or in HALTED, and KDP is silent until the controller and the port run; the endpoint does not support what
the window brings while Memory Space Enable is clear or during FLR; KDP executes nothing but identity reads while no slot holds a key; the mailbox
takes one access at a time; an access waits behind one that an outage of the control channels holds; otherwise the access ends with the status of
the gate and changes nothing, but that a refused range discards its staging copy. Clauses rest on log entries 16, 17, 37, 70, 75. -/
def Obligations.AccessesPassTheGates : Prop :=
  ∀ (s : State) (p : Path) (index sub : Nat) (f : Fn) (arg : BitVec 24) (data : List Byte), p ≠ .window ∨ data.length = 8 → let k := objKey index sub
    let write := Instr.objectWrite p index sub 0 data
    let refused := fun (st : Status) =>
      (Completes write s fun t => Reports { s with svc := { s.svc with staging := t.svc.staging } } t ∧ t.ended p k st) ∧
      (p ≠ .window → Refuses (.rcRead p index sub) p k s st) ∧
      (p = .window → Completes (.rcRead p index sub) s fun t => Reports s t ∧ t.out.head? = some (.readDone k st (List.replicate 8 0xFF)))
    let heard := s.alive = true ∧ s.mcState ≠ 3 ∧ (p = .window → s.memOpen = true) ∧ (p = .kdp → s.mcState = 1 ∧ s.mgmtUp = true)
    let served := heard ∧ (p = .kdp → s.keyless = false) ∧ (p = .mailbox → s.mbxTaken = false)
    (s.alive = false ∨ (s.mcState = 3 ∧ (p = .window → s.memOpen = true)) ∨ (p = .kdp ∧ (s.mcState ≠ 1 ∨ s.mgmtUp = false)) →
      Completes (.enable p f arg) s (fun t => t = s) ∧ Completes write s (fun t => t = s) ∧
      (s.alive = false ∨ p ≠ .window → Completes (.rcRead p index sub) s fun t => t = s)) ∧
    (s.alive = true → s.mcState = 3 → s.memOpen = true → Completes (.rcRead .window index sub) s fun t =>
      t = { s with out := .unserved k (List.replicate 8 0xFF) :: s.out }) ∧
    (s.alive = true → p = .window → s.memOpen = false →
      Completes (.enable p f arg) s (fun t =>
        t.rd O.urReceived = counted (tyOf O.urReceived) (s.rd O.urReceived) 1 ∧ Only [O.urReceived] s t ∧
        ∃ h, t.out = .aer "Unsupported Request" h :: s.out) ∧
      Completes (.rcRead p index sub) s (fun t => Only [O.urReceived] s t ∧ ∃ h, t.out = .unsupported h :: .aer "Unsupported Request" h :: s.out)) ∧
    (heard → p = .kdp → s.keyless = true →
      Completes (.enable p f arg) s (fun t => t.ended p (O.fnCommand f.code) .authFail ∧ Only [O.kdpAuthFails] s t) ∧
      Completes write s (fun t => t.ended p k .authFail ∧ Only [O.kdpAuthFails] s t ∧
        t.rd O.kdpAuthFails = counted (tyOf O.kdpAuthFails) (s.rd O.kdpAuthFails) 1) ∧
      (identityObject k = false → Completes (.rcRead p index sub) s fun t => t.ended p k .authFail ∧ Only [O.kdpAuthFails] s t) ∧
      (identityObject k = true → s.svc.held = [] → s.gateRead p k = s.reach k)) ∧
    (heard → p = .mailbox → s.mbxTaken = true →
      Refuses (.enable p f arg) p (O.fnCommand f.code) s .busy ∧ Refuses write p k s .busy ∧ Refuses (.rcRead p index sub) p k s .busy) ∧
    (served → s.svc.held ≠ [] ∨ s.reach k = .hold →
      Completes write s (fun t => Only [] { s with svc := t.svc } t ∧ t.out = s.out ∧
        t.svc = { s.svc with held := s.svc.held ++ [{ path := p, write := true, key := k, offset := 0, data := data, length := data.length }] }) ∧
      Completes (.rcRead p index sub) s (fun t => Only [] { s with svc := t.svc } t ∧ t.out = s.out ∧ ∃ h, t.svc = { s.svc with held := s.svc.held ++ [h] } ∧
        h.path = p ∧ h.write = false ∧ h.key = k ∧ h.offset = 0)) ∧
    (served → s.svc.held = [] →
      (s.mcState = 0 → (inRecovery k = false → refused .busy) ∧ Refuses (.enable p f arg) p (O.fnCommand f.code) s .busy) ∧
      (s.mcState = 2 → (inRecovery k = false → refused .noObject) ∧ Refuses (.enable p f arg) p (O.fnCommand f.code) s .noObject) ∧
      (s.mcState = 1 → s.pwr.resetting = some .core →
        (keptByCore k = false → refused .busy) ∧ Refuses (.enable p f arg) p (O.fnCommand f.code) s .busy) ∧
      (∀ r, s.mcState = 1 → s.pwr.resetting = none → rowOf k = some r → onTDie k = true →
        (s.rd (O.evradState 16) = 3 ∨ s.rd (O.evradState 17) = 3 → refused .internal) ∧
        (s.rd (O.evradState 16) ≠ 3 → s.rd (O.evradState 17) ≠ 3 → s.rd (O.evradState 16) = 0 ∨ s.rd (O.evradState 17) = 0 → refused .busy) ∧
        (s.rd (O.evradState 16) = 1 → s.rd (O.evradState 17) = 2 → s.gate p k = .hold)) ∧
      (s.mcState = 1 → s.pwr.resetting ≠ some .core → onTDie (O.fnCommand f.code) = false →
        s.gate p (O.fnCommand f.code) = .pass))
end

