-- ==== Sys2Proof/Laws/Maps.lean ====
section
/-!
SUPPORT. The laws of the sparse maps: a read after a write to the same key, to another key, and that every operation keeps the
keys rising.
-/

namespace Sys2Proof.Machine

variable {α : Type}

@[simp] theorem mfind_mput_self (m : NMap α) (k : Nat) (v : α) : mfind (mput m k v) k = some v := by
  induction m with
  | nil => simp [mput, mfind]
  | cons e t ih =>
    obtain ⟨k', v'⟩ := e
    simp only [mput]
    split
    · simp [mfind]
    · split
      · simp [mfind]
      · simp only [mfind, ih]
        split
        · omega
        · rfl

theorem mfind_mput_ne (m : NMap α) {k j : Nat} (v : α) (h : k ≠ j) : mfind (mput m k v) j = mfind m j := by
  induction m with
  | nil => simp [mput, mfind, h]
  | cons e t ih =>
    obtain ⟨k', v'⟩ := e
    simp only [mput]
    split
    · simp [mfind, h]
    · split
      · rename_i hk
        subst hk
        simp [mfind, h]
      · simp [mfind, ih]

@[simp] theorem mfind_mdel_self (m : NMap α) (k : Nat) : mfind (mdel m k) k = none := by
  induction m with
  | nil => rfl
  | cons e t ih =>
    obtain ⟨k', v'⟩ := e
    by_cases h : k' = k
    · simpa [mdel, h] using ih
    · simp only [mdel, h, List.filter, ne_eq, not_false_eq_true, decide_true, mfind, if_false]
      exact ih

theorem mfind_mdel_ne (m : NMap α) {k j : Nat} (h : k ≠ j) : mfind (mdel m k) j = mfind m j := by
  induction m with
  | nil => rfl
  | cons e t ih =>
    obtain ⟨k', v'⟩ := e
    by_cases h' : k' = k
    · have : k' ≠ j := by omega
      simp only [mfind, this, if_false, ← ih]
      simp [mdel, h']
    · have ih' := ih
      simp only [mdel] at ih' ⊢
      simp only [List.filter, ne_eq, h', not_false_eq_true, decide_true, mfind, ih']

variable [DecidableEq α]

@[simp] theorem mget_mset_self (m : NMap α) (d : α) (k : Nat) (v : α) : mget (mset m d k v) d k = v := by
  unfold mget mset
  split
  · simp [*]
  · simp

theorem mget_mset_ne (m : NMap α) (d d' : α) {k j : Nat} (v : α) (h : k ≠ j) :
    mget (mset m d k v) d' j = mget m d' j := by
  unfold mget mset
  split
  · rw [mfind_mdel_ne m h]
  · rw [mfind_mput_ne m v h]

@[simp] theorem mget_mupd_self (m : NMap α) (d : α) (k : Nat) (f : α → α) : mget (mupd m d k f) d k = f (mget m d k) := by
  simp [mupd]

theorem mget_mupd_ne (m : NMap α) (d : α) {k j : Nat} (f : α → α) (h : k ≠ j) :
    mget (mupd m d k f) d j = mget m d j := mget_mset_ne m d d _ h

omit [DecidableEq α] in
/-- In a list with rising keys, the keys after the first are above it. -/
theorem rising_cons (k : Nat) (v : α) (t : NMap α) :
    Rising ((k, v) :: t) = true ↔ (∀ e ∈ t, k < e.1) ∧ Rising t = true := by
  induction t generalizing k v with
  | nil => simp [Rising]
  | cons e t ih =>
    obtain ⟨k', v'⟩ := e
    simp only [Rising, Bool.and_eq_true, decide_eq_true_eq, List.mem_cons, forall_eq_or_imp]
    constructor
    · rintro ⟨h1, h2⟩
      exact ⟨⟨h1, fun e he => Nat.lt_trans h1 (((ih k' v').mp h2).1 e he)⟩, h2⟩
    · rintro ⟨⟨h1, -⟩, h2⟩
      exact ⟨h1, h2⟩

omit [DecidableEq α] in
theorem mem_mput (m : NMap α) (k : Nat) (v : α) (e : Nat × α) (h : e ∈ mput m k v) : e = (k, v) ∨ e ∈ m := by
  induction m with
  | nil => simpa [mput] using h
  | cons x t ih =>
    obtain ⟨k', v'⟩ := x
    simp only [mput] at h
    split at h
    · simpa using h
    · split at h
      · rcases List.mem_cons.mp h with h | h
        · exact Or.inl h
        · exact Or.inr (List.mem_cons_of_mem _ h)
      · rcases List.mem_cons.mp h with h | h
        · exact Or.inr (by simp [h])
        · rcases ih h with h | h
          · exact Or.inl h
          · exact Or.inr (List.mem_cons_of_mem _ h)

omit [DecidableEq α] in
theorem rising_mput (m : NMap α) (k : Nat) (v : α) (h : Rising m = true) : Rising (mput m k v) = true := by
  induction m with
  | nil => rfl
  | cons e t ih =>
    obtain ⟨k', v'⟩ := e
    have h' := (rising_cons k' v' t).mp h
    simp only [mput]
    split
    · rename_i hk
      simp [Rising, hk, h]
    · split
      · rename_i hk
        subst hk
        exact (rising_cons k v t).mpr h'
      · refine (rising_cons k' v' _).mpr ⟨fun e he => ?_, ih h'.2⟩
        rcases mem_mput t k v e he with rfl | he
        · simp only
          omega
        · exact h'.1 e he

omit [DecidableEq α] in
theorem rising_mdel (m : NMap α) (k : Nat) (h : Rising m = true) : Rising (mdel m k) = true := by
  induction m with
  | nil => rfl
  | cons e t ih =>
    obtain ⟨k', v'⟩ := e
    have h' := (rising_cons k' v' t).mp h
    by_cases hk : k' = k
    · simpa [mdel, hk] using ih h'.2
    · have e1 : mdel ((k', v') :: t) k = (k', v') :: mdel t k := by simp [mdel, hk]
      rw [e1, rising_cons]
      exact ⟨fun e he => h'.1 e (List.mem_filter.mp he).1, ih h'.2⟩

theorem rising_mset (m : NMap α) (d : α) (k : Nat) (v : α) (h : Rising m = true) : Rising (mset m d k v) = true := by
  unfold mset
  split
  · exact rising_mdel m k h
  · exact rising_mput m k v h

theorem rising_mupd (m : NMap α) (d : α) (k : Nat) (f : α → α) (h : Rising m = true) : Rising (mupd m d k f) = true :=
  rising_mset m d k _ h

end Sys2Proof.Machine
end

