-- ==== Sys2Proof/Laws/Keeps.lean ====
section
/-! SUPPORT. What every command keeps: the queue of waiting commands is untouched, the floors and the revocations of R456 never fall, and the
dictionary's objects stay in their canonical form. -/

namespace Sys2Proof.Machine

structure Keeps (s t : State) : Prop where
  pending : t.pending = s.pending
  floors  : FloorsHold s.fw t.fw
  objs    : Canonical s.objs = true → Canonical t.objs = true

def Goes (s : State) (o : Host.Outcome State Fault Refusal) : Prop := ∃ t, o = .next t ∧ Keeps s t

theorem FloorsHold.refl (x : FwSt) : FloorsHold x x := ⟨Nat.le_refl _, Nat.le_refl _, fun _ h => h⟩

theorem FloorsHold.trans {x y z : FwSt} (h : FloorsHold x y) (g : FloorsHold y z) : FloorsHold x z :=
  ⟨Nat.le_trans h.mc g.mc, Nat.le_trans h.eng g.eng, fun i hi => g.revoked i (h.revoked i hi)⟩

theorem Keeps.refl (s : State) : Keeps s s := ⟨rfl, .refl _, id⟩

theorem Keeps.trans {s t u : State} (h : Keeps s t) (g : Keeps t u) : Keeps s u :=
  ⟨g.pending.trans h.pending, h.floors.trans g.floors, fun c => g.objs (h.objs c)⟩

theorem keeps_mk {s0 s : State} {a1 a2 a3 a4 a6 a7 a8 a9 a10 a11 a12 a13 a14 a15 a16 a17 a18 a19 a20 a21 a22 a23 a24 a25 a26 a27 a28 a29}
    (h : Keeps s0 s) :
    Keeps s0 (State.mk s.pending a1 a2 a3 a4 s.objs a6 a7 a8 a9 a10 a11 a12 a13 a14 a15 a16 a17 a18 a19 a20 a21 a22 a23 a24 a25 a26 a27 a28 a29 s.fw) :=
  ⟨h.pending, h.floors, h.objs⟩

theorem keeps_mkAll {s0 s : State} {a1 a2 a3 a4 a6 a7 a8 a9 a10 a11 a12 a13 a14 a15 a16 a17 a18 a19 a20 a21 a22 a23 a24 a25 a26 a27 a28 a29 o x}
    (ho : Canonical s.objs = true → Canonical o = true) (hx : FloorsHold s.fw x) (h : Keeps s0 s) :
    Keeps s0 (State.mk s.pending a1 a2 a3 a4 o a6 a7 a8 a9 a10 a11 a12 a13 a14 a15 a16 a17 a18 a19 a20 a21 a22 a23 a24 a25 a26 a27 a28 a29 x) :=
  ⟨h.pending, h.floors.trans hx, fun c => ho (h.objs c)⟩

theorem keeps_fst {α : Type} {s0 a : State} {b : α} {x : State × α} (e : x = (a, b)) (h : Keeps s0 x.1) : Keeps s0 a := by
  rw [e] at h
  exact h

theorem floors_same {x y : FwSt} (h1 : y.floorMc = x.floorMc) (h2 : y.floorEng = x.floorEng) (h3 : y.revoked = x.revoked) :
    FloorsHold x y :=
  ⟨Nat.le_of_eq h1.symm, Nat.le_of_eq h2.symm, fun i hi => by rw [h3]; exact hi⟩

theorem setBit_keeps (n k i : Nat) (h : n.testBit i = true) : (setBit n k true).testBit i = true := by
  simp [setBit, h]

theorem goes_next {s t : State} (h : Keeps s t) : Goes s (.next t) := ⟨t, rfl, h⟩

theorem keeps_foldl {α : Type} {s0 s : State} {f : State → α → State} {l : List α}
    (hf : ∀ t a, Keeps s0 t → Keeps s0 (f t a)) (h : Keeps s0 s) : Keeps s0 (l.foldl f s) := by
  induction l generalizing s with
  | nil => exact h
  | cons a t ih => exact ih (hf s a h)

theorem keeps_foldl1 {α β : Type} {s0 : State} {f : State × β → α → State × β} {l : List α} {x : State × β}
    (hf : ∀ y a, Keeps s0 y.1 → Keeps s0 (f y a).1) (h : Keeps s0 x.1) : Keeps s0 (l.foldl f x).1 := by
  induction l generalizing x with
  | nil => exact h
  | cons a t ih => exact ih (hf x a h)

theorem canonical_mset {m : NMap Nat} (k v : Nat) (h : Canonical m = true) : Canonical (mset m (dfltOf k) k v) = true := by
  simp only [Canonical, Bool.and_eq_true, List.all_eq_true, bne_iff_ne, ne_eq] at h ⊢
  refine ⟨rising_mset m _ k v h.1, fun e he => ?_⟩
  unfold mset at he
  split at he
  · exact h.2 e (List.mem_filter.mp he).1
  · rcases mem_mput m k v e he with rfl | he
    · assumption
    · exact h.2 e he

theorem rising_filter {α : Type} (m : NMap α) (p : Nat × α → Bool) (h : Rising m = true) : Rising (m.filter p) = true := by
  induction m with
  | nil => rfl
  | cons e t ih =>
    obtain ⟨k', v'⟩ := e
    have h' := (rising_cons k' v' t).mp h
    by_cases hk : p (k', v') = true
    · rw [List.filter_cons_of_pos hk, rising_cons]
      exact ⟨fun e he => h'.1 e (List.mem_filter.mp he).1, ih h'.2⟩
    · rw [List.filter_cons_of_neg hk]
      exact ih h'.2

theorem canonical_filter {m : NMap Nat} (p : Nat × Nat → Bool) (h : Canonical m = true) : Canonical (m.filter p) = true := by
  simp only [Canonical, Bool.and_eq_true, List.all_eq_true] at h ⊢
  exact ⟨rising_filter m p h.1, fun e he => h.2 e (List.mem_filter.mp he).1⟩

theorem keeps_wr {s0 s : State} {k v : Nat} (h : Keeps s0 s) : Keeps s0 (s.wr k v) :=
  ⟨h.pending, h.floors, fun c => canonical_mset k v (h.objs c)⟩

theorem keeps_toDflt {s0 s : State} {k : Nat} (h : Keeps s0 s) : Keeps s0 (s.toDflt k) :=
  ⟨h.pending, h.floors, fun c => canonical_filter _ (h.objs c)⟩

end Sys2Proof.Machine
end

