-- ==== Sys2Proof/Laws/KeepsHost.lean ====
section
/-!
SUPPORT. Every operation of access to the dictionary, the host endpoint and the counters keeps what Keeps says, one lemma each.
-/

namespace Sys2Proof.Machine

theorem keeps_add {s0 s : State} {k n} (hk : Keeps s0 s) : Keeps s0 (State.add s k n) := by
  unfold State.add
  repeat' first | with_reducible assumption | with_reducible apply keeps_wr

theorem keeps_inc {s0 s : State} {k} (hk : Keeps s0 s) : Keeps s0 (State.inc s k) := by
  unfold State.inc
  repeat' first | with_reducible assumption | with_reducible apply keeps_add

theorem keeps_wrS {s0 s : State} {k v} (hk : Keeps s0 s) : Keeps s0 (State.wrS s k v) := by
  unfold State.wrS
  repeat' first | with_reducible assumption | with_reducible apply keeps_wr

theorem keeps_wrSt {s0 s : State} {k st} (hk : Keeps s0 s) : Keeps s0 (State.wrSt s k st) := by
  unfold State.wrSt
  repeat' first | with_reducible assumption | with_reducible apply keeps_wr

theorem keeps_wrIf {s0 s : State} {c k v} (hk : Keeps s0 s) : Keeps s0 (State.wrIf s c k v) := by
  unfold State.wrIf
  repeat' first | with_reducible assumption | with_reducible apply keeps_wr | split

theorem keeps_emit {s0 s : State} {o} (hk : Keeps s0 s) : Keeps s0 (State.emit s o) := by
  unfold State.emit
  repeat' first | with_reducible assumption | (with_reducible apply keeps_mk)

theorem keeps_wrB {s0 s : State} {k l} (hk : Keeps s0 s) : Keeps s0 (State.wrB s k l) := by
  unfold State.wrB
  repeat' first | with_reducible assumption | with_reducible apply keeps_wr

theorem keeps_open_ {s0 s : State} (hk : Keeps s0 s) : Keeps s0 (State.open_ s).2 := by
  unfold State.open_
  repeat' first | with_reducible assumption | (with_reducible apply keeps_mk)

theorem keeps_oneOf {s0 s : State} {l} (hk : Keeps s0 s) : Keeps s0 (State.oneOf s l).2 := by
  unfold State.oneOf
  repeat' first | with_reducible assumption | with_reducible apply keeps_open_ | split

theorem keeps_openBit {s0 s : State} (hk : Keeps s0 s) : Keeps s0 (State.openBit s).2 := by
  unfold State.openBit
  repeat' first | with_reducible assumption | with_reducible apply keeps_open_

theorem keeps_openPair {s0 s : State} (hk : Keeps s0 s) : Keeps s0 (State.openPair s).2 := by
  unfold State.openPair
  repeat' first | with_reducible assumption | with_reducible apply keeps_open_

theorem keeps_setFn {s0 s : State} {f v} (hk : Keeps s0 s) : Keeps s0 (State.setFn s f v) := by
  unfold State.setFn
  repeat' first | with_reducible assumption | with_reducible apply keeps_wr

theorem keeps_updFn {s0 s : State} {f g} (hk : Keeps s0 s) : Keeps s0 (State.updFn s f g) := by
  unfold State.updFn
  repeat' first | with_reducible assumption | (with_reducible apply keeps_mk)

theorem keeps_perfEvent {s0 s : State} {t code num o} (hk : Keeps s0 s) : Keeps s0 (State.perfEvent s t code num o) := by
  unfold State.perfEvent
  repeat' first
    | with_reducible assumption | ((try lift_lets); intro x; clear_value x) | with_reducible apply keeps_add
    | (with_reducible apply keeps_foldl; intro _ _ _) | split

theorem keeps_perfRange {s0 s : State} {t code addr len o} (hk : Keeps s0 s) :
    Keeps s0 (State.perfRange s t code addr len o) := by
  unfold State.perfRange
  repeat' first
    | with_reducible assumption | ((try lift_lets); intro x; clear_value x) | with_reducible apply keeps_add
    | (with_reducible apply keeps_foldl; intro _ _ _) | split

theorem keeps_perfOpen {s0 s : State} {t code o} (hk : Keeps s0 s) : Keeps s0 (State.perfOpen s t code o) := by
  unfold State.perfOpen
  repeat' first | with_reducible assumption | with_reducible apply keeps_open_ | with_reducible apply keeps_perfEvent | split

theorem keeps_updVec {s0 s : State} {v f} (hk : Keeps s0 s) : Keeps s0 (State.updVec s v f) := by
  unfold State.updVec
  repeat' first | with_reducible assumption | (with_reducible apply keeps_mk)

theorem keeps_sendVector {s0 s : State} {v} (hk : Keeps s0 s) : Keeps s0 (State.sendVector s v) := by
  unfold State.sendVector
  repeat' first
    | with_reducible assumption | with_reducible apply keeps_updVec | with_reducible apply keeps_emit
    | with_reducible apply keeps_inc | split

theorem keeps_signal {s0 s : State} {v now} (hk : Keeps s0 s) : Keeps s0 (State.signal s v now) := by
  unfold State.signal
  repeat' first
    | with_reducible assumption
    | ((try lift_lets); intro x; refine (?_ : Keeps s0 x → _) ?_; (clear_value x; intro hx); (rotate_left; subst x; rotate_right))
    | with_reducible apply keeps_updVec | with_reducible apply keeps_sendVector | split

theorem keeps_sendPending {s0 s : State} (hk : Keeps s0 s) : Keeps s0 (State.sendPending s) := by
  unfold State.sendPending
  repeat' first
    | with_reducible assumption | with_reducible apply keeps_sendVector | (with_reducible apply keeps_foldl; intro _ _ _)
    | split

theorem keeps_updRing {s0 s : State} {r f} (hk : Keeps s0 s) : Keeps s0 (State.updRing s r f) := by
  unfold State.updRing
  repeat' first | with_reducible assumption | (with_reducible apply keeps_mk)

theorem keeps_updReads {s0 s : State} {f} (hk : Keeps s0 s) : Keeps s0 (State.updReads s f) := by
  unfold State.updReads
  repeat' first | with_reducible assumption | (with_reducible apply keeps_mk)

theorem keeps_countReads {s0 s : State} (hk : Keeps s0 s) : Keeps s0 (State.countReads s) := by
  unfold State.countReads
  repeat' first | with_reducible assumption | with_reducible apply keeps_wr

theorem keeps_request {s0 s : State} {tag q o} (hk : Keeps s0 s) : Keeps s0 (State.request s tag q o) := by
  unfold State.request
  repeat' first
    | with_reducible assumption | with_reducible apply keeps_emit | with_reducible apply keeps_countReads
    | with_reducible apply keeps_updReads

theorem keeps_hitPage {s0 s : State} {page} (hk : Keeps s0 s) : Keeps s0 (State.hitPage s page) := by
  unfold State.hitPage
  repeat' first | with_reducible assumption | with_reducible apply keeps_inc | split | (with_reducible apply keeps_mk)

theorem keeps_requestPage {s0 s : State} {ring page} (hk : Keeps s0 s) : Keeps s0 (State.requestPage s ring page) := by
  unfold State.requestPage
  repeat' first | with_reducible assumption | with_reducible apply keeps_request | with_reducible apply keeps_inc | split

theorem keeps_dropRecord {s0 s : State} {r} (hk : Keeps s0 s) : Keeps s0 (State.dropRecord s r) := by
  unfold State.dropRecord
  repeat' first | with_reducible assumption | with_reducible apply keeps_updRing | with_reducible apply keeps_inc

theorem keeps_writeRecord {s0 s : State} {e} (hk : Keeps s0 s) : Keeps s0 (State.writeRecord s e) := by
  unfold State.writeRecord
  repeat' first
    | with_reducible assumption | with_reducible apply keeps_emit | with_reducible apply keeps_perfRange
    | with_reducible apply keeps_wr | with_reducible apply keeps_updRing | with_reducible apply keeps_signal

theorem keeps_sendRecords {s0 x3 : State} {r x2} (hk : Keeps s0 x3) : Keeps s0 (State.sendRecords r x2 x3) := by
  induction x2 generalizing x3 r with
  | nil =>
    unfold State.sendRecords
    repeat' first | with_reducible assumption
  | cons _ _ ih =>
    unfold State.sendRecords
    repeat' first
      | with_reducible assumption
      | ((try lift_lets); intro x; refine (?_ : Keeps s0 x.2.2 → _) ?_; (clear_value x; intro hx); (rotate_left; subst x; rotate_right))
      | with_reducible apply ih | with_reducible apply keeps_requestPage | with_reducible apply keeps_updRing
      | with_reducible apply keeps_writeRecord | with_reducible apply keeps_hitPage | with_reducible apply keeps_dropRecord
      | split

theorem keeps_flushRing {s0 s : State} {r} (hk : Keeps s0 s) : Keeps s0 (State.flushRing s r) := by
  unfold State.flushRing
  repeat' first | with_reducible assumption | with_reducible apply keeps_sendRecords | with_reducible apply keeps_updRing

theorem keeps_dropWaiting {s0 s : State} {r} (hk : Keeps s0 s) : Keeps s0 (State.dropWaiting s r) := by
  unfold State.dropWaiting
  repeat' first
    | with_reducible assumption | with_reducible apply keeps_dropRecord | with_reducible apply keeps_updRing
    | (with_reducible apply keeps_foldl; intro _ _ _)

theorem keeps_dropAllWaiting {s0 s : State} (hk : Keeps s0 s) : Keeps s0 (State.dropAllWaiting s) := by
  unfold State.dropAllWaiting
  repeat' first
    | with_reducible assumption | with_reducible apply keeps_dropWaiting | (with_reducible apply keeps_foldl; intro _ _ _)

theorem keeps_forward {s0 s : State} {e} (hk : Keeps s0 s) : Keeps s0 (State.forward s e) := by
  unfold State.forward
  repeat' first
    | with_reducible assumption | with_reducible apply keeps_open_ | with_reducible apply keeps_emit | split
    | (with_reducible apply keeps_mk)

theorem keeps_raiseNow {s0 s : State} {r type func sev a0 a1 a2} (hk : Keeps s0 s) :
    Keeps s0 (State.raiseNow s r type func sev a0 a1 a2) := by
  unfold State.raiseNow
  repeat' first
    | with_reducible assumption
    | ((try lift_lets); intro x; refine (?_ : Keeps s0 x → _) ?_; (clear_value x; intro hx); (rotate_left; subst x; rotate_right))
    | ((try lift_lets); intro x; refine (?_ : Keeps s0 x.1 → _) ?_; (clear_value x; intro hx); (rotate_left; subst x; rotate_right))
    | ((try lift_lets); intro x; clear_value x) | with_reducible apply keeps_updRing | with_reducible apply keeps_forward
    | with_reducible apply keeps_sendRecords | with_reducible apply keeps_dropRecord | split

theorem keeps_updChan {s0 s : State} {n f} (hk : Keeps s0 s) : Keeps s0 (State.updChan s n f) := by
  unfold State.updChan
  repeat' first | with_reducible assumption | (with_reducible apply keeps_mk)

theorem keeps_carried {s0 s : State} {n} (hk : Keeps s0 s) : Keeps s0 (State.carried s n) := by
  unfold State.carried
  repeat' first | with_reducible assumption | with_reducible apply keeps_updChan | split

theorem keeps_raise {s0 s : State} {r type func sev a0 a1 a2} (hk : Keeps s0 s) :
    Keeps s0 (State.raise s r type func sev a0 a1 a2) := by
  unfold State.raise
  repeat' first
    | with_reducible assumption | with_reducible apply keeps_raiseNow | with_reducible apply keeps_carried | split
    | (with_reducible apply keeps_mk)

theorem keeps_raiseLimited {s0 s : State} {id gap r type func sev a0 a1 a2} (hk : Keeps s0 s) :
    Keeps s0 (State.raiseLimited s id gap r type func sev a0 a1 a2) := by
  unfold State.raiseLimited
  repeat' first
    | with_reducible assumption | (intro _) | with_reducible apply keeps_raise | split | (with_reducible apply keeps_mk)

theorem keeps_countAccess {s0 s : State} {p k} (hk : Keeps s0 s) : Keeps s0 (State.countAccess s p k) := by
  unfold State.countAccess
  repeat' first | with_reducible assumption | with_reducible apply keeps_perfEvent

theorem keeps_linked {s0 s : State} {k} (hk : Keeps s0 s) : Keeps s0 (State.linked s k) := by
  unfold State.linked
  repeat' first | with_reducible assumption | with_reducible apply keeps_carried | split

theorem keeps_atMailbox {s0 s : State} {p} (hk : Keeps s0 s) : Keeps s0 (State.atMailbox s p) := by
  unfold State.atMailbox
  repeat' first | with_reducible assumption | with_reducible apply keeps_wr | split

theorem keeps_hold {s0 s : State} {h} (hk : Keeps s0 s) : Keeps s0 (State.hold s h) := by
  unfold State.hold
  repeat' first | with_reducible assumption | with_reducible apply keeps_atMailbox | (with_reducible apply keeps_mk)

theorem keeps_unsupported {s0 s : State} {posted} (hk : Keeps s0 s) : Keeps s0 (State.unsupported s posted) := by
  unfold State.unsupported
  repeat' first
    | with_reducible assumption | with_reducible apply keeps_open_ | with_reducible apply keeps_emit
    | with_reducible apply keeps_inc | split

theorem keeps_dropHalves {s0 s : State} (hk : Keeps s0 s) : Keeps s0 (State.dropHalves s) := by
  unfold State.dropHalves
  repeat' first | with_reducible assumption | with_reducible apply keeps_inc | split | (with_reducible apply keeps_mk)

theorem keeps_windowWrote {s0 s : State} {k st} (hk : Keeps s0 s) : Keeps s0 (State.windowWrote s k st) := by
  unfold State.windowWrote
  repeat' first
    | with_reducible assumption | with_reducible apply keeps_wr | with_reducible apply keeps_wrSt
    | with_reducible apply keeps_inc | split

theorem keeps_windowRead {s0 s : State} {k st} (hk : Keeps s0 s) : Keeps s0 (State.windowRead s k st) := by
  unfold State.windowRead
  repeat' first | with_reducible assumption | with_reducible apply keeps_wrSt | with_reducible apply keeps_inc | split

theorem keeps_mailboxDone {s0 s : State} {object bytes st} (hk : Keeps s0 s) :
    Keeps s0 (State.mailboxDone s object bytes st) := by
  unfold State.mailboxDone
  repeat' first
    | with_reducible assumption | with_reducible apply keeps_wrSt | with_reducible apply keeps_wr
    | with_reducible apply keeps_raise

theorem keeps_mailboxBusy {s0 s : State} {k st} (hk : Keeps s0 s) : Keeps s0 (State.mailboxBusy s k st) := by
  unfold State.mailboxBusy
  repeat' first | with_reducible assumption | with_reducible apply keeps_emit | with_reducible apply keeps_windowWrote

theorem keeps_unauthentic {s0 s : State} {k} (hk : Keeps s0 s) : Keeps s0 (State.unauthentic s k) := by
  unfold State.unauthentic
  repeat' first | with_reducible assumption | with_reducible apply keeps_emit | with_reducible apply keeps_inc

theorem keeps_finish {s0 s : State} {p k bytes st} (hk : Keeps s0 s) : Keeps s0 (State.finish s p k bytes st) := by
  unfold State.finish
  repeat' first
    | with_reducible assumption | with_reducible apply keeps_countAccess | with_reducible apply keeps_emit
    | with_reducible apply keeps_windowWrote | with_reducible apply keeps_mailboxDone | split | (with_reducible apply keeps_mk)

theorem keeps_accessRefused {s0 s : State} {p k bytes st} (hk : Keeps s0 s) :
    Keeps s0 (State.accessRefused s p k bytes st) := by
  unfold State.accessRefused
  repeat' first
    | with_reducible assumption | with_reducible apply keeps_mailboxBusy | with_reducible apply keeps_unauthentic
    | with_reducible apply keeps_finish | split

theorem keeps_access {s0 s : State} {p k data f} (hf : ∀ t, Keeps s0 t → Keeps s0 (f t).1) (h : Keeps s0 s) :
    Keeps s0 (access p k data f s) := by
  have hd : Keeps s0 (if p = .window then s.dropHalves else s) := by
    split
    · exact keeps_dropHalves h
    · exact h
  unfold access
  dsimp only
  generalize (if p = .window then s.dropHalves else s) = x at hd
  split
  · exact h
  · exact keeps_unsupported h
  · exact keeps_hold h
  · exact keeps_accessRefused hd
  · exact keeps_finish (hf _ (keeps_linked hd))

theorem keeps_noArg {s0 s : State} {arg f} (hf : Keeps s0 (f s).1) (h : Keeps s0 s) : Keeps s0 (noArg arg f s).1 := by
  unfold noArg
  split
  · exact hf
  · exact h

theorem keeps_done {s0 s : State} (hk : Keeps s0 s) : Goes s0 (done s) := by
  unfold done
  repeat' first | with_reducible apply goes_next | with_reducible assumption

theorem keeps_updD {s0 s : State} {n f} (hk : Keeps s0 s) : Keeps s0 (State.updD s n f) := by
  unfold State.updD
  repeat' first | with_reducible assumption | (with_reducible apply keeps_mk)

theorem keeps_orphanIf {s0 s : State} {f} (hk : Keeps s0 s) : Keeps s0 (State.orphanIf s f) := by
  unfold State.orphanIf
  repeat' first | with_reducible assumption | with_reducible apply keeps_updReads

theorem keeps_orphan {s0 s : State} {n} (hk : Keeps s0 s) : Keeps s0 (State.orphan s n) := by
  unfold State.orphan
  repeat' first | with_reducible assumption | with_reducible apply keeps_orphanIf

theorem keeps_orphanAll {s0 s : State} (hk : Keeps s0 s) : Keeps s0 (State.orphanAll s) := by
  unfold State.orphanAll
  repeat' first | with_reducible assumption | with_reducible apply keeps_orphanIf

theorem keeps_hitPages {s0 s : State} {addr len} (hk : Keeps s0 s) : Keeps s0 (State.hitPages s addr len) := by
  unfold State.hitPages
  repeat' first
    | with_reducible assumption | with_reducible apply keeps_hitPage | (with_reducible apply keeps_foldl; intro _ _ _)

theorem keeps_dmaBytes {s0 s : State} {write addr len} (hk : Keeps s0 s) : Keeps s0 (State.dmaBytes s write addr len) := by
  unfold State.dmaBytes
  repeat' first | with_reducible assumption | with_reducible apply keeps_perfRange

theorem keeps_writeBuffer {s0 s : State} {addr d} (hk : Keeps s0 s) : Keeps s0 (State.writeBuffer s addr d) := by
  unfold State.writeBuffer
  repeat' first
    | with_reducible assumption | with_reducible apply keeps_dmaBytes | with_reducible apply keeps_emit
    | with_reducible apply keeps_hitPages

theorem keeps_completeHead {s0 s : State} {n irq status len result} (hk : Keeps s0 s) :
    Keeps s0 (State.completeHead s n irq status len result) := by
  unfold State.completeHead
  repeat' first
    | with_reducible assumption | with_reducible apply keeps_emit | with_reducible apply keeps_dmaBytes
    | with_reducible apply keeps_inc | with_reducible apply keeps_wr | with_reducible apply keeps_updD
    | with_reducible apply keeps_signal | split

theorem keeps_haltRing {s0 s : State} {n cause} (hk : Keeps s0 s) : Keeps s0 (State.haltRing s n cause) := by
  unfold State.haltRing
  repeat' first
    | with_reducible assumption | with_reducible apply keeps_wr | with_reducible apply keeps_raise
    | with_reducible apply keeps_signal

theorem keeps_dropFlight {s0 s : State} {n} (hk : Keeps s0 s) : Keeps s0 (State.dropFlight s n) := by
  unfold State.dropFlight
  repeat' first | with_reducible assumption | with_reducible apply keeps_updD | with_reducible apply keeps_orphan

theorem keeps_payOne {s0 s : State} {n f} (hk : Keeps s0 s) : Keeps s0 (State.payOne s n f) := by
  unfold State.payOne
  repeat' first
    | with_reducible assumption | with_reducible apply keeps_hitPages | with_reducible apply keeps_completeHead | split

theorem keeps_payFlight {s0 s : State} {n} (hk : Keeps s0 s) : Keeps s0 (State.payFlight s n) := by
  unfold State.payFlight
  repeat' first
    | with_reducible assumption | with_reducible apply keeps_payOne | with_reducible apply keeps_updD
    | (with_reducible apply keeps_foldl; intro _ _ _)

theorem keeps_suspendRing {s0 s : State} {cause n} (hk : Keeps s0 s) : Keeps s0 (State.suspendRing s cause n) := by
  unfold State.suspendRing
  repeat' first
    | with_reducible assumption | with_reducible apply keeps_add | with_reducible apply keeps_updD
    | with_reducible apply keeps_orphan | with_reducible apply keeps_haltRing | split

theorem keeps_eachRing {s0 s : State} {f} (hf1 : ∀ t x1, Keeps s0 t → Keeps s0 (f t x1)) (hk : Keeps s0 s) :
    Keeps s0 (State.eachRing s f) := by
  unfold State.eachRing
  repeat' first | with_reducible assumption | with_reducible apply hf1 | (with_reducible apply keeps_foldl; intro _ _ _)

theorem keeps_askPage {s0 s : State} {n page slot} (hk : Keeps s0 s) : Keeps s0 (State.askPage s n page slot) := by
  unfold State.askPage
  repeat' first | with_reducible assumption | with_reducible apply keeps_updD | with_reducible apply keeps_requestPage | split

theorem keeps_readBuffer {s0 x4 : State} {x1 x2 x3} (hk : Keeps s0 x4) : Keeps s0 (State.readBuffer x1 x2 x3 x4) := by
  induction x1 generalizing x4 x2 x3 with
  | zero =>
    unfold State.readBuffer
    repeat' first | with_reducible assumption
  | succ _ ih =>
    unfold State.readBuffer
    repeat' first
      | with_reducible assumption
      | ((try lift_lets); intro x; refine (?_ : Keeps s0 x → _) ?_; (clear_value x; intro hx); (rotate_left; subst x; rotate_right))
      | ((try lift_lets); intro x; clear_value x) | with_reducible apply ih | with_reducible apply keeps_askPage
      | with_reducible apply keeps_request | with_reducible apply keeps_hitPages | with_reducible apply keeps_updD | split

theorem keeps_fetchNext {s0 s : State} {n} (hk : Keeps s0 s) : Keeps s0 (State.fetchNext s n) := by
  unfold State.fetchNext
  repeat' first
    | with_reducible assumption | ((try lift_lets); intro x; clear_value x) | with_reducible apply keeps_askPage
    | with_reducible apply keeps_request | with_reducible apply keeps_hitPages | split

theorem keeps_payOwing {s0 x3 : State} {x1 x2} (hk : Keeps s0 x3) : Keeps s0 (State.payOwing x1 x2 x3) := by
  induction x1 generalizing x3 x2 with
  | zero =>
    unfold State.payOwing
    repeat' first | with_reducible assumption
  | succ _ ih =>
    unfold State.payOwing
    repeat' first
      | with_reducible assumption | with_reducible apply ih | with_reducible apply keeps_askPage
      | with_reducible apply keeps_updD | with_reducible apply keeps_payOne | split

theorem keeps_turns {s0 s : State} {fuel} (h : Keeps s0 s) : Keeps s0 (State.turns fuel s) := by
  induction fuel generalizing s with
  | zero => exact h
  | succ fuel ih =>
    have step : ∀ (t : State) (n m k : Nat), Keeps s0 t →
        Keeps s0 (if !(t.dring n).owing.isEmpty then t.payOwing k n else match t.toRead n with
          | some f => if t.live n && (t.dring n).waitPage.isNone then t.readBuffer m n f.slot else t.fetchNext n
          | none => t.fetchNext n) := by
      intro t n m k ht
      split
      · exact keeps_payOwing ht
      cases t.toRead n with
      | none => exact keeps_fetchNext ht
      | some f =>
        dsimp only
        split
        · exact keeps_readBuffer ht
        · exact keeps_fetchNext ht
    unfold State.turns
    generalize ((List.range 48).map fun i => (s.host.turn + i) % 48).find? s.hasTurn = o
    generalize s.freeTag = tag
    cases o with
    | none => exact h
    | some n =>
      cases tag with
      | none => exact h
      | some t => exact ih (step _ n 768 16 (keeps_mk h))

theorem keeps_pumpAll {s0 s : State} (hk : Keeps s0 s) : Keeps s0 (State.pumpAll s) := by
  unfold State.pumpAll
  repeat' first
    | with_reducible assumption | with_reducible apply keeps_turns | with_reducible apply keeps_flushRing
    | (with_reducible apply keeps_foldl; intro _ _ _) | split

theorem keeps_cmdArm {s0 s : State} {n} (hk : Keeps s0 s) : Keeps s0 (cmdArm n s).1 := by
  unfold cmdArm
  repeat' first
    | with_reducible assumption
    | ((try lift_lets); intro x; refine (?_ : Keeps s0 x → _) ?_; (clear_value x; intro hx); (rotate_left; subst x; rotate_right))
    | ((try lift_lets); intro x; clear_value x) | with_reducible apply keeps_updD | with_reducible apply keeps_dropFlight
    | with_reducible apply keeps_pumpAll | with_reducible apply keeps_payOwing | with_reducible apply keeps_wr | split

theorem keeps_startNone {s0 s : State} {n} (hk : Keeps s0 s) : Keeps s0 (State.startNone s n) := by
  unfold State.startNone
  repeat' first
    | with_reducible assumption
    | ((try lift_lets); intro x; refine (?_ : Keeps s0 x → _) ?_; (clear_value x; intro hx); (rotate_left; subst x; rotate_right))
    | with_reducible apply keeps_orphanIf | with_reducible apply keeps_updD | split

theorem keeps_cmdHalt {s0 s : State} {n} (hk : Keeps s0 s) : Keeps s0 (cmdHalt n s).1 := by
  unfold cmdHalt
  repeat' first | with_reducible assumption | with_reducible apply keeps_wr | with_reducible apply keeps_startNone | split

theorem keeps_cmdResetRing {s0 s : State} {n} (hk : Keeps s0 s) : Keeps s0 (cmdResetRing n s).1 := by
  unfold cmdResetRing
  repeat' first
    | with_reducible assumption
    | ((try lift_lets); intro x; refine (?_ : Keeps s0 x → _) ?_; (clear_value x; intro hx); (rotate_left; subst x; rotate_right))
    | ((try lift_lets); intro x; clear_value x) | with_reducible apply keeps_updD | with_reducible apply keeps_orphan
    | with_reducible apply keeps_wr | split

theorem keeps_execArm {s0 s : State} {p r arg} (hk : Keeps s0 s) : Goes s0 (execArm p r arg s) := by
  unfold execArm
  repeat' first
    | with_reducible apply goes_next | with_reducible assumption | (intro _) | with_reducible apply keeps_access
    | with_reducible apply keeps_noArg | with_reducible apply keeps_cmdArm

theorem keeps_execHalt {s0 s : State} {p r arg} (hk : Keeps s0 s) : Goes s0 (execHalt p r arg s) := by
  unfold execHalt
  repeat' first
    | with_reducible apply goes_next | with_reducible assumption | (intro _) | with_reducible apply keeps_access
    | with_reducible apply keeps_noArg | with_reducible apply keeps_cmdHalt

theorem keeps_execReset {s0 s : State} {p r arg} (hk : Keeps s0 s) : Goes s0 (execReset p r arg s) := by
  unfold execReset
  repeat' first
    | with_reducible apply goes_next | with_reducible assumption | (intro _) | with_reducible apply keeps_access
    | with_reducible apply keeps_noArg | with_reducible apply keeps_cmdResetRing

theorem keeps_execRingHalted {s0 s : State} {r} (hk : Keeps s0 s) : Goes s0 (execRingHalted r s) := by
  unfold execRingHalted
  repeat' first
    | with_reducible apply goes_next | (show Goes s0 _; split) | with_reducible assumption | with_reducible apply keeps_haltRing

theorem keeps_eventTail {s0 s : State} {ring v} (hk : Keeps s0 s) : Keeps s0 (State.eventTail s ring v) := by
  unfold State.eventTail
  repeat' first | with_reducible assumption | with_reducible apply keeps_wr | with_reducible apply keeps_inc | split

theorem keeps_execDoorbell {s0 s : State} {ring value} (h : Keeps s0 s) :
    Goes s0 (execDoorbell ring value s) := by
  unfold execDoorbell
  split
  · exact goes_next h
  · split
    · exact goes_next (keeps_unsupported h)
    · dsimp only
      generalize hs : ({ s with host := _ } : State) = x
      have hx : Keeps s0 x := hs ▸ keeps_mk h
      clear hs
      repeat' split
      · exact ⟨_, rfl, keeps_eventTail hx⟩
      · exact ⟨_, rfl, keeps_inc hx⟩
      · exact ⟨_, rfl, keeps_pumpAll (keeps_wr hx)⟩
      · exact ⟨_, rfl, keeps_haltRing (keeps_dropFlight hx)⟩
      · exact ⟨_, rfl, keeps_inc hx⟩

theorem keeps_takeDesc {s0 s : State} {n d} (hk : Keeps s0 s) : Keeps s0 (State.takeDesc s n d) := by
  unfold State.takeDesc
  repeat' first | with_reducible assumption | with_reducible apply keeps_updD | with_reducible apply keeps_dmaBytes | split

theorem keeps_readEnded {s0 s : State} {tag} (hk : Keeps s0 s) : Keeps s0 (State.readEnded s tag) := by
  unfold State.readEnded
  repeat' first | with_reducible assumption | (with_reducible apply keeps_mk)

theorem keeps_endRead {s0 s : State} {tag} (hk : Keeps s0 s) : Keeps s0 (State.endRead s tag) := by
  unfold State.endRead
  repeat' first
    | with_reducible assumption | with_reducible apply keeps_countReads | with_reducible apply keeps_readEnded
    | with_reducible apply keeps_updReads

theorem keeps_takeDescs {s0 s : State} {tag q l last} (hk : Keeps s0 s) : Keeps s0 (State.takeDescs s tag q l last) := by
  unfold State.takeDescs
  repeat' first
    | with_reducible assumption | with_reducible apply keeps_takeDesc | with_reducible apply keeps_endRead
    | with_reducible apply keeps_updReads | (with_reducible apply keeps_foldl; intro _ _ _) | split

theorem keeps_execDescriptorFetch {s0 s : State} {r d} (hk : Keeps s0 s) : Goes s0 (execDescriptorFetch r d s) := by
  unfold execDescriptorFetch
  repeat' first
    | with_reducible apply goes_next | (show Goes s0 _; split) | with_reducible assumption
    | ((try lift_lets); intro x; refine (?_ : Keeps s0 x → _) ?_; (clear_value x; intro hx); (rotate_left; subst x; rotate_right))
    | with_reducible apply keeps_fetchNext | with_reducible apply keeps_pumpAll | with_reducible apply keeps_takeDescs

theorem keeps_tookEffect {s0 s : State} {n slot st len result} (hk : Keeps s0 s) :
    Keeps s0 (State.tookEffect s n slot st len result) := by
  unfold State.tookEffect
  repeat' first | with_reducible assumption | with_reducible apply keeps_updD

theorem keeps_resumeAt {s0 s : State} {n slot record busy} (hk : Keeps s0 s) :
    Keeps s0 (State.resumeAt s n slot record busy) := by
  unfold State.resumeAt
  repeat' first | with_reducible assumption | with_reducible apply keeps_updD

theorem keeps_finishFirst {s0 s : State} {n} (hk : Keeps s0 s) : Keeps s0 (State.finishFirst s n) := by
  unfold State.finishFirst
  repeat' first
    | with_reducible assumption | with_reducible apply keeps_updD | with_reducible apply keeps_completeHead
    | with_reducible apply keeps_haltRing | with_reducible apply keeps_dropFlight | split

theorem keeps_completeFirst {s0 s : State} {n} (hk : Keeps s0 s) : Keeps s0 (State.completeFirst s n) := by
  unfold State.completeFirst
  repeat' first
    | with_reducible assumption | with_reducible apply keeps_askPage | with_reducible apply keeps_finishFirst
    | with_reducible apply keeps_hitPages | split

theorem keeps_execDescriptorComplete {s0 s : State} {r} (hk : Keeps s0 s) : Goes s0 (execDescriptorComplete r s) := by
  unfold execDescriptorComplete
  repeat' first
    | with_reducible apply goes_next | (show Goes s0 _; split) | with_reducible assumption
    | ((try lift_lets); intro x; clear_value x) | with_reducible apply keeps_pumpAll | with_reducible apply keeps_completeFirst

theorem keeps_failSlot {s0 s : State} {n slot cause st} (hk : Keeps s0 s) : Keeps s0 (State.failSlot s n slot cause st) := by
  unfold State.failSlot
  repeat' first
    | with_reducible assumption
    | ((try lift_lets); intro x; refine (?_ : Keeps s0 x → _) ?_; (clear_value x; intro hx); (rotate_left; subst x; rotate_right))
    | ((try lift_lets); intro x; clear_value x) | with_reducible apply keeps_orphanIf | with_reducible apply keeps_updD
    | with_reducible apply keeps_finishFirst | with_reducible apply keeps_completeFirst | split

theorem keeps_unexpected {s0 s : State} {tag} (hk : Keeps s0 s) : Keeps s0 (State.unexpected s tag) := by
  unfold State.unexpected
  repeat' first
    | with_reducible assumption | with_reducible apply keeps_emit | with_reducible apply keeps_wr
    | with_reducible apply keeps_inc | with_reducible apply keeps_raise | (with_reducible apply keeps_mk)

theorem keeps_owingFailed {s0 s : State} {n f t} (hk : Keeps s0 s) : Keeps s0 (State.owingFailed s n f t) := by
  unfold State.owingFailed
  repeat' first
    | with_reducible assumption | with_reducible apply keeps_updD | with_reducible apply keeps_haltRing
    | with_reducible apply keeps_completeHead

theorem keeps_pageEnded {s0 s : State} {ring granted} (hk : Keeps s0 s) : Keeps s0 (State.pageEnded s ring granted) := by
  unfold State.pageEnded
  repeat' first
    | with_reducible assumption
    | ((try lift_lets); intro x; refine (?_ : Keeps s0 x → _) ?_; (clear_value x; intro hx); (rotate_left; subst x; rotate_right))
    | ((try lift_lets); intro x; clear_value x) | with_reducible apply keeps_flushRing | with_reducible apply keeps_dropRecord
    | with_reducible apply keeps_updRing | with_reducible apply keeps_updD | with_reducible apply keeps_owingFailed
    | with_reducible apply keeps_failSlot | split

theorem keeps_failRead {s0 s : State} {q} (hk : Keeps s0 s) : Keeps s0 (State.failRead s q) := by
  unfold State.failRead
  repeat' first | with_reducible assumption | with_reducible apply keeps_failSlot | with_reducible apply keeps_pageEnded | split

theorem keeps_takeData {s0 s : State} {tag q data last} (hk : Keeps s0 s) : Keeps s0 (State.takeData s tag q data last) := by
  unfold State.takeData
  repeat' first
    | with_reducible assumption
    | ((try lift_lets); intro x; refine (?_ : Keeps s0 x → _) ?_; (clear_value x; intro hx); (rotate_left; subst x; rotate_right))
    | ((try lift_lets); intro x; clear_value x) | with_reducible apply keeps_dmaBytes | with_reducible apply keeps_updD
    | with_reducible apply keeps_endRead | with_reducible apply keeps_updReads | split

theorem keeps_execCompletionReceived {s0 s : State} {tag st data last} (hk : Keeps s0 s) :
    Goes s0 (execCompletionReceived tag st data last s) := by
  unfold execCompletionReceived
  repeat' first
    | with_reducible apply goes_next | with_reducible assumption | with_reducible apply keeps_unexpected
    | with_reducible apply keeps_endRead | with_reducible apply keeps_emit | with_reducible apply keeps_pumpAll
    | with_reducible apply keeps_failRead | with_reducible apply keeps_takeData | with_reducible apply keeps_takeDescs | split

theorem keeps_execCompletionTimeout {s0 s : State} {tag} (hk : Keeps s0 s) : Goes s0 (execCompletionTimeout tag s) := by
  unfold execCompletionTimeout
  repeat' first
    | with_reducible apply goes_next | (show Goes s0 _; split) | with_reducible assumption | with_reducible apply keeps_endRead
    | with_reducible apply keeps_emit | with_reducible apply keeps_wr | with_reducible apply keeps_inc
    | with_reducible apply keeps_raise | with_reducible apply keeps_pumpAll | with_reducible apply keeps_failRead
    | (with_reducible apply keeps_mk)

theorem keeps_execUnexpectedCpl {s0 s : State} {tag} (hk : Keeps s0 s) : Goes s0 (execUnexpectedCpl tag s) := by
  unfold execUnexpectedCpl
  repeat' first
    | with_reducible apply goes_next | (show Goes s0 _; split) | with_reducible assumption | with_reducible apply keeps_pumpAll
    | with_reducible apply keeps_unexpected

theorem keeps_execQuarantineExpiry {s0 s : State} {tag} (hk : Keeps s0 s) : Goes s0 (execQuarantineExpiry tag s) := by
  unfold execQuarantineExpiry
  repeat' first
    | with_reducible apply goes_next | with_reducible assumption | with_reducible apply keeps_pumpAll
    | with_reducible apply keeps_wr | (with_reducible apply keeps_mk)

theorem keeps_execCoalTimeExpiry {s0 s : State} {v} (hk : Keeps s0 s) : Goes s0 (execCoalTimeExpiry v s) := by
  unfold execCoalTimeExpiry
  repeat' first
    | with_reducible apply goes_next | (show Goes s0 _; split) | with_reducible assumption
    | with_reducible apply keeps_sendVector

theorem keeps_msixStore {s0 s : State} {v off d} (hk : Keeps s0 s) : Keeps s0 (State.msixStore s v off d) := by
  unfold State.msixStore
  repeat' first | with_reducible assumption | with_reducible apply keeps_updVec

theorem keeps_execMsixUnmask {s0 s : State} {w} (hk : Keeps s0 s) : Goes s0 (execMsixUnmask w s) := by
  unfold execMsixUnmask
  repeat' first
    | with_reducible apply goes_next | (show Goes s0 _; split) | with_reducible assumption
    | ((try lift_lets); intro x; clear_value x) | with_reducible apply keeps_unsupported | with_reducible apply keeps_msixStore
    | with_reducible apply keeps_sendVector

theorem keeps_learnPage {s0 s : State} {page sizeLog2} (hk : Keeps s0 s) : Keeps s0 (State.learnPage s page sizeLog2) := by
  unfold State.learnPage
  repeat' first | with_reducible assumption | with_reducible apply keeps_wr | split | (with_reducible apply keeps_mk)

theorem keeps_execTranslationCompletion {s0 s : State} {ring page sizeLog2 granted} (hk : Keeps s0 s) :
    Goes s0 (execTranslationCompletion ring page sizeLog2 granted s) := by
  unfold execTranslationCompletion
  repeat' first
    | with_reducible apply goes_next | with_reducible assumption
    | ((try lift_lets); intro x; refine (?_ : Keeps s0 x.2 → _) ?_; (clear_value x; intro hx); (rotate_left; subst x; rotate_right))
    | with_reducible apply keeps_endRead | with_reducible apply keeps_pumpAll | with_reducible apply keeps_pageEnded
    | with_reducible apply keeps_learnPage | split

theorem keeps_execInvalidateRequest {s0 s : State} {itag page sizeLog2} (hk : Keeps s0 s) :
    Goes s0 (execInvalidateRequest itag page sizeLog2 s) := by
  unfold execInvalidateRequest
  repeat' first
    | with_reducible apply goes_next | (show Goes s0 _; split) | with_reducible assumption | with_reducible apply keeps_wr
    | (with_reducible apply keeps_mk)

theorem keeps_execInvalidateComplete {s0 s : State} {itag} (hk : Keeps s0 s) : Goes s0 (execInvalidateComplete itag s) := by
  unfold execInvalidateComplete
  repeat' first
    | with_reducible apply goes_next | (show Goes s0 _; split) | with_reducible assumption | with_reducible apply keeps_emit
    | with_reducible apply keeps_inc | (with_reducible apply keeps_mk)

theorem keeps_emptyCache {s0 s : State} (hk : Keeps s0 s) : Keeps s0 (State.emptyCache s) := by
  unfold State.emptyCache
  repeat' first | with_reducible assumption | with_reducible apply keeps_wr | (with_reducible apply keeps_mk)

theorem keeps_configAccess {s0 s : State} {f} (hf1 : ∀ t, Keeps s0 t → Keeps s0 (f t)) (hk : Keeps s0 s) :
    Goes s0 (configAccess f s) := by
  unfold configAccess
  repeat' first
    | with_reducible apply goes_next | (show Goes s0 _; split) | with_reducible assumption | with_reducible apply keeps_emit
    | with_reducible apply hf1

theorem keeps_execAtsEnableClear {s0 s : State} (hk : Keeps s0 s) : Goes s0 (execAtsEnableClear s) :=
  keeps_configAccess (fun _ h => keeps_pumpAll (keeps_mk (keeps_emptyCache h))) hk

theorem keeps_freeTags {s0 s : State} (hk : Keeps s0 s) : Keeps s0 (State.freeTags s) := by
  unfold State.freeTags
  repeat' first
    | with_reducible assumption | with_reducible apply keeps_countReads | with_reducible apply keeps_wr
    | (with_reducible apply keeps_mk)

theorem keeps_linkLost {s0 s : State} (hk : Keeps s0 s) : Keeps s0 (State.linkLost s) := by
  unfold State.linkLost
  repeat' first
    | with_reducible assumption | (intro _) | with_reducible apply keeps_wr | with_reducible apply keeps_inc
    | with_reducible apply keeps_freeTags | with_reducible apply keeps_eachRing | with_reducible apply keeps_suspendRing
    | with_reducible apply keeps_emptyCache | with_reducible apply keeps_dropAllWaiting | split

theorem keeps_execPciePllLocked {s0 s : State} (hk : Keeps s0 s) : Goes s0 (execPciePllLocked s) := by
  unfold execPciePllLocked
  repeat' first
    | with_reducible apply goes_next | (show Goes s0 _; split) | with_reducible assumption | with_reducible apply keeps_wr

theorem keeps_execPciePllUnlock {s0 s : State} (hk : Keeps s0 s) : Goes s0 (execPciePllUnlock s) := by
  unfold execPciePllUnlock
  repeat' first
    | with_reducible apply goes_next | (show Goes s0 _; split) | with_reducible assumption | with_reducible apply keeps_wr
    | with_reducible apply keeps_linkLost

theorem keeps_execMgmtPllUnlock {s0 s : State} (hk : Keeps s0 s) : Goes s0 (execMgmtPllUnlock s) := by
  unfold execMgmtPllUnlock
  repeat' first | with_reducible apply goes_next | with_reducible assumption | (with_reducible apply keeps_mk)

theorem keeps_execMgmtPllLocked {s0 s : State} (hk : Keeps s0 s) : Goes s0 (execMgmtPllLocked s) := by
  unfold execMgmtPllLocked
  repeat' first
    | with_reducible apply goes_next | (show Goes s0 _; split) | with_reducible assumption | (with_reducible apply keeps_mk)

theorem keeps_execPcieLinkUp {s0 s : State} {speed width flit} (hk : Keeps s0 s) :
    Goes s0 (execPcieLinkUp speed width flit s) := by
  unfold execPcieLinkUp
  repeat' first
    | with_reducible apply goes_next | (show Goes s0 _; split) | with_reducible assumption | with_reducible apply keeps_wr
    | with_reducible apply keeps_raise | with_reducible apply keeps_pumpAll | with_reducible apply keeps_sendPending

theorem keeps_execLinkDown {s0 s : State} (hk : Keeps s0 s) : Goes s0 (execLinkDown s) := by
  unfold execLinkDown
  repeat' first | with_reducible apply goes_next | with_reducible assumption | with_reducible apply keeps_linkLost

theorem keeps_execBmeClear {s0 s : State} (hk : Keeps s0 s) : Goes s0 (execBmeClear s) :=
  keeps_configAccess (fun _ h => by
    split
    · exact keeps_dropAllWaiting (keeps_eachRing (fun _ _ h => keeps_suspendRing h) (keeps_mk (keeps_orphanAll h)))
    · exact h) hk

theorem keeps_execBusMasterEnableSet {s0 x1 : State} (hk : Keeps s0 x1) : Goes s0 (execBusMasterEnableSet x1) := by
  unfold execBusMasterEnableSet
  repeat' first
    | with_reducible assumption | (intro _) | with_reducible apply keeps_configAccess | with_reducible apply keeps_sendPending
    | (with_reducible apply keeps_mk)

theorem keeps_flrRing {s0 s : State} {n} (hk : Keeps s0 s) : Keeps s0 (State.flrRing s n) := by
  unfold State.flrRing
  repeat' first
    | with_reducible assumption | with_reducible apply keeps_add | with_reducible apply keeps_updD
    | with_reducible apply keeps_orphan | with_reducible apply keeps_wr | split

theorem keeps_execFunctionLevelReset {s0 s : State} (hk : Keeps s0 s) : Goes s0 (execFunctionLevelReset s) :=
  keeps_configAccess (fun _ h => keeps_mk (keeps_emptyCache (keeps_dropHalves (keeps_foldl (fun _ _ h => keeps_wr h)
    (keeps_dropAllWaiting (keeps_orphanAll (keeps_eachRing (fun _ _ h => keeps_flrRing h) h))))))) hk

theorem keeps_execFlrDone {s0 s : State} (hk : Keeps s0 s) : Goes s0 (execFlrDone s) := by
  unfold execFlrDone
  repeat' first
    | with_reducible apply goes_next | (show Goes s0 _; split) | with_reducible assumption | (with_reducible apply keeps_mk)

theorem keeps_execD3hot {s0 s : State} (hk : Keeps s0 s) : Goes s0 (execD3hot s) :=
  keeps_configAccess (fun _ h => by
    split
    · exact h
    · exact keeps_dropAllWaiting (keeps_eachRing (fun _ _ h => keeps_suspendRing h) (keeps_mk (keeps_orphanAll h)))) hk

theorem keeps_execReturnToD0 {s0 x1 : State} (hk : Keeps s0 x1) : Goes s0 (execReturnToD0 x1) := by
  unfold execReturnToD0
  repeat' first
    | with_reducible assumption | (intro _) | with_reducible apply keeps_configAccess | with_reducible apply keeps_sendPending
    | (with_reducible apply keeps_mk)

theorem keeps_execUnsupportedRequest {s0 s : State} {posted header} (hk : Keeps s0 s) :
    Goes s0 (execUnsupportedRequest posted header s) := by
  unfold execUnsupportedRequest
  repeat' first
    | with_reducible apply goes_next | with_reducible assumption | with_reducible apply keeps_emit
    | with_reducible apply keeps_inc | split

theorem keeps_execPoisonedWrite {s0 s : State} {header} (hk : Keeps s0 s) : Goes s0 (execPoisonedWrite header s) := by
  unfold execPoisonedWrite
  repeat' first
    | with_reducible apply goes_next | with_reducible assumption | with_reducible apply keeps_emit
    | with_reducible apply keeps_inc

theorem keeps_execAspmL1Entry {s0 s : State} (hk : Keeps s0 s) : Goes s0 (execAspmL1Entry s) := by
  unfold execAspmL1Entry
  repeat' first
    | with_reducible apply goes_next | (show Goes s0 _; split) | with_reducible assumption | with_reducible apply keeps_emit
    | with_reducible apply keeps_inc

theorem keeps_execDoeRequest {s0 x4 : State} {vendor type payload} (hk : Keeps s0 x4) :
    Goes s0 (execDoeRequest vendor type payload x4) := by
  unfold execDoeRequest
  repeat' first
    | (show Goes s0 _; split) | with_reducible assumption | ((try lift_lets); intro x; clear_value x) | (intro _)
    | with_reducible apply keeps_configAccess | with_reducible apply keeps_emit

theorem keeps_finishBefore {s0 x4 : State} {x1 x2 x3} (hk : Keeps s0 x4) : Keeps s0 (State.finishBefore x1 x2 x3 x4) := by
  induction x1 generalizing x4 x2 x3 with
  | zero =>
    unfold State.finishBefore
    repeat' first | with_reducible assumption
  | succ _ ih =>
    unfold State.finishBefore
    repeat' first
      | with_reducible assumption
      | ((try lift_lets); intro x; refine (?_ : Keeps s0 x → _) ?_; (clear_value x; intro hx); (rotate_left; subst x; rotate_right))
      | with_reducible apply ih | with_reducible apply keeps_completeFirst | split

theorem keeps_fenceFirst {s0 s : State} {n f} (hk : Keeps s0 s) : Keeps s0 (State.fenceFirst s n f) := by
  unfold State.fenceFirst
  repeat' first | with_reducible assumption | with_reducible apply keeps_finishBefore | split

theorem keeps_fillBuffer {s0 s : State} {n f d result more} (hk : Keeps s0 s) :
    Keeps s0 (State.fillBuffer s n f d result more) := by
  unfold State.fillBuffer
  repeat' first
    | with_reducible assumption | with_reducible apply keeps_writeBuffer | with_reducible apply keeps_fenceFirst
    | with_reducible apply keeps_tookEffect

theorem keeps_fillAll {s0 s : State} {n result l} (h : Keeps s0 s) : Keeps s0 (State.fillAll s n result l) := by
  induction l generalizing s with
  | nil => exact h
  | cons e t ih =>
    cases t with
    | nil => exact keeps_fillBuffer h
    | cons => exact ih (keeps_fillBuffer h)

theorem keeps_deliver {s0 s : State} {n data result} (hk : Keeps s0 s) : Keeps s0 (State.deliver s n data result).1 := by
  unfold State.deliver
  repeat' first
    | with_reducible assumption
    | ((try lift_lets); intro x; refine (?_ : Keeps s0 x → _) ?_; (clear_value x; intro hx); (rotate_left; subst x; rotate_right))
    | with_reducible apply keeps_inc | with_reducible apply keeps_finishBefore | with_reducible apply keeps_askPage
    | with_reducible apply keeps_fillAll | split

theorem keeps_setPair {s0 s : State} {p v} (hk : Keeps s0 s) : Keeps s0 (State.setPair s p v) := by
  unfold State.setPair
  repeat' first | with_reducible assumption | (with_reducible apply keeps_mk)

theorem keeps_qdrTouch {s0 s : State} {i number} (hk : Keeps s0 s) : Keeps s0 (State.qdrTouch s i number) := by
  unfold State.qdrTouch
  repeat' first
    | with_reducible assumption
    | ((try lift_lets); intro x; refine (?_ : Keeps s0 x.2 → _) ?_; (clear_value x; intro hx); (rotate_left; subst x; rotate_right))
    | with_reducible apply keeps_open_ | with_reducible apply keeps_add | with_reducible apply keeps_perfEvent | split

theorem keeps_qdrEcc {s0 s : State} {i number ecc part} (hk : Keeps s0 s) : Keeps s0 (State.qdrEcc s i number ecc part) := by
  unfold State.qdrEcc
  repeat' first
    | with_reducible assumption | with_reducible apply keeps_inc | with_reducible apply keeps_wr
    | with_reducible apply keeps_raise | split

theorem keeps_pairParity {s0 s : State} {p} (hk : Keeps s0 s) : Keeps s0 (State.pairParity s p) := by
  unfold State.pairParity
  repeat' first
    | with_reducible assumption | with_reducible apply keeps_setPair | with_reducible apply keeps_inc
    | with_reducible apply keeps_open_ | with_reducible apply keeps_raise

theorem keeps_pairCheck2 {s0 s : State} {p parityBad ecc part} (hk : Keeps s0 s) :
    Keeps s0 (State.pairCheck2 s p parityBad ecc part) := by
  unfold State.pairCheck2
  repeat' first
    | with_reducible assumption | with_reducible apply keeps_qdrEcc | with_reducible apply keeps_setPair
    | with_reducible apply keeps_pairParity | split

theorem keeps_pairSram {s0 s : State} {p read write o} (hk : Keeps s0 s) : Keeps s0 (State.pairSram s p read write o) := by
  unfold State.pairSram
  repeat' first | with_reducible assumption | with_reducible apply keeps_perfOpen | split

theorem keeps_statHeld {s0 s : State} {p cluster held} (hk : Keeps s0 s) : Keeps s0 (State.statHeld s p cluster held) := by
  unfold State.statHeld
  repeat' first | with_reducible assumption | with_reducible apply keeps_perfEvent | with_reducible apply keeps_add | split

theorem keeps_statUpdate {s0 s : State} {p bytes cluster tc residence use} (hk : Keeps s0 s) :
    Keeps s0 (State.statUpdate s p bytes cluster tc residence use) := by
  unfold State.statUpdate
  repeat' first
    | with_reducible assumption | with_reducible apply keeps_inc | with_reducible apply keeps_statHeld
    | with_reducible apply keeps_pairCheck2 | with_reducible apply keeps_qdrTouch | with_reducible apply keeps_pairSram
    | with_reducible apply keeps_setPair | with_reducible apply keeps_perfEvent | split

end Sys2Proof.Machine
end

