-- ==== Sys2Proof/Laws/KeepsLine.lean ====
section
/-!
SUPPORT. Every operation of line ports, protection and OTN framing keeps what Keeps says, one lemma each.
-/

namespace Sys2Proof.Machine

theorem keeps_portReport {s0 s : State} {p sf sd} (hk : Keeps s0 s) : Keeps s0 (State.portReport s p sf sd) := by
  unfold State.portReport
  repeat' first | with_reducible assumption | with_reducible apply keeps_raise | split

theorem keeps_setLink {s0 s : State} {p v} (hk : Keeps s0 s) : Keeps s0 (State.setLink s p v) := by
  unfold State.setLink
  repeat' first
    | with_reducible assumption
    | ((try lift_lets); intro x; refine (?_ : Keeps s0 x → _) ?_; (clear_value x; intro hx); (rotate_left; subst x; rotate_right))
    | ((try lift_lets); intro x; clear_value x) | with_reducible apply keeps_wr | with_reducible apply keeps_portReport | split

theorem keeps_setDegraded {s0 s : State} {p v} (hk : Keeps s0 s) : Keeps s0 (State.setDegraded s p v) := by
  unfold State.setDegraded
  repeat' first | with_reducible assumption | with_reducible apply keeps_portReport | with_reducible apply keeps_wr

theorem keeps_reportDown {s0 s : State} {p cause} (hk : Keeps s0 s) : Keeps s0 (State.reportDown s p cause) := by
  unfold State.reportDown
  repeat' first
    | with_reducible assumption | with_reducible apply keeps_wr | with_reducible apply keeps_inc
    | with_reducible apply keeps_raise

theorem keeps_holdDown {s0 s : State} {p cause} (hk : Keeps s0 s) : Keeps s0 (State.holdDown s p cause) := by
  unfold State.holdDown
  repeat' first | with_reducible assumption | with_reducible apply keeps_reportDown | split | (with_reducible apply keeps_mk)

theorem keeps_portDown {s0 s : State} {p cause state} (hk : Keeps s0 s) : Keeps s0 (State.portDown s p cause state) := by
  unfold State.portDown
  repeat' first
    | with_reducible assumption
    | ((try lift_lets); intro x; refine (?_ : Keeps s0 x → _) ?_; (clear_value x; intro hx); (rotate_left; subst x; rotate_right))
    | ((try lift_lets); intro x; clear_value x) | with_reducible apply keeps_setLink | with_reducible apply keeps_holdDown
    | split

theorem keeps_portRefresh {s0 s : State} {p} (hk : Keeps s0 s) : Keeps s0 (State.portRefresh s p) := by
  unfold State.portRefresh
  repeat' first | with_reducible assumption | with_reducible apply keeps_setLink | split

theorem keeps_trainLane {s0 s : State} {l} (hk : Keeps s0 s) : Keeps s0 (State.trainLane s l) := by
  unfold State.trainLane
  repeat' first | with_reducible assumption | with_reducible apply keeps_wr

theorem keeps_diagnose {s0 s : State} {p} (hk : Keeps s0 s) : Keeps s0 (State.diagnose s p) := by
  unfold State.diagnose
  repeat' first
    | with_reducible assumption | with_reducible apply keeps_portDown | with_reducible apply keeps_setLink
    | with_reducible apply keeps_wr | split | (with_reducible apply keeps_mk)

theorem keeps_trainPort {s0 s : State} {p} (hk : Keeps s0 s) : Keeps s0 (State.trainPort s p) := by
  unfold State.trainPort
  repeat' first
    | with_reducible assumption | (intro _) | with_reducible apply keeps_diagnose | with_reducible apply keeps_portRefresh
    | with_reducible apply keeps_trainLane | (with_reducible apply keeps_foldl; intro _ _ _) | split

theorem keeps_lanesOff {s0 s : State} {p} (hk : Keeps s0 s) : Keeps s0 (State.lanesOff s p) := by
  unfold State.lanesOff
  repeat' first | with_reducible assumption | with_reducible apply keeps_wr | (with_reducible apply keeps_foldl; intro _ _ _)

theorem keeps_portUp {s0 s : State} {p} (hk : Keeps s0 s) : Keeps s0 (State.portUp s p) := by
  unfold State.portUp
  repeat' first
    | with_reducible assumption | with_reducible apply keeps_setLink | with_reducible apply keeps_raise | split
    | (with_reducible apply keeps_mk)

theorem keeps_synceFollow {s0 s : State} {n} (h : Keeps s0 s) : Keeps s0 (s.synceFollow n) := by
  unfold State.synceFollow
  extract_lets put c old s1
  have hp : ∀ c t, Keeps s0 t → Keeps s0 (put c t) := fun _ _ h => keeps_mk h
  have h1 : Keeps s0 s1 := hp _ _ h
  clear_value s1 put c old
  split
  · exact hp _ _ (keeps_wr h)
  · split
    · split
      · exact keeps_wr h1
      · exact h1
    · split
      · exact h1
      · exact keeps_raise (keeps_inc (keeps_wr h1))

theorem keeps_synceAll {s0 s : State} (hk : Keeps s0 s) : Keeps s0 (State.synceAll s) := by
  unfold State.synceAll
  repeat' first | with_reducible assumption | with_reducible apply keeps_synceFollow

theorem keeps_execSynceHoldoffExpiry {s0 s : State} {n} (hk : Keeps s0 s) : Goes s0 (execSynceHoldoffExpiry n s) := by
  unfold execSynceHoldoffExpiry
  repeat' first
    | with_reducible apply goes_next | (show Goes s0 _; split) | with_reducible assumption | with_reducible apply keeps_wr

theorem keeps_zeroPort {s0 s : State} {p} (hk : Keeps s0 s) : Keeps s0 (State.zeroPort s p) := by
  unfold State.zeroPort
  repeat' first | with_reducible assumption | with_reducible apply keeps_wr | (with_reducible apply keeps_foldl; intro _ _ _)

theorem keeps_applyPair {s0 s : State} {k} (hk : Keeps s0 s) : Keeps s0 (State.applyPair s k) := by
  unfold State.applyPair
  repeat' first
    | with_reducible assumption | with_reducible apply keeps_portDown | with_reducible apply keeps_lanesOff
    | with_reducible apply keeps_wr | with_reducible apply keeps_zeroPort | with_reducible apply keeps_trainPort
    | with_reducible apply keeps_portRefresh | with_reducible apply keeps_synceAll
    | (with_reducible apply keeps_foldl; intro _ _ _) | split | (with_reducible apply keeps_mk)

theorem keeps_pairApply {s0 s : State} {k} (hk : Keeps s0 s) : Keeps s0 (State.pairApply s k).1 := by
  unfold State.pairApply
  repeat' first
    | with_reducible assumption
    | ((try lift_lets); intro x; refine (?_ : Keeps s0 x → _) ?_; (clear_value x; intro hx); (rotate_left; subst x; rotate_right))
    | ((try lift_lets); intro x; refine (?_ : Keeps s0 x.1 → _) ?_; (clear_value x; intro hx); (rotate_left; subst x; rotate_right))
    | ((try lift_lets); intro x; refine (?_ : Keeps s0 x.2.1 → _) ?_; (clear_value x; intro hx); (rotate_left; subst x; rotate_right))
    | ((try lift_lets); intro x; refine (?_ : Keeps s0 x.2.2 → _) ?_; (clear_value x; intro hx); (rotate_left; subst x; rotate_right))
    | ((try lift_lets); intro x; clear_value x) | with_reducible apply keeps_applyPair | split

theorem keeps_lineApplyAll {s0 s : State} (hk : Keeps s0 s) : Keeps s0 (State.lineApplyAll s) := by
  unfold State.lineApplyAll
  repeat' first
    | with_reducible assumption
    | ((try lift_lets); intro x; refine (?_ : Keeps s0 x → _) ?_; (clear_value x; intro hx); (rotate_left; subst x; rotate_right))
    | ((try lift_lets); intro x; refine (?_ : Keeps s0 x.1 → _) ?_; (clear_value x; intro hx); (rotate_left; subst x; rotate_right))
    | ((try lift_lets); intro x; refine (?_ : Keeps s0 x.2.1 → _) ?_; (clear_value x; intro hx); (rotate_left; subst x; rotate_right))
    | ((try lift_lets); intro x; refine (?_ : Keeps s0 x.2.2 → _) ?_; (clear_value x; intro hx); (rotate_left; subst x; rotate_right))
    | ((try lift_lets); intro x; clear_value x) | with_reducible apply keeps_applyPair
    | (with_reducible apply keeps_foldl; intro _ _ _)

theorem keeps_loseLane {s0 s : State} {l los} (hk : Keeps s0 s) : Keeps s0 (State.loseLane s l los) := by
  unfold State.loseLane
  repeat' first
    | with_reducible assumption
    | ((try lift_lets); intro x; refine (?_ : Keeps s0 x → _) ?_; (clear_value x; intro hx); (rotate_left; subst x; rotate_right))
    | with_reducible apply keeps_trainLane | with_reducible apply keeps_inc | with_reducible apply keeps_portDown | split

theorem keeps_takeLaneCfg {s0 s : State} {l} (hk : Keeps s0 s) : Keeps s0 (State.takeLaneCfg s l) := by
  unfold State.takeLaneCfg
  repeat' first | with_reducible assumption | (with_reducible apply keeps_mk)

theorem keeps_laneInForce {s0 s : State} {l} (h : Keeps s0 s) : Keeps s0 (s.laneInForce l) := by
  unfold State.laneInForce
  extract_lets old new s1
  have h1 : Keeps s0 s1 := keeps_takeLaneCfg h
  split
  · exact keeps_loseLane h1
  · exact h1

theorem keeps_lineUp {s0 s : State} (hk : Keeps s0 s) : Keeps s0 (State.lineUp s) := by
  unfold State.lineUp
  repeat' first
    | with_reducible assumption | with_reducible apply keeps_laneInForce | with_reducible apply keeps_trainPort
    | (with_reducible apply keeps_foldl; intro _ _ _) | split

theorem keeps_lineDisable {s0 s : State} (hk : Keeps s0 s) : Keeps s0 (State.lineDisable s) := by
  unfold State.lineDisable
  repeat' first
    | with_reducible assumption | with_reducible apply keeps_wr | with_reducible apply keeps_portDown
    | (with_reducible apply keeps_foldl; intro _ _ _) | split | (with_reducible apply keeps_mk)

theorem keeps_cmdAdminUp {s0 s : State} {p up} (hk : Keeps s0 s) : Keeps s0 (cmdAdminUp p up s).1 := by
  unfold cmdAdminUp
  repeat' first
    | with_reducible assumption | with_reducible apply keeps_trainPort | with_reducible apply keeps_wr
    | with_reducible apply keeps_synceAll | with_reducible apply keeps_portDown | with_reducible apply keeps_lanesOff | split
    | (with_reducible apply keeps_mk)

theorem keeps_cmdLoopback {s0 s : State} {p mode} (hk : Keeps s0 s) : Keeps s0 (cmdLoopback p mode s).1 := by
  unfold cmdLoopback
  repeat' first | with_reducible assumption | with_reducible apply keeps_wr | with_reducible apply keeps_portDown | split

theorem keeps_execLoopback {s0 s : State} {p port mode} (hk : Keeps s0 s) : Goes s0 (execLoopback p port mode s) := by
  unfold execLoopback
  repeat' first
    | with_reducible apply goes_next | with_reducible assumption | (intro _) | with_reducible apply keeps_access
    | with_reducible apply keeps_cmdLoopback

theorem keeps_prbsCount {s0 s : State} {l} (hk : Keeps s0 s) : Keeps s0 (State.prbsCount s l) := by
  unfold State.prbsCount
  repeat' first | with_reducible assumption | with_reducible apply keeps_open_ | with_reducible apply keeps_add | split

theorem keeps_unaligned {s0 s : State} {f} (hk : Keeps s0 s) : Keeps s0 (State.unaligned s f) := by
  unfold State.unaligned
  repeat' first | with_reducible assumption | (with_reducible apply keeps_mk)

theorem keeps_cmdPrbsMode {s0 s : State} {l mode} (hk : Keeps s0 s) : Keeps s0 (cmdPrbsMode l mode s).1 := by
  unfold cmdPrbsMode
  repeat' first
    | with_reducible assumption
    | ((try lift_lets); intro x; refine (?_ : Keeps s0 x → _) ?_; (clear_value x; intro hx); (rotate_left; subst x; rotate_right))
    | ((try lift_lets); intro x; refine (?_ : Keeps s0 x.1 → _) ?_; (clear_value x; intro hx); (rotate_left; subst x; rotate_right))
    | ((try lift_lets); intro x; clear_value x) | with_reducible apply keeps_wr | with_reducible apply keeps_prbsCount
    | with_reducible apply keeps_trainLane | with_reducible apply keeps_unaligned | with_reducible apply keeps_diagnose
    | with_reducible apply keeps_portRefresh | split

theorem keeps_execPrbsMode {s0 s : State} {p lane mode} (hk : Keeps s0 s) : Goes s0 (execPrbsMode p lane mode s) := by
  unfold execPrbsMode
  repeat' first
    | with_reducible apply goes_next | with_reducible assumption | (intro _) | with_reducible apply keeps_access
    | with_reducible apply keeps_cmdPrbsMode

theorem keeps_execPrbsCheckerSync {s0 s : State} {lane inSync} (hk : Keeps s0 s) :
    Goes s0 (execPrbsCheckerSync lane inSync s) := by
  unfold execPrbsCheckerSync
  repeat' first
    | with_reducible apply goes_next | (show Goes s0 _; split) | with_reducible assumption | with_reducible apply keeps_wr
    | with_reducible apply keeps_prbsCount

theorem keeps_lockLane {s0 s : State} {l taps snr} (hk : Keeps s0 s) : Keeps s0 (State.lockLane s l taps snr) := by
  unfold State.lockLane
  repeat' first
    | with_reducible assumption
    | ((try lift_lets); intro x; refine (?_ : Keeps s0 x → _) ?_; (clear_value x; intro hx); (rotate_left; subst x; rotate_right))
    | with_reducible apply keeps_wr | with_reducible apply keeps_wrB | split

theorem keeps_failTraining {s0 s : State} {l snr func} (hk : Keeps s0 s) : Keeps s0 (State.failTraining s l snr func) := by
  unfold State.failTraining
  repeat' first
    | with_reducible assumption | with_reducible apply keeps_wr | with_reducible apply keeps_raise
    | (with_reducible apply keeps_mk)

theorem keeps_execPcsAligned {s0 s : State} {port} (hk : Keeps s0 s) : Goes s0 (execPcsAligned port s) := by
  unfold execPcsAligned
  repeat' first
    | with_reducible apply goes_next | (show Goes s0 _; split) | with_reducible assumption | (intro _)
    | with_reducible apply keeps_portUp

theorem keeps_execAlignmentLoss {s0 s : State} {port hiSer} (hk : Keeps s0 s) : Goes s0 (execAlignmentLoss port hiSer s) := by
  unfold execAlignmentLoss
  repeat' first
    | with_reducible apply goes_next | (show Goes s0 _; split) | with_reducible assumption | with_reducible apply keeps_portDown

theorem keeps_execFaultReceived {s0 s : State} {port fault} (hk : Keeps s0 s) : Goes s0 (execFaultReceived port fault s) := by
  unfold execFaultReceived
  repeat' first
    | with_reducible apply goes_next | (show Goes s0 _; split) | with_reducible assumption
    | ((try lift_lets); intro x; clear_value x) | with_reducible apply keeps_portUp | with_reducible apply keeps_portDown

theorem keeps_execFecWindowEnd {s0 s : State} {port corrected uncorrectable symbols} (hk : Keeps s0 s) :
    Goes s0 (execFecWindowEnd port corrected uncorrectable symbols s) := by
  unfold execFecWindowEnd
  repeat' first
    | with_reducible apply goes_next | (show Goes s0 _; split) | with_reducible assumption
    | ((try lift_lets); intro x; clear_value x) | with_reducible apply keeps_add | with_reducible apply keeps_raise
    | with_reducible apply keeps_setDegraded

theorem keeps_subportArg {s0 s : State} {arg f} (hf1 : ∀ x0 t, Keeps s0 t → Keeps s0 (f x0 t).1) (hk : Keeps s0 s) :
    Keeps s0 (subportArg arg f s).1 := by
  unfold subportArg
  repeat' first | with_reducible assumption | with_reducible apply keeps_wrSt | with_reducible apply hf1 | split

theorem keeps_cmdBind {s0 s : State} {q} (hk : Keeps s0 s) : Keeps s0 (cmdBind q s).1 := by
  unfold cmdBind
  repeat' first
    | with_reducible assumption | ((try lift_lets); intro x; clear_value x) | split | (with_reducible apply keeps_mk)

theorem keeps_cmdUnbind {s0 s : State} {q} (hk : Keeps s0 s) : Keeps s0 (cmdUnbind q s).1 := by
  unfold cmdUnbind
  repeat' first | with_reducible assumption | split | (with_reducible apply keeps_mk)

theorem keeps_cmdSubportRead {s0 s : State} {q} (hk : Keeps s0 s) : Keeps s0 (cmdSubportRead q s).1 := by
  unfold cmdSubportRead
  repeat' first | with_reducible assumption | with_reducible apply keeps_wr | with_reducible apply keeps_open_ | split

theorem keeps_execSubportRead {s0 s : State} {p arg} (hk : Keeps s0 s) : Goes s0 (execSubportRead p arg s) := by
  unfold execSubportRead
  repeat' first
    | with_reducible apply goes_next | with_reducible assumption | (intro _) | with_reducible apply keeps_access
    | with_reducible apply keeps_subportArg | with_reducible apply keeps_cmdSubportRead

theorem keeps_execBind {s0 s : State} {p arg} (hk : Keeps s0 s) : Goes s0 (execBind p arg s) := by
  unfold execBind
  repeat' first
    | with_reducible apply goes_next | with_reducible assumption
    | ((try lift_lets); intro x; refine (?_ : Keeps s0 x.1 → _) ?_; (clear_value x; intro hx); (rotate_left; subst x; rotate_right))
    | (intro _) | with_reducible apply keeps_access | with_reducible apply keeps_subportArg | with_reducible apply keeps_cmdBind

theorem keeps_execUnbind {s0 s : State} {p arg} (hk : Keeps s0 s) : Goes s0 (execUnbind p arg s) := by
  unfold execUnbind
  repeat' first
    | with_reducible apply goes_next | with_reducible assumption
    | ((try lift_lets); intro x; refine (?_ : Keeps s0 x.1 → _) ?_; (clear_value x; intro hx); (rotate_left; subst x; rotate_right))
    | (intro _) | with_reducible apply keeps_access | with_reducible apply keeps_subportArg
    | with_reducible apply keeps_cmdUnbind

theorem keeps_todLoad {s0 s : State} {sec ns} (hk : Keeps s0 s) : Keeps s0 (State.todLoad s sec ns) := by
  unfold State.todLoad
  repeat' first | with_reducible assumption | (with_reducible apply keeps_mk)

theorem keeps_todMove {s0 s : State} {ns} (hk : Keeps s0 s) : Keeps s0 (State.todMove s ns) := by
  unfold State.todMove
  repeat' first | with_reducible assumption | (with_reducible apply keeps_mk)

theorem keeps_todTick {s0 s : State} (hk : Keeps s0 s) : Keeps s0 (State.todTick s) := by
  unfold State.todTick
  repeat' first | with_reducible assumption | (with_reducible apply keeps_mk)

theorem keeps_cmdTodCapture {s0 s : State} (hk : Keeps s0 s) : Keeps s0 (cmdTodCapture s).1 := by
  unfold cmdTodCapture
  repeat' first | with_reducible assumption | with_reducible apply keeps_wr

theorem keeps_cmdTodSetNow {s0 s : State} (hk : Keeps s0 s) : Keeps s0 (cmdTodSetNow s).1 := by
  unfold cmdTodSetNow
  repeat' first
    | with_reducible assumption | with_reducible apply keeps_todLoad | with_reducible apply keeps_wr
    | (with_reducible apply keeps_mk)

theorem keeps_cmdTodSetArm {s0 s : State} (hk : Keeps s0 s) : Keeps s0 (cmdTodSetArm s).1 := by
  unfold cmdTodSetArm
  repeat' first | with_reducible assumption | with_reducible apply keeps_wr | (with_reducible apply keeps_mk)

theorem keeps_cmdTodSetCancel {s0 s : State} (hk : Keeps s0 s) : Keeps s0 (cmdTodSetCancel s).1 := by
  unfold cmdTodSetCancel
  repeat' first | with_reducible assumption | with_reducible apply keeps_wr | (with_reducible apply keeps_mk)

theorem keeps_cmdTodStep {s0 s : State} {arg} (hk : Keeps s0 s) : Keeps s0 (cmdTodStep arg s).1 := by
  unfold cmdTodStep
  repeat' first | with_reducible assumption | with_reducible apply keeps_todMove

theorem keeps_execTodCapture {s0 s : State} {p arg} (hk : Keeps s0 s) : Goes s0 (execTodCapture p arg s) := by
  unfold execTodCapture
  repeat' first
    | with_reducible apply goes_next | with_reducible assumption | (intro _) | with_reducible apply keeps_access
    | with_reducible apply keeps_noArg | with_reducible apply keeps_cmdTodCapture

theorem keeps_execTodSetNow {s0 s : State} {p arg} (hk : Keeps s0 s) : Goes s0 (execTodSetNow p arg s) := by
  unfold execTodSetNow
  repeat' first
    | with_reducible apply goes_next | with_reducible assumption | (intro _) | with_reducible apply keeps_access
    | with_reducible apply keeps_noArg | with_reducible apply keeps_cmdTodSetNow

theorem keeps_execTodSetArm {s0 s : State} {p arg} (hk : Keeps s0 s) : Goes s0 (execTodSetArm p arg s) := by
  unfold execTodSetArm
  repeat' first
    | with_reducible apply goes_next | with_reducible assumption | (intro _) | with_reducible apply keeps_access
    | with_reducible apply keeps_noArg | with_reducible apply keeps_cmdTodSetArm

theorem keeps_execTodSetCancel {s0 s : State} {p arg} (hk : Keeps s0 s) : Goes s0 (execTodSetCancel p arg s) := by
  unfold execTodSetCancel
  repeat' first
    | with_reducible apply goes_next | with_reducible assumption | (intro _) | with_reducible apply keeps_access
    | with_reducible apply keeps_noArg | with_reducible apply keeps_cmdTodSetCancel

theorem keeps_execTodStep {s0 s : State} {p arg} (hk : Keeps s0 s) : Goes s0 (execTodStep p arg s) := by
  unfold execTodStep
  repeat' first
    | with_reducible apply goes_next | with_reducible assumption | (intro _) | with_reducible apply keeps_access
    | with_reducible apply keeps_cmdTodStep

theorem keeps_setPps {s0 s : State} {level} (hk : Keeps s0 s) : Keeps s0 (State.setPps s level) := by
  unfold State.setPps
  repeat' first | with_reducible assumption | with_reducible apply keeps_emit | split | (with_reducible apply keeps_mk)

theorem keeps_execPpsOutPulse {s0 s : State} (hk : Keeps s0 s) : Goes s0 (execPpsOutPulse s) := by
  unfold execPpsOutPulse
  repeat' first
    | with_reducible apply goes_next | (show Goes s0 _; split) | with_reducible assumption | (intro _)
    | with_reducible apply keeps_setPps

theorem keeps_execPpsOutEnd {s0 s : State} (hk : Keeps s0 s) : Goes s0 (execPpsOutEnd s) := by
  unfold execPpsOutEnd
  repeat' first
    | with_reducible apply goes_next | (show Goes s0 _; split) | with_reducible assumption | (intro _)
    | with_reducible apply keeps_setPps

theorem keeps_execPpsInEdge {s0 s : State} (hk : Keeps s0 s) : Goes s0 (execPpsInEdge s) := by
  unfold execPpsInEdge
  repeat' first
    | with_reducible apply goes_next | (show Goes s0 _; split) | with_reducible assumption
    | ((try lift_lets); intro x; clear_value x) | with_reducible apply keeps_inc | with_reducible apply keeps_wr
    | with_reducible apply keeps_raise | with_reducible apply keeps_todLoad | (with_reducible apply keeps_mk)

theorem keeps_execPpsInLost {s0 s : State} (hk : Keeps s0 s) : Goes s0 (execPpsInLost s) := by
  unfold execPpsInLost
  repeat' first
    | with_reducible apply goes_next | (show Goes s0 _; split) | with_reducible assumption | with_reducible apply keeps_raise
    | (with_reducible apply keeps_mk)

theorem keeps_setMac {s0 s : State} {p l} (hk : Keeps s0 s) : Keeps s0 (State.setMac s p l) := by
  unfold State.setMac
  repeat' first | with_reducible assumption | (with_reducible apply keeps_mk)

theorem keeps_leavePort {s0 s : State} {p n} (hk : Keeps s0 s) : Keeps s0 (State.leavePort s p n) := by
  unfold State.leavePort
  repeat' first | with_reducible assumption | (with_reducible apply keeps_mk)

theorem keeps_abortHead {s0 s : State} {p} (hk : Keeps s0 s) : Keeps s0 (State.abortHead s p) := by
  unfold State.abortHead
  repeat' first
    | with_reducible assumption | with_reducible apply keeps_emit | with_reducible apply keeps_inc
    | with_reducible apply keeps_leavePort | with_reducible apply keeps_setMac | split

theorem keeps_updProt {s0 s : State} {f} (hk : Keeps s0 s) : Keeps s0 (State.updProt s f) := by
  unfold State.updProt
  repeat' first | with_reducible assumption | (with_reducible apply keeps_mk)

theorem keeps_endWait {s0 s : State} (hk : Keeps s0 s) : Keeps s0 (State.endWait s) := by
  unfold State.endWait
  repeat' first | with_reducible assumption | with_reducible apply keeps_wr | with_reducible apply keeps_updProt

theorem keeps_startWait {s0 s : State} (hk : Keeps s0 s) : Keeps s0 (State.startWait s) := by
  unfold State.startWait
  repeat' first | with_reducible assumption | with_reducible apply keeps_wr | with_reducible apply keeps_updProt

theorem keeps_driveKeep {s0 s : State} (hk : Keeps s0 s) : Keeps s0 (State.driveKeep s) := by
  unfold State.driveKeep
  repeat' first | with_reducible assumption | with_reducible apply keeps_wr

theorem keeps_setRole {s0 s : State} {p r} (hk : Keeps s0 s) : Keeps s0 (State.setRole s p r) := by
  unfold State.setRole
  repeat' first
    | with_reducible assumption | ((try lift_lets); intro x; clear_value x) | with_reducible apply keeps_raise
    | with_reducible apply keeps_wr | split

theorem keeps_followRole {s0 s : State} {p} (hk : Keeps s0 s) : Keeps s0 (State.followRole s p) := by
  unfold State.followRole
  repeat' first | with_reducible assumption | with_reducible apply keeps_setRole | with_reducible apply keeps_abortHead | split

theorem keeps_followRoles {s0 s : State} (hk : Keeps s0 s) : Keeps s0 (State.followRoles s) := by
  unfold State.followRoles
  repeat' first
    | with_reducible assumption | with_reducible apply keeps_followRole | (with_reducible apply keeps_foldl; intro _ _ _)

theorem keeps_readyFalls {s0 s : State} {causes} (hk : Keeps s0 s) : Keeps s0 (State.readyFalls s causes) := by
  unfold State.readyFalls
  repeat' first
    | with_reducible assumption | with_reducible apply keeps_inc | with_reducible apply keeps_updProt
    | with_reducible apply keeps_raise

theorem keeps_protFollow {s0 s : State} (hk : Keeps s0 s) : Keeps s0 (State.protFollow s) := by
  unfold State.protFollow
  repeat' first
    | with_reducible assumption | with_reducible apply keeps_updProt | with_reducible apply keeps_startWait
    | with_reducible apply keeps_raise | with_reducible apply keeps_readyFalls | with_reducible apply keeps_endWait
    | with_reducible apply keeps_followRoles | with_reducible apply keeps_driveKeep | split

theorem keeps_execKeepGrantChange {s0 s : State} {level} (hk : Keeps s0 s) : Goes s0 (execKeepGrantChange level s) := by
  unfold execKeepGrantChange
  repeat' first
    | with_reducible apply goes_next | with_reducible assumption
    | ((try lift_lets); intro x; refine (?_ : Keeps s0 x → _) ?_; (clear_value x; intro hx); (rotate_left; subst x; rotate_right))
    | with_reducible apply keeps_wr | with_reducible apply keeps_endWait | with_reducible apply keeps_raise
    | with_reducible apply keeps_followRoles | with_reducible apply keeps_driveKeep | split

theorem keeps_execKeepGrantGlitch {s0 s : State} (hk : Keeps s0 s) : Goes s0 (execKeepGrantGlitch s) := by
  unfold execKeepGrantGlitch
  repeat' first | with_reducible apply goes_next | with_reducible assumption | with_reducible apply keeps_inc

theorem keeps_execProtWtrExpiry {s0 s : State} (hk : Keeps s0 s) : Goes s0 (execProtWtrExpiry s) := by
  unfold execProtWtrExpiry
  repeat' first
    | with_reducible apply goes_next | (show Goes s0 _; split) | with_reducible assumption
    | with_reducible apply keeps_followRoles | with_reducible apply keeps_driveKeep | with_reducible apply keeps_endWait

theorem keeps_execSwitchoverActive {s0 s : State} {port gap} (hk : Keeps s0 s) : Goes s0 (execSwitchoverActive port gap s) := by
  unfold execSwitchoverActive
  repeat' first
    | with_reducible apply goes_next | (show Goes s0 _; split) | with_reducible assumption
    | ((try lift_lets); intro x; clear_value x) | with_reducible apply keeps_setRole | with_reducible apply keeps_inc
    | with_reducible apply keeps_wr

theorem keeps_cmdRelinquish {s0 s : State} {on} (hk : Keeps s0 s) : Keeps s0 (cmdRelinquish on s).1 := by
  unfold cmdRelinquish
  repeat' first | with_reducible assumption | with_reducible apply keeps_protFollow | with_reducible apply keeps_updProt

theorem keeps_execRelinquishSet {s0 s : State} {p arg} (hk : Keeps s0 s) : Goes s0 (execRelinquishSet p arg s) := by
  unfold execRelinquishSet
  repeat' first
    | with_reducible apply goes_next | with_reducible assumption | (intro _) | with_reducible apply keeps_access
    | with_reducible apply keeps_noArg | with_reducible apply keeps_cmdRelinquish

theorem keeps_execRelinquishClear {s0 s : State} {p arg} (hk : Keeps s0 s) : Goes s0 (execRelinquishClear p arg s) := by
  unfold execRelinquishClear
  repeat' first
    | with_reducible apply goes_next | with_reducible assumption | (intro _) | with_reducible apply keeps_access
    | with_reducible apply keeps_noArg | with_reducible apply keeps_cmdRelinquish

theorem keeps_cmdRole {s0 s : State} {p on} (hk : Keeps s0 s) : Keeps s0 (cmdRole p on s).1 := by
  unfold cmdRole
  repeat' first
    | with_reducible assumption
    | ((try lift_lets); intro x; refine (?_ : Keeps s0 x → _) ?_; (clear_value x; intro hx); (rotate_left; subst x; rotate_right))
    | with_reducible apply keeps_updProt | with_reducible apply keeps_followRole | split

theorem keeps_execRoleActivate {s0 s : State} {p port arg} (hk : Keeps s0 s) : Goes s0 (execRoleActivate p port arg s) := by
  unfold execRoleActivate
  repeat' first
    | with_reducible apply goes_next | with_reducible assumption | (intro _) | with_reducible apply keeps_access
    | with_reducible apply keeps_noArg | with_reducible apply keeps_cmdRole

theorem keeps_execRoleStandby {s0 s : State} {p port arg} (hk : Keeps s0 s) : Goes s0 (execRoleStandby p port arg s) := by
  unfold execRoleStandby
  repeat' first
    | with_reducible apply goes_next | with_reducible assumption | (intro _) | with_reducible apply keeps_access
    | with_reducible apply keeps_noArg | with_reducible apply keeps_cmdRole

theorem keeps_setProtMode {s0 s : State} {p mode} (hk : Keeps s0 s) : Keeps s0 (State.setProtMode s p mode) := by
  unfold State.setProtMode
  repeat' first
    | with_reducible assumption | with_reducible apply keeps_updProt | with_reducible apply keeps_wr
    | with_reducible apply keeps_protFollow | with_reducible apply keeps_setRole

theorem keeps_rolesLost {s0 s : State} (hk : Keeps s0 s) : Keeps s0 (State.rolesLost s) := by
  unfold State.rolesLost
  repeat' first
    | with_reducible assumption | with_reducible apply keeps_wr | (with_reducible apply keeps_foldl; intro _ _ _) | split

theorem keeps_cmdProtMode {s0 s : State} {p mode} (hk : Keeps s0 s) : Keeps s0 (cmdProtMode p mode s).1 := by
  unfold cmdProtMode
  repeat' first | with_reducible assumption | with_reducible apply keeps_setProtMode | split

theorem keeps_execProtMode {s0 s : State} {p port value} (hk : Keeps s0 s) : Goes s0 (execProtMode p port value s) := by
  unfold execProtMode
  repeat' first
    | with_reducible apply goes_next | with_reducible assumption | (intro _) | with_reducible apply keeps_access
    | with_reducible apply keeps_cmdProtMode

theorem keeps_protUp {s0 s : State} (hk : Keeps s0 s) : Keeps s0 (State.protUp s) := by
  unfold State.protUp
  repeat' first
    | with_reducible assumption | with_reducible apply keeps_endWait | with_reducible apply keeps_updProt
    | with_reducible apply keeps_protFollow | split

theorem keeps_protFreeze {s0 s : State} (hk : Keeps s0 s) : Keeps s0 (State.protFreeze s) := by
  unfold State.protFreeze
  repeat' first
    | with_reducible assumption
    | ((try lift_lets); intro x; refine (?_ : Keeps s0 x → _) ?_; (clear_value x; intro hx); (rotate_left; subst x; rotate_right))
    | with_reducible apply keeps_readyFalls | with_reducible apply keeps_updProt | split

theorem keeps_updGrp {s0 s : State} {g f} (hk : Keeps s0 s) : Keeps s0 (State.updGrp s g f) := by
  unfold State.updGrp
  repeat' first | with_reducible assumption | (with_reducible apply keeps_mk)

theorem keeps_updSlice {s0 s : State} {g i f} (hk : Keeps s0 s) : Keeps s0 (State.updSlice s g i f) := by
  unfold State.updSlice
  repeat' first | with_reducible assumption | with_reducible apply keeps_updGrp

theorem keeps_endRow {s0 s : State} {g} (hk : Keeps s0 s) : Keeps s0 (State.endRow s g) := by
  unfold State.endRow
  repeat' first | with_reducible assumption | with_reducible apply keeps_updGrp | split

theorem keeps_updClient {s0 s : State} {q f} (hk : Keeps s0 s) : Keeps s0 (State.updClient s q f) := by
  unfold State.updClient
  repeat' first | with_reducible assumption | (with_reducible apply keeps_mk)

theorem keeps_clientFollow {s0 s : State} {q} (hk : Keeps s0 s) : Keeps s0 (State.clientFollow s q) := by
  unfold State.clientFollow
  repeat' first
    | with_reducible assumption | ((try lift_lets); intro x; clear_value x) | with_reducible apply keeps_raise
    | with_reducible apply keeps_updClient | split

theorem keeps_otnFollow {s0 s : State} {g oof} (hk : Keeps s0 s) : Keeps s0 (State.otnFollow s g oof) := by
  unfold State.otnFollow
  repeat' first
    | with_reducible assumption | with_reducible apply keeps_wr | with_reducible apply keeps_raise
    | with_reducible apply keeps_updGrp | with_reducible apply keeps_portDown | with_reducible apply keeps_portUp
    | with_reducible apply keeps_clientFollow | (with_reducible apply keeps_foldl; intro _ _ _) | split

theorem keeps_sliceOof {s0 s : State} {g i} (hk : Keeps s0 s) : Keeps s0 (State.sliceOof s g i) := by
  unfold State.sliceOof
  repeat' first | with_reducible assumption | with_reducible apply keeps_inc | with_reducible apply keeps_updSlice

theorem keeps_losFollow {s0 s : State} {g} (hk : Keeps s0 s) : Keeps s0 (State.losFollow s g) := by
  unfold State.losFollow
  repeat' first
    | with_reducible assumption
    | ((try lift_lets); intro x; refine (?_ : Keeps s0 x → _) ?_; (clear_value x; intro hx); (rotate_left; subst x; rotate_right))
    | ((try lift_lets); intro x; clear_value x) | with_reducible apply keeps_updGrp | with_reducible apply keeps_updSlice
    | with_reducible apply keeps_sliceOof | with_reducible apply keeps_otnFollow
    | (with_reducible apply keeps_foldl; intro _ _ _) | split

theorem keeps_losAll {s0 s : State} (hk : Keeps s0 s) : Keeps s0 (State.losAll s) := by
  unfold State.losAll
  repeat' first
    | with_reducible assumption | with_reducible apply keeps_losFollow | (with_reducible apply keeps_foldl; intro _ _ _)

theorem keeps_otnOverhead {s0 s : State} {g i o} (hk : Keeps s0 s) : Keeps s0 (State.otnOverhead s g i o) := by
  unfold State.otnOverhead
  repeat' first
    | with_reducible assumption
    | ((try lift_lets); intro x; refine (?_ : Keeps s0 x → _) ?_; (clear_value x; intro hx); (rotate_left; subst x; rotate_right))
    | ((try lift_lets); intro x; clear_value x) | with_reducible apply keeps_add | with_reducible apply keeps_updSlice
    | with_reducible apply keeps_updGrp | with_reducible apply keeps_wrB | split

theorem keeps_otnFrame {s0 s : State} {g i o} (hk : Keeps s0 s) : Keeps s0 (State.otnFrame s g i o) := by
  unfold State.otnFrame
  repeat' first
    | with_reducible assumption
    | ((try lift_lets); intro x; refine (?_ : Keeps s0 x → _) ?_; (clear_value x; intro hx); (rotate_left; subst x; rotate_right))
    | ((try lift_lets); intro x; clear_value x) | with_reducible apply keeps_updSlice | with_reducible apply keeps_updGrp
    | with_reducible apply keeps_add | with_reducible apply keeps_sliceOof | with_reducible apply keeps_otnOverhead | split

theorem keeps_clientObs {s0 s : State} {c} (hk : Keeps s0 s) : Keeps s0 (State.clientObs s c) := by
  unfold State.clientObs
  repeat' first | with_reducible assumption | with_reducible apply keeps_updClient | with_reducible apply keeps_clientFollow

theorem keeps_freshBei {s0 s : State} {g} (hk : Keeps s0 s) : Keeps s0 (State.freshBei s g) := by
  unfold State.freshBei
  repeat' first
    | with_reducible assumption | with_reducible apply keeps_updClient | (with_reducible apply keeps_foldl; intro _ _ _)

theorem keeps_execOtucFramePeriod {s0 s : State} {g slice obs clients} (hk : Keeps s0 s) :
    Goes s0 (execOtucFramePeriod g slice obs clients s) := by
  unfold execOtucFramePeriod
  repeat' first
    | with_reducible apply goes_next | with_reducible assumption | with_reducible apply keeps_freshBei
    | with_reducible apply keeps_endRow | with_reducible apply keeps_otnFrame | with_reducible apply keeps_clientObs
    | with_reducible apply keeps_otnFollow | with_reducible apply keeps_updSlice
    | (with_reducible apply keeps_foldl; intro _ _ _) | split

theorem keeps_execIntegratedDefectTimer {s0 s : State} {g slice multiframe} (hk : Keeps s0 s) :
    Goes s0 (execIntegratedDefectTimer g slice multiframe s) := by
  unfold execIntegratedDefectTimer
  repeat' first
    | with_reducible apply goes_next | (show Goes s0 _; split) | with_reducible assumption | with_reducible apply keeps_updSlice
    | with_reducible apply keeps_otnFollow

theorem keeps_execSmDegSecond {s0 s : State} {g} (hk : Keeps s0 s) : Goes s0 (execSmDegSecond g s) := by
  unfold execSmDegSecond
  repeat' first
    | with_reducible apply goes_next | (show Goes s0 _; split) | with_reducible assumption | with_reducible apply keeps_updGrp
    | with_reducible apply keeps_otnFollow

theorem keeps_tsiCmd {s0 s : State} {f} (hf1 : ∀ t, Keeps s0 t → Keeps s0 (f t).1) (hk : Keeps s0 s) :
    Keeps s0 (tsiCmd f s).1 := by
  unfold tsiCmd
  repeat' first | with_reducible assumption | with_reducible apply keeps_wrSt | with_reducible apply hf1 | split

theorem keeps_cmdTsiWrite {s0 s : State} (hk : Keeps s0 s) : Keeps s0 (cmdTsiWrite s).1 := by
  unfold cmdTsiWrite
  repeat' first
    | with_reducible assumption | ((try lift_lets); intro x; clear_value x) | split | (with_reducible apply keeps_mk)

theorem keeps_cmdTsiRead {s0 s : State} {active} (hk : Keeps s0 s) : Keeps s0 (cmdTsiRead active s).1 := by
  unfold cmdTsiRead
  repeat' first | with_reducible assumption | ((try lift_lets); intro x; clear_value x) | with_reducible apply keeps_wr | split

theorem keeps_cmdTsiCopy {s0 s : State} (hk : Keeps s0 s) : Keeps s0 (cmdTsiCopy s).1 := by
  unfold cmdTsiCopy
  repeat' first | with_reducible assumption | split | (with_reducible apply keeps_mk)

theorem keeps_cmdTsiClear {s0 s : State} (hk : Keeps s0 s) : Keeps s0 (cmdTsiClear s).1 := by
  unfold cmdTsiClear
  repeat' first | with_reducible assumption | split | (with_reducible apply keeps_mk)

theorem keeps_cmdTsiSwap {s0 s : State} (hk : Keeps s0 s) : Keeps s0 (cmdTsiSwap s).1 := by
  unfold cmdTsiSwap
  repeat' first | with_reducible assumption | with_reducible apply keeps_wr | split

theorem keeps_execTsiWrite {s0 s : State} {p arg} (hk : Keeps s0 s) : Goes s0 (execTsiWrite p arg s) := by
  unfold execTsiWrite
  repeat' first
    | with_reducible apply goes_next | with_reducible assumption
    | ((try lift_lets); intro x; refine (?_ : Keeps s0 x.2 → _) ?_; (clear_value x; intro hx); (rotate_left; subst x; rotate_right))
    | (intro _) | with_reducible apply keeps_access | with_reducible apply keeps_tsiCmd | with_reducible apply keeps_noArg
    | with_reducible apply keeps_cmdTsiWrite

theorem keeps_execTsiRead {s0 s : State} {p active arg} (hk : Keeps s0 s) : Goes s0 (execTsiRead p active arg s) := by
  unfold execTsiRead
  repeat' first
    | with_reducible apply goes_next | with_reducible assumption | (intro _) | with_reducible apply keeps_access
    | with_reducible apply keeps_tsiCmd | with_reducible apply keeps_noArg | with_reducible apply keeps_cmdTsiRead

theorem keeps_execTsiCopy {s0 s : State} {p arg} (hk : Keeps s0 s) : Goes s0 (execTsiCopy p arg s) := by
  unfold execTsiCopy
  repeat' first
    | with_reducible apply goes_next | with_reducible assumption
    | ((try lift_lets); intro x; refine (?_ : Keeps s0 x.2 → _) ?_; (clear_value x; intro hx); (rotate_left; subst x; rotate_right))
    | (intro _) | with_reducible apply keeps_access | with_reducible apply keeps_tsiCmd | with_reducible apply keeps_noArg
    | with_reducible apply keeps_cmdTsiCopy

theorem keeps_execTsiClear {s0 s : State} {p arg} (hk : Keeps s0 s) : Goes s0 (execTsiClear p arg s) := by
  unfold execTsiClear
  repeat' first
    | with_reducible apply goes_next | with_reducible assumption
    | ((try lift_lets); intro x; refine (?_ : Keeps s0 x.2 → _) ?_; (clear_value x; intro hx); (rotate_left; subst x; rotate_right))
    | (intro _) | with_reducible apply keeps_access | with_reducible apply keeps_tsiCmd | with_reducible apply keeps_noArg
    | with_reducible apply keeps_cmdTsiClear

theorem keeps_execTsiSwap {s0 s : State} {p arg} (hk : Keeps s0 s) : Goes s0 (execTsiSwap p arg s) := by
  unfold execTsiSwap
  repeat' first
    | with_reducible apply goes_next | with_reducible assumption | (intro _) | with_reducible apply keeps_access
    | with_reducible apply keeps_tsiCmd | with_reducible apply keeps_noArg | with_reducible apply keeps_cmdTsiSwap

theorem keeps_execTsiSwapped {s0 s : State} (hk : Keeps s0 s) : Goes s0 (execTsiSwapped s) := by
  unfold execTsiSwapped
  repeat' first
    | with_reducible apply goes_next | (show Goes s0 _; split) | with_reducible assumption | with_reducible apply keeps_inc
    | with_reducible apply keeps_wr | with_reducible apply keeps_raise | with_reducible apply keeps_clientFollow
    | with_reducible apply keeps_otnFollow | (with_reducible apply keeps_foldl; intro _ _ _) | (with_reducible apply keeps_mk)

theorem keeps_execTsiRingRecords {s0 s : State} {r} (hk : Keeps s0 s) : Goes s0 (execTsiRingRecords r s) := by
  unfold execTsiRingRecords
  repeat' first
    | with_reducible apply goes_next | (show Goes s0 _; split) | with_reducible assumption
    | with_reducible apply keeps_tookEffect | (with_reducible apply keeps_mk)

theorem keeps_otnStartCheck {s0 s : State} (hk : Keeps s0 s) : Keeps s0 (State.otnStartCheck s).1 := by
  unfold State.otnStartCheck
  repeat' first | with_reducible assumption | with_reducible apply keeps_wr | split

theorem keeps_otnUp {s0 s : State} (hk : Keeps s0 s) : Keeps s0 (State.otnUp s) := by
  unfold State.otnUp
  repeat' first
    | with_reducible assumption | with_reducible apply keeps_updGrp | with_reducible apply keeps_otnFollow
    | with_reducible apply keeps_losFollow | (with_reducible apply keeps_foldl; intro _ _ _) | split
    | (with_reducible apply keeps_mk)

theorem keeps_otnStopping {s0 s : State} (hk : Keeps s0 s) : Keeps s0 (State.otnStopping s) := by
  unfold State.otnStopping
  repeat' first | with_reducible assumption | with_reducible apply keeps_wr | (with_reducible apply keeps_mk)

theorem keeps_mapperDone {s0 s : State} {q} (hk : Keeps s0 s) : Keeps s0 (State.mapperDone s q) := by
  unfold State.mapperDone
  repeat' first | with_reducible assumption | (with_reducible apply keeps_mk)

theorem keeps_otnForced {s0 s : State} (hk : Keeps s0 s) : Keeps s0 (State.otnForced s) := by
  unfold State.otnForced
  repeat' first
    | with_reducible assumption | with_reducible apply keeps_mapperDone | with_reducible apply keeps_leavePort
    | with_reducible apply keeps_setMac | (with_reducible apply keeps_foldl; intro _ _ _) | split

theorem keeps_otnDown {s0 s : State} (hk : Keeps s0 s) : Keeps s0 (State.otnDown s) := by
  unfold State.otnDown
  repeat' first
    | with_reducible assumption | with_reducible apply keeps_portDown | with_reducible apply keeps_otnFollow
    | with_reducible apply keeps_updGrp | (with_reducible apply keeps_foldl; intro _ _ _) | split
    | (with_reducible apply keeps_mk)

theorem keeps_otnDisable {s0 s : State} (hk : Keeps s0 s) : Keeps s0 (State.otnDisable s) := by
  unfold State.otnDisable
  repeat' first | with_reducible assumption | (with_reducible apply keeps_mk)

theorem keeps_otnUnbind {s0 s : State} {changed} (hk : Keeps s0 s) : Keeps s0 (State.otnUnbind s changed) := by
  unfold State.otnUnbind
  repeat' first
    | with_reducible assumption | with_reducible apply keeps_updGrp | with_reducible apply keeps_otnFollow
    | with_reducible apply keeps_raise | (with_reducible apply keeps_foldl; intro _ _ _) | split

end Sys2Proof.Machine
end

