-- ==== Sys2Proof/Laws/KeepsTables.lean ====
section
/-!
SUPPORT. Every operation of forwarding tables and the associative engine keeps what Keeps says, one lemma each.
-/

namespace Sys2Proof.Machine

theorem keeps_updFwd {s0 s : State} {f} (hk : Keeps s0 s) : Keeps s0 (State.updFwd s f) := by
  unfold State.updFwd
  repeat' first | with_reducible assumption | (with_reducible apply keeps_mk)

theorem keeps_setHalf {s0 s : State} {h m} (hk : Keeps s0 s) : Keeps s0 (State.setHalf s h m) := by
  unfold State.setHalf
  repeat' first | with_reducible assumption | with_reducible apply keeps_updFwd | with_reducible apply keeps_wr

theorem keeps_setExact {s0 s : State} {t m} (hk : Keeps s0 s) : Keeps s0 (State.setExact s t m) := by
  unfold State.setExact
  repeat' first | with_reducible assumption | with_reducible apply keeps_updFwd | with_reducible apply keeps_wr

theorem keeps_set4 {s0 s : State} {m} (hk : Keeps s0 s) : Keeps s0 (State.set4 s m) := by
  unfold State.set4
  repeat' first | with_reducible assumption | with_reducible apply keeps_wr | with_reducible apply keeps_updFwd

theorem keeps_set6 {s0 s : State} {m} (hk : Keeps s0 s) : Keeps s0 (State.set6 s m) := by
  unfold State.set6
  repeat' first | with_reducible assumption | with_reducible apply keeps_wr | with_reducible apply keeps_updFwd

theorem keeps_setIndex {s0 s : State} {tid m} (hk : Keeps s0 s) : Keeps s0 (State.setIndex s tid m) := by
  unfold State.setIndex
  repeat' first | with_reducible assumption | with_reducible apply keeps_updFwd | with_reducible apply keeps_wr

theorem keeps_tableParity {s0 s : State} {tid word keyBad a1 a2} (hk : Keeps s0 s) :
    Keeps s0 (State.tableParity s tid word keyBad a1 a2) := by
  unfold State.tableParity
  repeat' first | with_reducible assumption | with_reducible apply keeps_raise

theorem keeps_badNode {s0 s : State} {v6 vrf addr b} (hk : Keeps s0 s) : Keeps s0 (State.badNode s v6 vrf addr b) := by
  unfold State.badNode
  repeat' first
    | with_reducible assumption
    | ((try lift_lets); intro x; refine (?_ : Keeps s0 x → _) ?_; (clear_value x; intro hx); (rotate_left; subst x; rotate_right))
    | ((try lift_lets); intro x; clear_value x) | with_reducible apply keeps_updFwd | with_reducible apply keeps_tableParity
    | split

theorem keeps_badExact {s0 s : State} {k word keyBad} (hk : Keeps s0 s) : Keeps s0 (State.badExact s k word keyBad) := by
  unfold State.badExact
  repeat' first
    | with_reducible assumption | with_reducible apply keeps_tableParity | with_reducible apply keeps_setExact | split

theorem keeps_badBridge {s0 s : State} {h k word keyBad} (hk : Keeps s0 s) : Keeps s0 (State.badBridge s h k word keyBad) := by
  unfold State.badBridge
  repeat' first
    | with_reducible assumption | with_reducible apply keeps_tableParity | with_reducible apply keeps_setHalf | split

theorem keeps_badIndex {s0 s : State} {tid i bad} (hk : Keeps s0 s) : Keeps s0 (State.badIndex s tid i bad) := by
  unfold State.badIndex
  repeat' first
    | with_reducible assumption | with_reducible apply keeps_tableParity | with_reducible apply keeps_setIndex
    | (with_reducible apply keeps_foldl; intro _ _ _) | split

theorem keeps_foundBad {s0 s : State} {tid h b} (hk : Keeps s0 s) : Keeps s0 (State.foundBad s tid h b) := by
  unfold State.foundBad
  repeat' first
    | with_reducible assumption | with_reducible apply keeps_badNode | with_reducible apply keeps_badExact
    | with_reducible apply keeps_badBridge | with_reducible apply keeps_badIndex | split

theorem keeps_foundAll {s0 s : State} {tid h bad} (hk : Keeps s0 s) : Keeps s0 (State.foundAll s tid h bad) := by
  unfold State.foundAll
  repeat' first
    | with_reducible assumption | with_reducible apply keeps_foundBad | (with_reducible apply keeps_foldl; intro _ _ _)

theorem keeps_parityMiss {s0 s : State} {tid} (hk : Keeps s0 s) : Keeps s0 (State.parityMiss s tid) := by
  unfold State.parityMiss
  repeat' first | with_reducible assumption | with_reducible apply keeps_inc

theorem keeps_badPath {s0 s : State} {v6 vrf addr bad} (hk : Keeps s0 s) : Keeps s0 (State.badPath s v6 vrf addr bad) := by
  unfold State.badPath
  repeat' first
    | with_reducible assumption | with_reducible apply keeps_badNode | (with_reducible apply keeps_foldl; intro _ _ _)

theorem keeps_look4 {s0 s : State} {bad key} (hk : Keeps s0 s) : Keeps s0 (State.look4 s bad key).1 := by
  unfold State.look4
  repeat' first
    | with_reducible assumption
    | ((try lift_lets); intro x; refine (?_ : Keeps s0 x → _) ?_; (clear_value x; intro hx); (rotate_left; subst x; rotate_right))
    | ((try lift_lets); intro x; clear_value x) | with_reducible apply keeps_badPath | with_reducible apply keeps_parityMiss
    | split

theorem keeps_look6 {s0 s : State} {bad key} (hk : Keeps s0 s) : Keeps s0 (State.look6 s bad key).1 := by
  unfold State.look6
  repeat' first
    | with_reducible assumption
    | ((try lift_lets); intro x; refine (?_ : Keeps s0 x → _) ?_; (clear_value x; intro hx); (rotate_left; subst x; rotate_right))
    | ((try lift_lets); intro x; clear_value x) | with_reducible apply keeps_badPath | with_reducible apply keeps_parityMiss
    | split

theorem keeps_lookExact {s0 s : State} {bad t key} (hk : Keeps s0 s) : Keeps s0 (State.lookExact s bad t key).1 := by
  unfold State.lookExact
  repeat' first
    | with_reducible assumption | ((try lift_lets); intro x; clear_value x) | with_reducible apply keeps_parityMiss
    | with_reducible apply keeps_foundAll | with_reducible apply keeps_updFwd | split

theorem keeps_lookDest {s0 s : State} {bad h key} (hk : Keeps s0 s) : Keeps s0 (State.lookDest s bad h key).1 := by
  unfold State.lookDest
  repeat' first
    | with_reducible assumption | with_reducible apply keeps_parityMiss | with_reducible apply keeps_foundAll | split

theorem keeps_setRequests {s0 s : State} {h l} (hk : Keeps s0 s) : Keeps s0 (State.setRequests s h l) := by
  unfold State.setRequests
  repeat' first | with_reducible assumption | with_reducible apply keeps_wr | with_reducible apply keeps_updFwd

theorem keeps_learn {s0 s : State} {h key station move} (hk : Keeps s0 s) : Keeps s0 (State.learn s h key station move) := by
  unfold State.learn
  repeat' first
    | with_reducible assumption | ((try lift_lets); intro x; clear_value x) | with_reducible apply keeps_setRequests
    | with_reducible apply keeps_inc | split

theorem keeps_lookSource {s0 s : State} {bad h key station} (hk : Keeps s0 s) :
    Keeps s0 (State.lookSource s bad h key station).1 := by
  unfold State.lookSource
  repeat' first
    | with_reducible assumption
    | ((try lift_lets); intro x; refine (?_ : Keeps s0 x → _) ?_; (clear_value x; intro hx); (rotate_left; subst x; rotate_right))
    | ((try lift_lets); intro x; clear_value x) | with_reducible apply keeps_parityMiss | with_reducible apply keeps_foundAll
    | with_reducible apply keeps_learn | with_reducible apply keeps_setHalf | with_reducible apply keeps_inc | split

theorem keeps_lookIndex {s0 s : State} {bad tid i} (hk : Keeps s0 s) : Keeps s0 (State.lookIndex s bad tid i).1 := by
  unfold State.lookIndex
  repeat' first
    | with_reducible assumption | with_reducible apply keeps_parityMiss | with_reducible apply keeps_badIndex | split

theorem keeps_nextHopA {s0 s : State} {bad i} (hk : Keeps s0 s) : Keeps s0 (State.nextHopA s bad i).1 := by
  unfold State.nextHopA
  repeat' first | with_reducible assumption | with_reducible apply keeps_lookIndex

theorem keeps_resolve {s0 s : State} {bad key} (hk : Keeps s0 s) : Keeps s0 (State.resolve s bad key).1 := by
  unfold State.resolve
  repeat' first
    | with_reducible assumption | ((try lift_lets); intro x; clear_value x) | with_reducible apply keeps_nextHopA
    | with_reducible apply keeps_lookIndex | with_reducible refine keeps_fst (by with_reducible assumption) ?_ | split

theorem keeps_fwdLook {s0 s : State} {bad kind table slice station width key} (hk : Keeps s0 s) :
    Keeps s0 (State.fwdLook s bad kind table slice station width key).1 := by
  unfold State.fwdLook
  repeat' first
    | with_reducible assumption | with_reducible apply keeps_perfOpen | with_reducible apply keeps_look4
    | with_reducible apply keeps_look6 | with_reducible apply keeps_lookExact | with_reducible apply keeps_lookDest
    | with_reducible apply keeps_lookSource | with_reducible apply keeps_resolve | with_reducible apply keeps_lookIndex | split

theorem keeps_freeIndex {s0 s : State} {k e} (hk : Keeps s0 s) : Keeps s0 (State.freeIndex s k e) := by
  unfold State.freeIndex
  repeat' first
    | with_reducible assumption | with_reducible apply keeps_inc | with_reducible apply keeps_setIndex
    | with_reducible apply keeps_raise

theorem keeps_drain {s0 s : State} (hk : Keeps s0 s) : Keeps s0 (State.drain s) := by
  unfold State.drain
  repeat' first
    | with_reducible assumption | with_reducible apply keeps_wr | with_reducible apply keeps_freeIndex
    | (with_reducible apply keeps_foldl; intro _ _ _)

theorem keeps_execEpochAdvance {s0 s : State} (hk : Keeps s0 s) : Goes s0 (execEpochAdvance s) := by
  unfold execEpochAdvance
  repeat' first
    | with_reducible apply goes_next | (show Goes s0 _; split) | with_reducible assumption | with_reducible apply keeps_updFwd
    | with_reducible apply keeps_drain | with_reducible apply keeps_wr

theorem keeps_insertLpm {s0 s : State} {v6 key data len} (hk : Keeps s0 s) :
    Keeps s0 (State.insertLpm s v6 key data len).1 := by
  unfold State.insertLpm
  repeat' first
    | with_reducible assumption
    | ((try lift_lets); intro x; refine (?_ : Keeps s0 x → _) ?_; (clear_value x; intro hx); (rotate_left; subst x; rotate_right))
    | ((try lift_lets); intro x; clear_value x) | with_reducible apply keeps_updFwd | with_reducible apply keeps_set6
    | with_reducible apply keeps_set4 | split

theorem keeps_insertExact {s0 s : State} {a key data} (hk : Keeps s0 s) : Keeps s0 (State.insertExact s a key data).1 := by
  unfold State.insertExact
  repeat' first
    | with_reducible assumption | ((try lift_lets); intro x; clear_value x) | with_reducible apply keeps_setExact | split

theorem keeps_insertBridge {s0 s : State} {key data x4 x5} (hk : Keeps s0 s) :
    Keeps s0 (State.insertBridge s key data x4 x5).1 := by
  induction x4 generalizing s key data x5 with
  | nil =>
    unfold State.insertBridge
    repeat' first | with_reducible assumption
  | cons _ _ ih =>
    unfold State.insertBridge
    repeat' first
      | with_reducible assumption | ((try lift_lets); intro x; clear_value x) | with_reducible apply ih
      | with_reducible apply keeps_setHalf | split

theorem keeps_insertIndex {s0 s : State} {tid i data} (hk : Keeps s0 s) : Keeps s0 (State.insertIndex s tid i data).1 := by
  unfold State.insertIndex
  repeat' first
    | with_reducible assumption | ((try lift_lets); intro x; clear_value x) | with_reducible apply keeps_setIndex | split

theorem keeps_tblInsert {s0 s : State} {tid a key data} (hk : Keeps s0 s) : Keeps s0 (State.tblInsert s tid a key data).1 := by
  unfold State.tblInsert
  repeat' first
    | with_reducible assumption | with_reducible apply keeps_insertLpm | with_reducible apply keeps_insertExact
    | with_reducible apply keeps_insertBridge | with_reducible apply keeps_insertIndex | split

theorem keeps_deleteBridge {s0 s : State} {key x3 x4} (hk : Keeps s0 s) : Keeps s0 (State.deleteBridge s key x3 x4).1 := by
  induction x3 generalizing s key x4 with
  | nil =>
    unfold State.deleteBridge
    repeat' first | with_reducible assumption
  | cons _ _ ih =>
    unfold State.deleteBridge
    repeat' first | with_reducible assumption | with_reducible apply ih | with_reducible apply keeps_setHalf

theorem keeps_tblDelete {s0 s : State} {tid a key} (hk : Keeps s0 s) : Keeps s0 (State.tblDelete s tid a key).1 := by
  unfold State.tblDelete
  repeat' first
    | with_reducible assumption | with_reducible apply keeps_set4 | with_reducible apply keeps_set6
    | with_reducible apply keeps_setExact | with_reducible apply keeps_deleteBridge | split

theorem keeps_searchLpm {s0 s : State} {bad v6 a key} (hk : Keeps s0 s) : Keeps s0 (State.searchLpm s bad v6 a key).1 := by
  unfold State.searchLpm
  repeat' first
    | with_reducible assumption
    | ((try lift_lets); intro x; refine (?_ : Keeps s0 x → _) ?_; (clear_value x; intro hx); (rotate_left; subst x; rotate_right))
    | ((try lift_lets); intro x; clear_value x) | with_reducible apply keeps_badPath | with_reducible apply keeps_parityMiss
    | split

theorem keeps_tblSearch {s0 s : State} {bad tid a key} (hk : Keeps s0 s) : Keeps s0 (State.tblSearch s bad tid a key).1 := by
  unfold State.tblSearch
  repeat' first
    | with_reducible assumption | with_reducible apply keeps_searchLpm | with_reducible apply keeps_parityMiss
    | with_reducible apply keeps_foundAll | with_reducible apply keeps_lookDest | with_reducible apply keeps_lookIndex | split

theorem keeps_openWords {s0 s : State} {n} (h : Keeps s0 s) : Keeps s0 (s.openWords n).2 := by
  induction n with
  | zero => exact h
  | succ n ih => unfold State.openWords; exact keeps_open_ ih

theorem keeps_tblNext {s0 s : State} {tid a cursor} (hk : Keeps s0 s) : Keeps s0 (State.tblNext s tid a cursor).1 := by
  unfold State.tblNext
  repeat' first
    | with_reducible assumption
    | ((try lift_lets); intro x; refine (?_ : Keeps s0 x.2 → _) ?_; (clear_value x; intro hx); (rotate_left; subst x; rotate_right))
    | ((try lift_lets); intro x; clear_value x) | with_reducible apply keeps_openWords | split

theorem keeps_flushPort {s0 s : State} {tid halves station static ring} (hk : Keeps s0 s) :
    Keeps s0 (State.flushPort s tid halves station static ring).1 := by
  unfold State.flushPort
  repeat' first | with_reducible assumption | with_reducible apply keeps_updFwd | with_reducible apply keeps_wr | split

theorem keeps_tblRetire {s0 s : State} {tid i} (hk : Keeps s0 s) : Keeps s0 (State.tblRetire s tid i).1 := by
  unfold State.tblRetire
  repeat' first | with_reducible assumption | with_reducible apply keeps_setIndex | split

theorem keeps_wrBe {s0 s : State} {k n v} (hk : Keeps s0 s) : Keeps s0 (State.wrBe s k n v) := by
  unfold State.wrBe
  repeat' first | with_reducible assumption | with_reducible apply keeps_wrB

theorem keeps_tblRecord {s0 s : State} {tid a} (hk : Keeps s0 s) : Keeps s0 (State.tblRecord s tid a) := by
  unfold State.tblRecord
  repeat' first
    | with_reducible assumption | with_reducible apply keeps_wr | with_reducible apply keeps_wrSt
    | with_reducible apply keeps_wrBe | split

theorem keeps_tblIndexNote {s0 s : State} {tid} (hk : Keeps s0 s) : Keeps s0 (State.tblIndexNote s tid) := by
  unfold State.tblIndexNote
  repeat' first | with_reducible assumption | ((try lift_lets); intro x; clear_value x) | with_reducible apply keeps_wr | split

theorem keeps_cmdTbl {s0 s : State} {tid arg f} (hf1 : ∀ t x1 x2 x3, Keeps s0 t → Keeps s0 (f t x1 x2 x3).1) (hk : Keeps s0 s) :
    Keeps s0 (cmdTbl tid arg f s).1 := by
  unfold cmdTbl
  repeat' first
    | with_reducible assumption | with_reducible apply keeps_tblIndexNote | with_reducible apply keeps_tblRecord
    | with_reducible apply hf1 | split

theorem keeps_tableSram {s0 s : State} {write master} (hk : Keeps s0 s) : Keeps s0 (State.tableSram s write master) := by
  unfold State.tableSram
  repeat' first | with_reducible assumption | with_reducible apply keeps_perfOpen | split

theorem keeps_reading {s0 s : State} {tid a bad f} (hf1 : ∀ t, Keeps s0 t → Keeps s0 (f t).1) (hk : Keeps s0 s) :
    Keeps s0 (State.reading s tid a bad f).1 := by
  unfold State.reading
  repeat' first
    | with_reducible assumption
    | ((try lift_lets); intro x; refine (?_ : Keeps s0 x.1 → _) ?_; (clear_value x; intro hx); (rotate_left; subst x; rotate_right))
    | with_reducible apply keeps_foundBad | with_reducible apply hf1 | (with_reducible apply keeps_foldl; intro _ _ _) | split

theorem keeps_cmdInsert {s0 s : State} {master bad tid a key data} (hk : Keeps s0 s) :
    Keeps s0 (State.cmdInsert s master bad tid a key data).1 := by
  unfold State.cmdInsert
  repeat' first
    | with_reducible assumption | (intro _) | with_reducible apply keeps_reading | with_reducible apply keeps_tblInsert
    | with_reducible apply keeps_tableSram

theorem keeps_cmdDelete {s0 s : State} {master bad tid a key} (hk : Keeps s0 s) :
    Keeps s0 (State.cmdDelete s master bad tid a key).1 := by
  unfold State.cmdDelete
  repeat' first
    | with_reducible assumption | (intro _) | with_reducible apply keeps_reading | with_reducible apply keeps_tblDelete
    | with_reducible apply keeps_tableSram

theorem keeps_cmdSearch {s0 s : State} {master bad tid a key} (hk : Keeps s0 s) :
    Keeps s0 (State.cmdSearch s master bad tid a key).1 := by
  unfold State.cmdSearch
  repeat' first
    | with_reducible assumption | (intro _) | with_reducible apply keeps_reading | with_reducible apply keeps_tblSearch
    | with_reducible apply keeps_tableSram

theorem keeps_cmdNext {s0 s : State} {master bad tid a} (hk : Keeps s0 s) : Keeps s0 (State.cmdNext s master bad tid a).1 := by
  unfold State.cmdNext
  repeat' first
    | with_reducible assumption | (intro _) | with_reducible apply keeps_reading | with_reducible apply keeps_tblNext
    | with_reducible apply keeps_tableSram

theorem keeps_cmdRetire {s0 s : State} {master tid key} (hk : Keeps s0 s) : Keeps s0 (State.cmdRetire s master tid key).1 := by
  unfold State.cmdRetire
  repeat' first
    | with_reducible assumption | (intro _) | with_reducible apply keeps_reading | with_reducible apply keeps_tblRetire
    | with_reducible apply keeps_tableSram

theorem keeps_execTblInsert {s0 s : State} {p tid read} (hk : Keeps s0 s) : Goes s0 (execTblInsert p tid read s) := by
  unfold execTblInsert
  repeat' first
    | with_reducible apply goes_next | with_reducible assumption | (intro _) | with_reducible apply keeps_access
    | with_reducible apply keeps_cmdTbl | with_reducible apply keeps_cmdInsert

theorem keeps_execTblDelete {s0 s : State} {p tid read} (hk : Keeps s0 s) : Goes s0 (execTblDelete p tid read s) := by
  unfold execTblDelete
  repeat' first
    | with_reducible apply goes_next | with_reducible assumption | (intro _) | with_reducible apply keeps_access
    | with_reducible apply keeps_cmdTbl | with_reducible apply keeps_cmdDelete

theorem keeps_execTblSearch {s0 s : State} {p tid read} (hk : Keeps s0 s) : Goes s0 (execTblSearch p tid read s) := by
  unfold execTblSearch
  repeat' first
    | with_reducible apply goes_next | with_reducible assumption | (intro _) | with_reducible apply keeps_access
    | with_reducible apply keeps_cmdTbl | with_reducible apply keeps_cmdSearch

theorem keeps_execTblNext {s0 s : State} {p tid read} (hk : Keeps s0 s) : Goes s0 (execTblNext p tid read s) := by
  unfold execTblNext
  repeat' first
    | with_reducible apply goes_next | with_reducible assumption | (intro _) | with_reducible apply keeps_access
    | with_reducible apply keeps_cmdTbl | with_reducible apply keeps_cmdNext

theorem keeps_execFlushPort {s0 s : State} {p tid arg} (hk : Keeps s0 s) : Goes s0 (execFlushPort p tid arg s) := by
  unfold execFlushPort
  repeat' first
    | with_reducible apply goes_next | with_reducible assumption | (intro _) | with_reducible apply keeps_access
    | with_reducible apply keeps_cmdTbl | with_reducible apply keeps_flushPort

theorem keeps_execRetire {s0 s : State} {p tid arg} (hk : Keeps s0 s) : Goes s0 (execRetire p tid arg s) := by
  unfold execRetire
  repeat' first
    | with_reducible apply goes_next | with_reducible assumption | (intro _) | with_reducible apply keeps_access
    | with_reducible apply keeps_cmdTbl | with_reducible apply keeps_cmdRetire

theorem keeps_flushHalf {s0 s : State} {f h reached} (hk : Keeps s0 s) : Keeps s0 (State.flushHalf s f h reached).1 := by
  unfold State.flushHalf
  repeat' first | with_reducible assumption | with_reducible apply keeps_setHalf | split

theorem keeps_walkWrites {s0 s : State} (hk : Keeps s0 s) : Keeps s0 (State.walkWrites s) := by
  unfold State.walkWrites
  repeat' first | with_reducible assumption | with_reducible apply keeps_perfOpen

theorem keeps_flushWalk {s0 s : State} {f reached} (hk : Keeps s0 s) : Keeps s0 (State.flushWalk s f reached).1 := by
  unfold State.flushWalk
  repeat' first
    | with_reducible assumption
    | ((try lift_lets); intro x; refine (?_ : Keeps s0 x → _) ?_; (clear_value x; intro hx); (rotate_left; subst x; rotate_right))
    | ((try lift_lets); intro x; refine (?_ : Keeps s0 x.1 → _) ?_; (clear_value x; intro hx); (rotate_left; subst x; rotate_right))
    | with_reducible apply keeps_perfOpen | with_reducible apply keeps_flushHalf | with_reducible apply keeps_walkWrites | split

theorem keeps_flushTick {s0 s : State} (hk : Keeps s0 s) : Keeps s0 (State.flushTick s) := by
  unfold State.flushTick
  repeat' first
    | with_reducible assumption | with_reducible apply keeps_flushWalk | with_reducible apply keeps_updFwd
    | (with_reducible apply keeps_foldl1; intro _ _ _) | split

theorem keeps_flushResume {s0 s : State} {f} (hk : Keeps s0 s) : Keeps s0 (State.flushResume s f) := by
  unfold State.flushResume
  repeat' first | with_reducible assumption | with_reducible apply keeps_resumeAt | split

theorem keeps_execFlushDone {s0 s : State} {bad0 bad1} (hk : Keeps s0 s) : Goes s0 (execFlushDone bad0 bad1 s) := by
  unfold execFlushDone
  repeat' first
    | with_reducible apply goes_next | (show Goes s0 _; split) | with_reducible assumption | with_reducible apply keeps_foundAll
    | with_reducible apply keeps_flushWalk | with_reducible apply keeps_updFwd | with_reducible apply keeps_flushResume
    | with_reducible apply keeps_wr | with_reducible apply keeps_raise

theorem keeps_runRecords {s0 x6 : State} {size f x3 x4 x5} (hf1 : ∀ t x1 x2, Keeps s0 t → Keeps s0 (f t x1 x2).1) (hk : Keeps s0 x6) :
    Keeps s0 (runRecords size f x3 x4 x5 x6).1 := by
  induction x3 generalizing x6 size x4 x5 with
  | zero =>
    unfold runRecords
    repeat' first | with_reducible assumption
  | succ _ ih =>
    unfold runRecords
    repeat' first
      | with_reducible assumption
      | ((try lift_lets); intro x; refine (?_ : Keeps s0 x.1 → _) ?_; (clear_value x; intro hx); (rotate_left; subst x; rotate_right))
      | with_reducible apply ih | with_reducible apply hf1 | split

theorem keeps_recordRing {s0 s : State} {n size refuse f} (hf1 : ∀ t x1 x2, Keeps s0 t → Keeps s0 (f t x1 x2).1) (hk : Keeps s0 s) :
    Keeps s0 (State.recordRing s n size refuse f) := by
  unfold State.recordRing
  repeat' first
    | with_reducible assumption | with_reducible apply keeps_tookEffect | with_reducible apply keeps_runRecords | split

theorem keeps_tableRecord {s0 s : State} {bad tid op i r} (hk : Keeps s0 s) : Keeps s0 (tableRecord bad tid op s i r).1 := by
  unfold tableRecord
  repeat' first
    | with_reducible assumption | with_reducible apply keeps_cmdInsert | with_reducible apply keeps_cmdDelete
    | with_reducible apply keeps_cmdRetire | split

theorem keeps_flushRecords {s0 s : State} {n tid} (h : Keeps s0 s) : Keeps s0 (s.flushRecords n tid) := by
  unfold State.flushRecords
  split
  · exact h
  · dsimp only
    generalize recordOf tid 5 _ = o
    split
    · exact keeps_tookEffect h
    · split
      · exact h
      · split
        · exact keeps_tookEffect h
        · split
          · exact h
          · cases o with
            | none =>
              dsimp only
              split
              · exact keeps_resumeAt h
              · exact keeps_tookEffect h
            | some e =>
              dsimp only
              split
              · exact keeps_resumeAt (keeps_flushPort h)
              · exact keeps_tookEffect (keeps_flushPort h)

theorem keeps_execTableRingRecords {s0 s : State} {turn} (hk : Keeps s0 s) : Goes s0 (execTableRingRecords turn s) := by
  unfold execTableRingRecords
  repeat' first
    | with_reducible apply goes_next | (show Goes s0 _; split) | with_reducible assumption
    | ((try lift_lets); intro x; clear_value x) | (intro _) | with_reducible apply keeps_flushRecords
    | with_reducible apply keeps_recordRing | with_reducible apply keeps_tableRecord

theorem keeps_learnEvent {s0 s : State} {h key kind former station} (hk : Keeps s0 s) :
    Keeps s0 (State.learnEvent s h key kind former station) := by
  unfold State.learnEvent
  repeat' first | with_reducible assumption | with_reducible apply keeps_raise | split

theorem keeps_notify {s0 s : State} {h r kind former} (hk : Keeps s0 s) : Keeps s0 (State.notify s h r kind former) := by
  unfold State.notify
  repeat' first
    | with_reducible assumption
    | ((try lift_lets); intro x; refine (?_ : Keeps s0 x → _) ?_; (clear_value x; intro hx); (rotate_left; subst x; rotate_right))
    | ((try lift_lets); intro x; clear_value x) | with_reducible apply keeps_updFwd | with_reducible apply keeps_learnEvent
    | split

theorem keeps_learnOne {s0 s : State} {bad h r} (hk : Keeps s0 s) : Keeps s0 (State.learnOne s bad h r) := by
  unfold State.learnOne
  repeat' first
    | with_reducible assumption
    | ((try lift_lets); intro x; refine (?_ : Keeps s0 x → _) ?_; (clear_value x; intro hx); (rotate_left; subst x; rotate_right))
    | ((try lift_lets); intro x; clear_value x) | with_reducible apply keeps_perfOpen | with_reducible apply keeps_foundAll
    | with_reducible apply keeps_learnEvent | with_reducible apply keeps_inc | with_reducible apply keeps_setHalf
    | with_reducible apply keeps_walkWrites | with_reducible apply keeps_notify | split

theorem keeps_execLearnPerform {s0 s : State} {turn} (hk : Keeps s0 s) : Goes s0 (execLearnPerform turn s) := by
  unfold execLearnPerform
  repeat' first
    | with_reducible apply goes_next | (show Goes s0 _; split) | with_reducible assumption
    | ((try lift_lets); intro x; clear_value x) | with_reducible apply keeps_learnOne | with_reducible apply keeps_setRequests

theorem keeps_visitBridge {s0 s : State} {h key bad keyBad} (hk : Keeps s0 s) :
    Keeps s0 (State.visitBridge s h key bad keyBad) := by
  unfold State.visitBridge
  repeat' first
    | with_reducible assumption
    | ((try lift_lets); intro x; refine (?_ : Keeps s0 x → _) ?_; (clear_value x; intro hx); (rotate_left; subst x; rotate_right))
    | with_reducible apply keeps_open_ | with_reducible apply keeps_walkWrites | with_reducible apply keeps_badBridge
    | with_reducible apply keeps_setHalf | with_reducible apply keeps_inc | with_reducible apply keeps_raise | split

theorem keeps_visitExact {s0 s : State} {k bad keyBad} (hk : Keeps s0 s) : Keeps s0 (State.visitExact s k bad keyBad) := by
  unfold State.visitExact
  repeat' first
    | with_reducible assumption
    | ((try lift_lets); intro x; refine (?_ : Keeps s0 x → _) ?_; (clear_value x; intro hx); (rotate_left; subst x; rotate_right))
    | with_reducible apply keeps_open_ | with_reducible apply keeps_walkWrites | with_reducible apply keeps_badExact
    | with_reducible apply keeps_updFwd | with_reducible apply keeps_inc | with_reducible apply keeps_setExact
    | with_reducible apply keeps_raise | split

theorem keeps_sweepVisit {s0 s : State} {w key bad keyBad} (hk : Keeps s0 s) :
    Keeps s0 (State.sweepVisit s w key bad keyBad) := by
  unfold State.sweepVisit
  repeat' first
    | with_reducible assumption | with_reducible apply keeps_perfOpen | with_reducible apply keeps_visitBridge
    | with_reducible apply keeps_visitExact | split

theorem keeps_sweepWalk {s0 s : State} {w x reached} (hk : Keeps s0 s) : Keeps s0 (State.sweepWalk s w x reached) := by
  unfold State.sweepWalk
  repeat' first
    | with_reducible assumption | with_reducible apply keeps_sweepVisit | (with_reducible apply keeps_foldl; intro _ _ _)

theorem keeps_sweepEnds {s0 s : State} {w x} (hk : Keeps s0 s) : Keeps s0 (State.sweepEnds s w x) := by
  unfold State.sweepEnds
  repeat' first
    | with_reducible assumption | with_reducible apply keeps_updFwd | with_reducible apply keeps_sweepWalk
    | with_reducible apply keeps_inc | split

theorem keeps_sweepTick {s0 s : State} (hk : Keeps s0 s) : Keeps s0 (State.sweepTick s) := by
  unfold State.sweepTick
  repeat' first
    | with_reducible assumption
    | ((try lift_lets); intro x; refine (?_ : Keeps s0 x → _) ?_; (clear_value x; intro hx); (rotate_left; subst x; rotate_right))
    | ((try lift_lets); intro x; clear_value x) | with_reducible apply keeps_sweepWalk | with_reducible apply keeps_sweepEnds
    | with_reducible apply keeps_updFwd | (with_reducible apply keeps_foldl; intro _ _ _) | split

theorem keeps_execSweepStart {s0 s : State} {w} (hk : Keeps s0 s) : Goes s0 (execSweepStart w s) := by
  unfold execSweepStart
  repeat' first
    | with_reducible apply goes_next | (show Goes s0 _; split) | with_reducible assumption
    | ((try lift_lets); intro x; clear_value x) | with_reducible apply keeps_sweepEnds | with_reducible apply keeps_updFwd

theorem keeps_execSweepVisit {s0 s : State} {w key parityBad keyBad} (hk : Keeps s0 s) :
    Goes s0 (execSweepVisit w key parityBad keyBad s) := by
  unfold execSweepVisit
  repeat' first
    | with_reducible apply goes_next | (show Goes s0 _; split) | with_reducible assumption | with_reducible apply keeps_updFwd
    | with_reducible apply keeps_sweepVisit

theorem keeps_fwdStopping {s0 s : State} (hk : Keeps s0 s) : Keeps s0 (State.fwdStopping s) := by
  unfold State.fwdStopping
  repeat' first
    | with_reducible assumption | with_reducible apply keeps_setRequests | with_reducible apply keeps_add
    | with_reducible apply keeps_updFwd | (with_reducible apply keeps_foldl; intro _ _ _)

theorem keeps_fwdForced {s0 s : State} (hk : Keeps s0 s) : Keeps s0 (State.fwdForced s) := by
  unfold State.fwdForced
  repeat' first
    | with_reducible assumption | with_reducible apply keeps_flushResume | with_reducible apply keeps_wr
    | with_reducible apply keeps_updFwd | (with_reducible apply keeps_foldl; intro _ _ _)

theorem keeps_fwdDisable {s0 s : State} (hk : Keeps s0 s) : Keeps s0 (State.fwdDisable s) := by
  unfold State.fwdDisable
  repeat' first | with_reducible assumption | with_reducible apply keeps_wr | with_reducible apply keeps_updFwd

theorem keeps_updAsc {s0 s : State} {t f} (hk : Keeps s0 s) : Keeps s0 (State.updAsc s t f) := by
  unfold State.updAsc
  repeat' first | with_reducible assumption | (with_reducible apply keeps_mk)

theorem keeps_countSlots {s0 s : State} {obj code o l} (hk : Keeps s0 s) : Keeps s0 (State.countSlots s obj code o l) := by
  unfold State.countSlots
  repeat' first
    | with_reducible assumption | with_reducible apply keeps_perfEvent | with_reducible apply keeps_inc
    | (with_reducible apply keeps_foldl; intro _ _ _)

theorem keeps_takeSlot {s0 s : State} {u} (hk : Keeps s0 s) : Keeps s0 (State.takeSlot s u) := by
  unfold State.takeSlot
  repeat' first | with_reducible assumption | (with_reducible apply keeps_mk)

theorem keeps_bookSearch {s0 s : State} {u} (hk : Keeps s0 s) : Keeps s0 (State.bookSearch s u) := by
  unfold State.bookSearch
  repeat' first | with_reducible assumption | with_reducible apply keeps_takeSlot | with_reducible apply keeps_add

theorem keeps_updateSlot {s0 s : State} {t l o} (hk : Keeps s0 s) : Keeps s0 (State.updateSlot s t l o) := by
  unfold State.updateSlot
  repeat' first
    | with_reducible assumption | with_reducible apply keeps_countSlots | with_reducible apply keeps_bookSearch
    | with_reducible apply keeps_takeSlot | (with_reducible apply keeps_foldl; intro _ _ _) | (with_reducible apply keeps_mk)

theorem keeps_searchSlot {s0 s : State} {t l o} (hk : Keeps s0 s) : Keeps s0 (State.searchSlot s t l o) := by
  unfold State.searchSlot
  repeat' first | with_reducible assumption | with_reducible apply keeps_countSlots | with_reducible apply keeps_bookSearch

theorem keeps_lookupSlot {s0 s : State} {master t} (hk : Keeps s0 s) : Keeps s0 (State.lookupSlot s master t) := by
  unfold State.lookupSlot
  repeat' first | with_reducible assumption | with_reducible apply keeps_updateSlot

theorem keeps_writeSlot {s0 s : State} {master t row} (hk : Keeps s0 s) : Keeps s0 (State.writeSlot s master t row) := by
  unfold State.writeSlot
  repeat' first | with_reducible assumption | with_reducible apply keeps_updateSlot

theorem keeps_rowBad {s0 s : State} {t replica row e tagBad prioBad how} (hk : Keeps s0 s) :
    Keeps s0 (State.rowBad s t replica row e tagBad prioBad how) := by
  unfold State.rowBad
  repeat' first
    | with_reducible assumption | with_reducible apply keeps_updAsc | with_reducible apply keeps_inc
    | with_reducible apply keeps_wr | with_reducible apply keeps_raise | split

theorem keeps_ascSearch {s0 s : State} {t replica key bad tagBad prioBad o} (hk : Keeps s0 s) :
    Keeps s0 (State.ascSearch s t replica key bad tagBad prioBad o).1 := by
  unfold State.ascSearch
  repeat' first
    | with_reducible assumption
    | ((try lift_lets); intro x; refine (?_ : Keeps s0 x → _) ?_; (clear_value x; intro hx); (rotate_left; subst x; rotate_right))
    | with_reducible apply keeps_inc | with_reducible apply keeps_searchSlot | with_reducible apply keeps_rowBad | split

theorem keeps_execAssocSearch {s0 s : State} {t call key bad tagBad prioBad} (hk : Keeps s0 s) :
    Goes s0 (execAssocSearch t call key bad tagBad prioBad s) := by
  unfold execAssocSearch
  repeat' first
    | with_reducible apply goes_next | with_reducible assumption | with_reducible apply keeps_ascSearch
    | with_reducible apply keeps_emit

theorem keeps_countWrite {s0 s : State} {t x3} (hk : Keeps s0 s) : Keeps s0 (State.countWrite s t x3) := by
  unfold State.countWrite
  repeat' first | with_reducible assumption | with_reducible apply keeps_inc | split

theorem keeps_rowStep {s0 s : State} {t} (hk : Keeps s0 s) : Keeps s0 (State.rowStep s t) := by
  unfold State.rowStep
  repeat' first
    | with_reducible assumption | ((try lift_lets); intro x; clear_value x) | with_reducible apply keeps_writeSlot
    | with_reducible apply keeps_updAsc | with_reducible apply keeps_countWrite | split

theorem keeps_rowDrain {s0 x3 : State} {x1 x2} (hk : Keeps s0 x3) : Keeps s0 (State.rowDrain x1 x2 x3) := by
  induction x1 generalizing x3 x2 with
  | zero =>
    unfold State.rowDrain
    repeat' first | with_reducible assumption
  | succ _ ih =>
    unfold State.rowDrain
    repeat' first | with_reducible assumption | with_reducible apply ih | with_reducible apply keeps_rowStep | split

theorem keeps_ascSettle {s0 s : State} {t} (hk : Keeps s0 s) : Keeps s0 (State.ascSettle s t) := by
  unfold State.ascSettle
  repeat' first | with_reducible assumption | with_reducible apply keeps_rowDrain

theorem keeps_shiftBad {s0 s : State} {t a b respace e tagBad prioBad d again} (hk : Keeps s0 s) :
    Keeps s0 (State.shiftBad s t a b respace e tagBad prioBad d again) := by
  unfold State.shiftBad
  repeat' first
    | with_reducible assumption | with_reducible apply keeps_open_ | with_reducible apply keeps_rowBad
    | with_reducible apply keeps_updAsc | with_reducible apply keeps_countWrite | with_reducible apply keeps_writeSlot

theorem keeps_execRowWrite {s0 s : State} {t bad tagBad prioBad} (hk : Keeps s0 s) :
    Goes s0 (execRowWrite t bad tagBad prioBad s) := by
  unfold execRowWrite
  repeat' first
    | with_reducible apply goes_next | (show Goes s0 _; split) | with_reducible assumption
    | ((try lift_lets); intro x; clear_value x) | with_reducible apply keeps_shiftBad | with_reducible apply keeps_rowStep

theorem keeps_queueWrites {s0 s : State} {master t l} (hk : Keeps s0 s) : Keeps s0 (State.queueWrites s master t l) := by
  unfold State.queueWrites
  repeat' first | with_reducible assumption | with_reducible apply keeps_updAsc

theorem keeps_ascInsert {s0 s : State} {master t e} (h : Keeps s0 s) : Keeps s0 (s.ascInsert master t e).1 := by
  unfold State.ascInsert
  split
  · exact h
  · extract_lets s1 s2 s3 m
    have h3 : Keeps s0 s3 := keeps_lookupSlot (keeps_ascSettle (keeps_queueWrites (keeps_ascSettle h)))
    clear_value s3 m
    split
    · exact keeps_queueWrites h3
    · split
      · exact h3
      · generalize placeEntry m _ e = o
        cases o with
        | none => exact h3
        | some o => exact keeps_wr (keeps_inc (keeps_queueWrites h3))

theorem keeps_ascDelete {s0 s : State} {master t e} (hk : Keeps s0 s) : Keeps s0 (State.ascDelete s master t e).1 := by
  unfold State.ascDelete
  repeat' first
    | with_reducible assumption
    | ((try lift_lets); intro x; refine (?_ : Keeps s0 x → _) ?_; (clear_value x; intro hx); (rotate_left; subst x; rotate_right))
    | with_reducible apply keeps_lookupSlot | with_reducible apply keeps_ascSettle | with_reducible apply keeps_queueWrites
    | with_reducible apply keeps_wr | with_reducible apply keeps_inc | split

theorem keeps_cmdAsc {s0 s : State} {arg f} (hf1 : ∀ t x1, Keeps s0 t → Keeps s0 (f t x1).1) (hk : Keeps s0 s) :
    Keeps s0 (cmdAsc arg f s).1 := by
  unfold cmdAsc
  repeat' first
    | with_reducible assumption
    | ((try lift_lets); intro x; refine (?_ : Keeps s0 x → _) ?_; (clear_value x; intro hx); (rotate_left; subst x; rotate_right))
    | ((try lift_lets); intro x; refine (?_ : Keeps s0 x.1 → _) ?_; (clear_value x; intro hx); (rotate_left; subst x; rotate_right))
    | ((try lift_lets); intro x; clear_value x) | with_reducible apply keeps_wr | with_reducible apply keeps_wrSt
    | with_reducible apply keeps_wrBe | with_reducible apply hf1 | split

theorem keeps_cmdAscInsert {s0 x3 : State} {master arg} (hk : Keeps s0 x3) : Keeps s0 (cmdAscInsert master arg x3).1 := by
  unfold cmdAscInsert
  repeat' first
    | with_reducible assumption | (intro _) | with_reducible apply keeps_cmdAsc | with_reducible apply keeps_ascInsert | split

theorem keeps_execAscInsert {s0 s : State} {p arg} (hk : Keeps s0 s) : Goes s0 (execAscInsert p arg s) := by
  unfold execAscInsert
  repeat' first
    | with_reducible apply goes_next | with_reducible assumption | (intro _) | with_reducible apply keeps_access
    | with_reducible apply keeps_cmdAscInsert

theorem keeps_cmdAscDelete {s0 x3 : State} {master arg} (hk : Keeps s0 x3) : Keeps s0 (cmdAscDelete master arg x3).1 := by
  unfold cmdAscDelete
  repeat' first
    | with_reducible assumption | (intro _) | with_reducible apply keeps_cmdAsc | with_reducible apply keeps_ascDelete | split

theorem keeps_execAscDelete {s0 s : State} {p arg} (hk : Keeps s0 s) : Goes s0 (execAscDelete p arg s) := by
  unfold execAscDelete
  repeat' first
    | with_reducible apply goes_next | with_reducible assumption | (intro _) | with_reducible apply keeps_access
    | with_reducible apply keeps_cmdAscDelete

theorem keeps_cmdAscSearch {s0 x3 : State} {master x} (hk : Keeps s0 x3) : Keeps s0 (cmdAscSearch master x x3).1 := by
  unfold cmdAscSearch
  repeat' first
    | with_reducible assumption
    | ((try lift_lets); intro x; refine (?_ : Keeps s0 x.1 → _) ?_; (clear_value x; intro hx); (rotate_left; subst x; rotate_right))
    | (intro _) | with_reducible apply keeps_cmdAsc | with_reducible apply keeps_ascSearch
    | with_reducible apply keeps_ascSettle | split

theorem keeps_execAscSearch {s0 s : State} {p lookup} (hk : Keeps s0 s) : Goes s0 (execAscSearch p lookup s) := by
  unfold execAscSearch
  repeat' first
    | with_reducible apply goes_next | with_reducible assumption | (intro _) | with_reducible apply keeps_access
    | with_reducible apply keeps_cmdAscSearch

theorem keeps_ascRead {s0 s : State} {t row} (hk : Keeps s0 s) : Keeps s0 (State.ascRead s t row).1 := by
  unfold State.ascRead
  repeat' first
    | with_reducible assumption
    | ((try lift_lets); intro x; refine (?_ : Keeps s0 x → _) ?_; (clear_value x; intro hx); (rotate_left; subst x; rotate_right))
    | with_reducible apply keeps_ascSettle | split

theorem keeps_execAscRead {s0 s : State} {p arg} (hk : Keeps s0 s) : Goes s0 (execAscRead p arg s) := by
  unfold execAscRead
  repeat' first
    | with_reducible apply goes_next | with_reducible assumption | (intro _) | with_reducible apply keeps_access
    | with_reducible apply keeps_cmdAsc | with_reducible apply keeps_ascRead

theorem keeps_ascNext {s0 s : State} {t row fromStart} (hk : Keeps s0 s) : Keeps s0 (State.ascNext s t row fromStart).1 := by
  unfold State.ascNext
  repeat' first
    | with_reducible assumption
    | ((try lift_lets); intro x; refine (?_ : Keeps s0 x → _) ?_; (clear_value x; intro hx); (rotate_left; subst x; rotate_right))
    | ((try lift_lets); intro x; clear_value x) | with_reducible apply keeps_ascSettle | with_reducible apply keeps_updAsc
    | split

theorem keeps_execAscNext {s0 s : State} {p arg} (hk : Keeps s0 s) : Goes s0 (execAscNext p arg s) := by
  unfold execAscNext
  repeat' first
    | with_reducible apply goes_next | with_reducible assumption | (intro _) | with_reducible apply keeps_access
    | with_reducible apply keeps_cmdAsc | with_reducible apply keeps_ascNext

theorem keeps_ascRecord {s0 s : State} {t op x4 r} (hk : Keeps s0 s) : Keeps s0 (ascRecord t op s x4 r).1 := by
  unfold ascRecord
  repeat' first
    | with_reducible assumption | with_reducible apply keeps_ascInsert | with_reducible apply keeps_ascDelete
    | with_reducible apply keeps_ascSettle | split

theorem keeps_execAssocRingRecords {s0 s : State} {r} (hk : Keeps s0 s) : Goes s0 (execAssocRingRecords r s) := by
  unfold execAssocRingRecords
  repeat' first
    | with_reducible apply goes_next | (show Goes s0 _; split) | with_reducible assumption
    | ((try lift_lets); intro x; clear_value x) | (intro _) | with_reducible apply keeps_recordRing
    | with_reducible apply keeps_ascRecord

theorem keeps_scrubbed {s0 s : State} {slice row} (hk : Keeps s0 s) : Keeps s0 (State.scrubbed s slice row) := by
  unfold State.scrubbed
  repeat' first | with_reducible assumption | with_reducible apply keeps_inc | split | (with_reducible apply keeps_mk)

theorem keeps_execScrubRow {s0 s : State} {slice row bad tagBad prioBad} (hk : Keeps s0 s) :
    Goes s0 (execScrubRow slice row bad tagBad prioBad s) := by
  unfold execScrubRow
  repeat' first
    | with_reducible apply goes_next | (show Goes s0 _; split) | with_reducible assumption
    | ((try lift_lets); intro x; clear_value x) | with_reducible apply keeps_scrubbed | with_reducible apply keeps_rowBad

theorem keeps_assocUp {s0 s : State} (hk : Keeps s0 s) : Keeps s0 (State.assocUp s) := by
  unfold State.assocUp
  repeat' first
    | with_reducible assumption | with_reducible apply keeps_wr | (with_reducible apply keeps_foldl; intro _ _ _) | split

theorem keeps_assocForced {s0 s : State} (hk : Keeps s0 s) : Keeps s0 (State.assocForced s).1 := by
  unfold State.assocForced
  repeat' first
    | with_reducible assumption
    | ((try lift_lets); intro x; refine (?_ : Keeps s0 x → _) ?_; (clear_value x; intro hx); (rotate_left; subst x; rotate_right))
    | ((try lift_lets); intro x; clear_value x) | with_reducible apply keeps_rowDrain | with_reducible apply keeps_updAsc
    | (with_reducible apply keeps_foldl1; intro _ _ _) | split

theorem keeps_assocDisable {s0 s : State} (hk : Keeps s0 s) : Keeps s0 (State.assocDisable s) := by
  unfold State.assocDisable
  repeat' first | with_reducible assumption | (with_reducible apply keeps_mk)

end Sys2Proof.Machine
end

