-- ==== Sys2Proof/Laws/KeepsParse.lean ====
section
/-!
SUPPORT. Every operation of the chain, slices, dispatch, reordering, pools and packet engines keeps what Keeps says, one lemma each.
-/

namespace Sys2Proof.Machine

theorem keeps_Chain_stage {s0 : State} {dir slice frame depth bad i} {c : Chain} (h : Keeps s0 c.s) :
    Keeps s0 (Chain.stage dir slice frame depth bad c i).s := by
  unfold Chain.stage
  extract_lets st get kind table w6 key width mine v x r md1
  have hr : Keeps s0 r.1 := by
    subst r
    split
    · exact keeps_ascSearch h
    · exact keeps_fwdLook h
  clear_value r
  split
  · exact h
  · split
    · exact keeps_inc hr
    · exact keeps_inc hr

theorem keeps_runChain {s0 s : State} {dir slice md frame depth bad} (h : Keeps s0 s) :
    Keeps s0 (s.runChain dir slice md frame depth bad).1 := by
  have hc : ∀ (l : List Nat) (c : Chain), Keeps s0 c.s → Keeps s0 (l.foldl (Chain.stage dir slice frame depth bad) c).s := by
    intro l
    induction l with
    | nil => exact fun c hc => hc
    | cons i t ih => exact fun c hc => ih _ (keeps_Chain_stage hc)
  unfold State.runChain
  split
  · exact h
  · exact hc _ _ h

theorem keeps_defaultIngress {s0 s : State} {slice port cause md} (hk : Keeps s0 s) :
    Keeps s0 (State.defaultIngress s slice port cause md).1 := by
  unfold State.defaultIngress
  repeat' first
    | with_reducible assumption
    | ((try lift_lets); intro x; refine (?_ : Keeps s0 x → _) ?_; (clear_value x; intro hx); (rotate_left; subst x; rotate_right))
    | ((try lift_lets); intro x; clear_value x) | with_reducible apply keeps_inc | with_reducible apply keeps_wr | split

theorem keeps_defaultEgress {s0 s : State} {slice port cause md} (hk : Keeps s0 s) :
    Keeps s0 (State.defaultEgress s slice port cause md).1 := by
  unfold State.defaultEgress
  repeat' first
    | with_reducible assumption
    | ((try lift_lets); intro x; refine (?_ : Keeps s0 x → _) ?_; (clear_value x; intro hx); (rotate_left; subst x; rotate_right))
    | ((try lift_lets); intro x; clear_value x) | with_reducible apply keeps_inc | split

theorem keeps_upk {s0 s : State} {f} (hk : Keeps s0 s) : Keeps s0 (State.upk s f) := by
  unfold State.upk
  repeat' first | with_reducible assumption | (with_reducible apply keeps_mk)

theorem keeps_queuePkt {s0 s : State} {t p} (hk : Keeps s0 s) : Keeps s0 (State.queuePkt s t p) := by
  unfold State.queuePkt
  repeat' first | with_reducible assumption | with_reducible apply keeps_upk

theorem keeps_chained {s0 s : State} {dir n md frame depth bad} (f : State → Nat → BitVec 512 → State × BitVec 512)
    (hf : ∀ t x y, Keeps s0 t → Keeps s0 (f t x y).1) (h : Keeps s0 s) :
    Keeps s0 (let c := s.runChain dir n md frame depth bad
      (if c.2.2 = 0 then (c.1, c.2.1) else f c.1 c.2.2 c.2.1).1) := by
  have hc : Keeps s0 (s.runChain dir n md frame depth bad).1 := keeps_runChain h
  generalize s.runChain dir n md frame depth bad = c at hc
  dsimp only
  split
  · exact hc
  · exact hf _ _ _ hc

theorem keeps_parseIngress {s0 s : State} {t r bad} (h : Keeps s0 s) : Keeps s0 (s.parseIngress t r bad) :=
  keeps_queuePkt (keeps_chained (fun a x y => a.defaultIngress t r.port x y) (fun _ _ _ => keeps_defaultIngress) (keeps_inc h))

theorem keeps_takeSeqIn {s0 s : State} {p} (h : Keeps s0 s) : Keeps s0 (s.takeSeqIn p).2.2 := by
  unfold State.takeSeqIn
  with_reducible exact keeps_upk h

theorem keeps_sliceInput {s0 s : State} {t port subport host tod frame bad} (h : Keeps s0 s) :
    Keeps s0 (s.sliceInput t port subport host tod frame bad) := by
  unfold State.sliceInput
  extract_lets q md r s2
  have h2 : Keeps s0 s2 := keeps_takeSeqIn h
  clear_value s2 r
  split
  · exact keeps_parseIngress h2
  · exact keeps_upk h2

theorem keeps_deliverFrame {s0 s : State} {p subport frame bad} (hk : Keeps s0 s) :
    Keeps s0 (State.deliverFrame s p subport frame bad) := by
  unfold State.deliverFrame
  repeat' first
    | with_reducible assumption
    | ((try lift_lets); intro x; refine (?_ : Keeps s0 x → _) ?_; (clear_value x; intro hx); (rotate_left; subst x; rotate_right))
    | ((try lift_lets); intro x; clear_value x) | with_reducible apply keeps_inc | with_reducible apply keeps_add
    | with_reducible apply keeps_sliceInput | split

theorem keeps_receive {s0 s : State} {p subport frame fcsGood symbolError bad} (hk : Keeps s0 s) :
    Keeps s0 (State.receive s p subport frame fcsGood symbolError bad) := by
  unfold State.receive
  repeat' first
    | with_reducible assumption | ((try lift_lets); intro x; clear_value x) | with_reducible apply keeps_inc
    | with_reducible apply keeps_add | with_reducible apply keeps_deliverFrame | split

theorem keeps_execFrameReceived {s0 s : State} {port client frame check bad} (hk : Keeps s0 s) :
    Goes s0 (execFrameReceived port client frame check bad s) := by
  unfold execFrameReceived
  repeat' first
    | with_reducible apply goes_next | (show Goes s0 _; split) | with_reducible assumption
    | ((try lift_lets); intro x; clear_value x) | with_reducible apply keeps_inc | with_reducible apply keeps_receive

theorem keeps_threadPeak {s0 s : State} {c} (hk : Keeps s0 s) : Keeps s0 (State.threadPeak s c) := by
  unfold State.threadPeak
  repeat' first | with_reducible assumption | with_reducible apply keeps_wr

theorem keeps_dispatchTo {s0 s : State} {t c p rest} (hk : Keeps s0 s) : Keeps s0 (State.dispatchTo s t c p rest) := by
  unfold State.dispatchTo
  repeat' first | with_reducible assumption | with_reducible apply keeps_threadPeak | with_reducible apply keeps_upk

theorem keeps_parseWaiting {s0 s : State} {t bad} (hk : Keeps s0 s) : Keeps s0 (State.parseWaiting s t bad) := by
  unfold State.parseWaiting
  repeat' first | with_reducible assumption | with_reducible apply keeps_parseIngress | with_reducible apply keeps_upk | split

theorem keeps_chainTick {s0 s : State} (hk : Keeps s0 s) : Keeps s0 (State.chainTick s) := by
  unfold State.chainTick
  repeat' first
    | with_reducible assumption | with_reducible apply keeps_parseWaiting | (with_reducible apply keeps_foldl; intro _ _ _)

theorem keeps_execDispatch {s0 s : State} {slice bad} (hk : Keeps s0 s) : Goes s0 (execDispatch slice bad s) := by
  unfold execDispatch
  repeat' first
    | with_reducible apply goes_next | (show Goes s0 _; split) | with_reducible assumption
    | ((try lift_lets); intro x; clear_value x) | with_reducible apply keeps_parseWaiting
    | with_reducible apply keeps_dispatchTo

theorem keeps_stallTick {s0 s : State} (hk : Keeps s0 s) : Keeps s0 (State.stallTick s) := by
  unfold State.stallTick
  repeat' first
    | with_reducible assumption | with_reducible apply keeps_inc | (with_reducible apply keeps_foldl; intro _ _ _) | split

theorem keeps_updOrder {s0 s : State} {k f} (hk : Keeps s0 s) : Keeps s0 (State.updOrder s k f) := by
  unfold State.updOrder
  repeat' first | with_reducible assumption | with_reducible apply keeps_upk

theorem keeps_countWaiting {s0 s : State} {stage} (hk : Keeps s0 s) : Keeps s0 (State.countWaiting s stage) := by
  unfold State.countWaiting
  repeat' first | with_reducible assumption | with_reducible apply keeps_wr

theorem keeps_giveUp {s0 s : State} {stage port seq} (hk : Keeps s0 s) : Keeps s0 (State.giveUp s stage port seq) := by
  unfold State.giveUp
  repeat' first | with_reducible assumption | with_reducible apply keeps_updOrder

theorem keeps_leaveEgress {s0 s : State} {p} (hk : Keeps s0 s) : Keeps s0 (State.leaveEgress s p) := by
  unfold State.leaveEgress
  repeat' first | with_reducible assumption | with_reducible apply keeps_leavePort | split

theorem keeps_toChannel {s0 s : State} {n md frame} (hk : Keeps s0 s) : Keeps s0 (State.toChannel s n md frame) := by
  unfold State.toChannel
  repeat' first | with_reducible assumption | with_reducible apply keeps_upk | with_reducible apply keeps_inc | split

theorem keeps_toMac {s0 s : State} {p ts} (hk : Keeps s0 s) : Keeps s0 (State.toMac s p ts) := by
  unfold State.toMac
  repeat' first
    | with_reducible assumption | ((try lift_lets); intro x; clear_value x) | with_reducible apply keeps_leaveEgress
    | with_reducible apply keeps_inc | with_reducible apply keeps_setMac | split

theorem keeps_toTrap {s0 s : State} {p} (hk : Keeps s0 s) : Keeps s0 (State.toTrap s p) := by
  unfold State.toTrap
  repeat' first
    | with_reducible assumption
    | ((try lift_lets); intro x; refine (?_ : Keeps s0 x → _) ?_; (clear_value x; intro hx); (rotate_left; subst x; rotate_right))
    | with_reducible apply keeps_leaveEgress | with_reducible apply keeps_inc | with_reducible apply keeps_upk | split

theorem keeps_release {s0 s : State} {w} (hk : Keeps s0 s) : Keeps s0 (State.release s w) := by
  unfold State.release
  repeat' first
    | with_reducible assumption | with_reducible apply keeps_toTrap | with_reducible apply keeps_toChannel
    | with_reducible apply keeps_toMac | split

theorem keeps_execReorderRelease {s0 s : State} {stage port} (hk : Keeps s0 s) : Goes s0 (execReorderRelease stage port s) := by
  unfold execReorderRelease
  repeat' first
    | with_reducible apply goes_next | (show Goes s0 _; split) | with_reducible assumption
    | ((try lift_lets); intro x; clear_value x) | with_reducible apply keeps_updOrder | with_reducible apply keeps_drain
    | with_reducible apply keeps_countWaiting | with_reducible apply keeps_release

theorem keeps_execReorderTimeout {s0 s : State} {stage port} (hk : Keeps s0 s) : Goes s0 (execReorderTimeout stage port s) := by
  unfold execReorderTimeout
  repeat' first
    | with_reducible apply goes_next | (show Goes s0 _; split) | with_reducible assumption
    | ((try lift_lets); intro x; clear_value x) | with_reducible apply keeps_inc | with_reducible apply keeps_upk
    | with_reducible apply keeps_updOrder

theorem keeps_outcome {s0 s : State} {p drop trap ts} (hk : Keeps s0 s) : Keeps s0 (State.outcome s p drop trap ts) := by
  unfold State.outcome
  repeat' first
    | with_reducible assumption
    | ((try lift_lets); intro x; refine (?_ : Keeps s0 x → _) ?_; (clear_value x; intro hx); (rotate_left; subst x; rotate_right))
    | ((try lift_lets); intro x; clear_value x) | with_reducible apply keeps_upk | with_reducible apply keeps_leaveEgress
    | with_reducible apply keeps_inc | with_reducible apply keeps_drain | with_reducible apply keeps_giveUp
    | with_reducible apply keeps_countWaiting | with_reducible apply keeps_updOrder | with_reducible apply keeps_toTrap
    | with_reducible apply keeps_release | split

theorem keeps_execTrapDeliver {s0 s : State} (hk : Keeps s0 s) : Goes s0 (execTrapDeliver s) := by
  unfold execTrapDeliver
  repeat' first
    | with_reducible apply goes_next | (show Goes s0 _; split) | with_reducible assumption
    | ((try lift_lets); intro x; clear_value x) | with_reducible apply keeps_upk | with_reducible apply keeps_inc
    | with_reducible apply keeps_deliver | with_reducible refine keeps_fst (by with_reducible assumption) ?_

theorem keeps_chainRecorded {s0 s : State} {f} (hf1 : ∀ t, Keeps s0 t → Keeps s0 (f t).1) (hk : Keeps s0 s) :
    Keeps s0 (chainRecorded f s).1 := by
  unfold chainRecorded
  repeat' first | with_reducible assumption | with_reducible apply keeps_wrSt | with_reducible apply hf1

theorem keeps_cmdChain {s0 x3 : State} {arg f} (hf1 : ∀ t, Keeps s0 t → Keeps s0 (f t).1) (hk : Keeps s0 x3) :
    Keeps s0 (cmdChain arg f x3).1 := by
  unfold cmdChain
  repeat' first
    | with_reducible assumption | (intro _) | with_reducible apply keeps_chainRecorded | with_reducible apply keeps_noArg
    | with_reducible apply hf1 | split

theorem keeps_chainCopy {s0 s : State} (hk : Keeps s0 s) : Keeps s0 (chainCopy s).1 := by
  unfold chainCopy
  repeat' first | with_reducible assumption | with_reducible apply keeps_wr | (with_reducible apply keeps_foldl; intro _ _ _)

theorem keeps_chainClear {s0 s : State} (hk : Keeps s0 s) : Keeps s0 (chainClear s).1 := by
  unfold chainClear
  repeat' first
    | with_reducible assumption | with_reducible apply keeps_toDflt | (with_reducible apply keeps_foldl; intro _ _ _)

theorem keeps_chainSwap {s0 s : State} (hk : Keeps s0 s) : Keeps s0 (chainSwap s).1 := by
  unfold chainSwap
  repeat' first | with_reducible assumption | with_reducible apply keeps_wr | with_reducible apply keeps_upk | split

theorem keeps_execChainCopy {s0 s : State} {p arg} (hk : Keeps s0 s) : Goes s0 (execChainCopy p arg s) := by
  unfold execChainCopy
  repeat' first
    | with_reducible apply goes_next | with_reducible assumption | (intro _) | with_reducible apply keeps_access
    | with_reducible apply keeps_cmdChain | with_reducible apply keeps_chainCopy

theorem keeps_execChainSwap {s0 s : State} {p arg} (hk : Keeps s0 s) : Goes s0 (execChainSwap p arg s) := by
  unfold execChainSwap
  repeat' first
    | with_reducible apply goes_next | with_reducible assumption | (intro _) | with_reducible apply keeps_access
    | with_reducible apply keeps_cmdChain | with_reducible apply keeps_chainSwap

theorem keeps_execChainClear {s0 s : State} {p arg} (hk : Keeps s0 s) : Goes s0 (execChainClear p arg s) := by
  unfold execChainClear
  repeat' first
    | with_reducible apply goes_next | with_reducible assumption | (intro _) | with_reducible apply keeps_access
    | with_reducible apply keeps_cmdChain | with_reducible apply keeps_chainClear

theorem keeps_swapDone {s0 s : State} (hk : Keeps s0 s) : Keeps s0 (State.swapDone s) := by
  unfold State.swapDone
  repeat' first
    | with_reducible assumption | with_reducible apply keeps_upk | with_reducible apply keeps_wr
    | with_reducible apply keeps_inc | (with_reducible apply keeps_foldl; intro _ _ _) | split

theorem keeps_execChainSwapDone {s0 s : State} (hk : Keeps s0 s) : Goes s0 (execChainSwapDone s) := by
  unfold execChainSwapDone
  repeat' first | with_reducible apply goes_next | with_reducible assumption | with_reducible apply keeps_swapDone

theorem keeps_execInjectPort {s0 s : State} {r bad} (hk : Keeps s0 s) : Goes s0 (execInjectPort r bad s) := by
  unfold execInjectPort
  repeat' first
    | with_reducible apply goes_next | (show Goes s0 _; split) | with_reducible assumption
    | ((try lift_lets); intro x; clear_value x) | with_reducible apply keeps_inc | with_reducible apply keeps_sliceInput
    | with_reducible apply keeps_tookEffect

theorem keeps_execInjectQueue {s0 s : State} {r} (hk : Keeps s0 s) : Goes s0 (execInjectQueue r s) := by
  unfold execInjectQueue
  repeat' first
    | with_reducible apply goes_next | (show Goes s0 _; split) | with_reducible assumption
    | ((try lift_lets); intro x; clear_value x) | with_reducible apply keeps_inc | with_reducible apply keeps_toChannel
    | with_reducible apply keeps_tookEffect

theorem keeps_parseEgress {s0 s : State} {n p bad} (h : Keeps s0 s) : Keeps s0 (s.parseEgress n p bad) :=
  keeps_queuePkt (keeps_chained (fun a x y => a.defaultEgress (8 + n) p.port x y) (fun _ _ _ => keeps_defaultEgress) (keeps_inc h))

theorem keeps_execEgressSliceInput {s0 s : State} {n bad} (hk : Keeps s0 s) : Goes s0 (execEgressSliceInput n bad s) := by
  unfold execEgressSliceInput
  repeat' first
    | with_reducible apply goes_next | (show Goes s0 _; split) | with_reducible assumption
    | ((try lift_lets); intro x; clear_value x) | with_reducible apply keeps_parseEgress | with_reducible apply keeps_carried
    | with_reducible apply keeps_upk

theorem keeps_stampFrame {s0 s : State} {p f} (hk : Keeps s0 s) : Keeps s0 (State.stampFrame s p f).1 := by
  unfold State.stampFrame
  repeat' first | with_reducible assumption | with_reducible apply keeps_inc | with_reducible apply keeps_raise | split

theorem keeps_execFrameTransmit {s0 s : State} {port} (h : Keeps s0 s) : Goes s0 (execFrameTransmit port s) := by
  unfold execFrameTransmit
  dsimp only
  generalize s.nextTx port.val = o
  cases o with
  | none => exact goes_next h
  | some x =>
    obtain ⟨f, rest⟩ := x
    dsimp only
    have h' := keeps_mapperDone (q := f.subport) (keeps_leavePort (p := f.owner) (n := f.bytes) (keeps_setMac (p := port.val) (l := rest) h))
    split
    · exact goes_next (keeps_inc h')
    · split
      · exact goes_next (keeps_inc h')
      · split
        · exact goes_next (keeps_inc h')
        · split
          · exact goes_next (keeps_receive (keeps_add (keeps_inc (keeps_stampFrame h'))))
          · exact goes_next (keeps_emit (keeps_add (keeps_inc (keeps_stampFrame h'))))

theorem keeps_parseUp {s0 s : State} (hk : Keeps s0 s) : Keeps s0 (State.parseUp s) := by
  unfold State.parseUp
  repeat' first | with_reducible assumption | with_reducible apply keeps_upk

theorem keeps_parseDisable {s0 s : State} (hk : Keeps s0 s) : Keeps s0 (State.parseDisable s) := by
  unfold State.parseDisable
  repeat' first
    | with_reducible assumption | with_reducible apply keeps_toDflt | with_reducible apply keeps_upk
    | (with_reducible apply keeps_foldl; intro _ _ _)

theorem keeps_raiseCounted {s0 s : State} {id gap r type func sev a0 a1} (hk : Keeps s0 s) :
    Keeps s0 (State.raiseCounted s id gap r type func sev a0 a1) := by
  unfold State.raiseCounted
  repeat' first | with_reducible assumption | with_reducible apply keeps_raise | split | (with_reducible apply keeps_mk)

theorem keeps_updPoolBuf {s0 s : State} {p i f} (hk : Keeps s0 s) : Keeps s0 (State.updPoolBuf s p i f) := by
  unfold State.updPoolBuf
  repeat' first | with_reducible assumption | (with_reducible apply keeps_mk)

theorem keeps_poolAlloc {s0 s : State} {p} (hk : Keeps s0 s) : Keeps s0 (State.poolAlloc s p).1 := by
  unfold State.poolAlloc
  repeat' first
    | with_reducible assumption
    | ((try lift_lets); intro x; refine (?_ : Keeps s0 x → _) ?_; (clear_value x; intro hx); (rotate_left; subst x; rotate_right))
    | ((try lift_lets); intro x; refine (?_ : Keeps s0 x.2 → _) ?_; (clear_value x; intro hx); (rotate_left; subst x; rotate_right))
    | ((try lift_lets); intro x; clear_value x) | with_reducible apply keeps_inc | with_reducible apply keeps_open_
    | with_reducible apply keeps_updPoolBuf | with_reducible apply keeps_wr | split

theorem keeps_bpmReject {s0 s : State} {h kind client} (hk : Keeps s0 s) : Keeps s0 (State.bpmReject s h kind client) := by
  unfold State.bpmReject
  repeat' first | with_reducible assumption | with_reducible apply keeps_inc | with_reducible apply keeps_raiseCounted

theorem keeps_poolRelease {s0 s : State} {h client} (hk : Keeps s0 s) : Keeps s0 (State.poolRelease s h client).1 := by
  unfold State.poolRelease
  repeat' first
    | with_reducible assumption | with_reducible apply keeps_updPoolBuf | with_reducible apply keeps_bpmReject | split

theorem keeps_poolRead {s0 s : State} {h offset n client} (hk : Keeps s0 s) :
    Keeps s0 (State.poolRead s h offset n client).1 := by
  unfold State.poolRead
  repeat' first | with_reducible assumption | with_reducible apply keeps_bpmReject | split

theorem keeps_poolWrite {s0 s : State} {h offset d client} (hk : Keeps s0 s) :
    Keeps s0 (State.poolWrite s h offset d client).1 := by
  unfold State.poolWrite
  repeat' first | with_reducible assumption | with_reducible apply keeps_bpmReject | split | (with_reducible apply keeps_mk)

theorem keeps_poolGet {s0 s : State} {n} (hk : Keeps s0 s) : Keeps s0 (State.poolGet s n).1 := by
  unfold State.poolGet
  repeat' first
    | with_reducible assumption | with_reducible apply keeps_poolAlloc
    | with_reducible refine keeps_fst (by with_reducible assumption) ?_ | split

theorem keeps_engineRequest {s0 s : State} {r} (hk : Keeps s0 s) : Keeps s0 (State.engineRequest s r) := by
  unfold State.engineRequest
  repeat' first
    | with_reducible assumption
    | ((try lift_lets); intro x; refine (?_ : Keeps s0 x.1 → _) ?_; (clear_value x; intro hx); (rotate_left; subst x; rotate_right))
    | ((try lift_lets); intro x; clear_value x) | with_reducible apply keeps_poolGet | with_reducible apply keeps_emit
    | with_reducible apply keeps_poolRelease | with_reducible apply keeps_poolRead | with_reducible apply keeps_poolWrite
    | split

theorem keeps_bpmRecorded {s0 s : State} {f} (hf1 : ∀ t, Keeps s0 t → Keeps s0 (f t).1) (hk : Keeps s0 s) :
    Keeps s0 (bpmRecorded f s).1 := by
  unfold bpmRecorded
  repeat' first | with_reducible assumption | with_reducible apply keeps_wrSt | with_reducible apply hf1

theorem keeps_bpmEnabled {s0 s : State} {f} (hf1 : ∀ t, Keeps s0 t → Keeps s0 (f t).1) (hk : Keeps s0 s) :
    Keeps s0 (bpmEnabled f s).1 := by
  unfold bpmEnabled
  repeat' first | with_reducible assumption | with_reducible apply hf1 | split

theorem keeps_bpmAlloc {s0 s : State} {n} (hk : Keeps s0 s) : Keeps s0 (bpmAlloc n s).1 := by
  unfold bpmAlloc
  repeat' first
    | with_reducible assumption
    | ((try lift_lets); intro x; refine (?_ : Keeps s0 x.1 → _) ?_; (clear_value x; intro hx); (rotate_left; subst x; rotate_right))
    | with_reducible apply keeps_poolGet | with_reducible apply keeps_wr | split

theorem keeps_execBpmAlloc {s0 s : State} {p arg} (hk : Keeps s0 s) : Goes s0 (execBpmAlloc p arg s) := by
  unfold execBpmAlloc
  repeat' first
    | with_reducible apply goes_next | with_reducible assumption | (intro _) | with_reducible apply keeps_access
    | with_reducible apply keeps_bpmRecorded | with_reducible apply keeps_bpmAlloc

theorem keeps_bpmFree {s0 s : State} (hk : Keeps s0 s) : Keeps s0 (bpmFree s).1 := by
  unfold bpmFree
  repeat' first | with_reducible assumption | with_reducible apply keeps_poolRelease

theorem keeps_execBpmFree {s0 s : State} {p arg} (hk : Keeps s0 s) : Goes s0 (execBpmFree p arg s) := by
  unfold execBpmFree
  repeat' first
    | with_reducible apply goes_next | with_reducible assumption | (intro _) | with_reducible apply keeps_access
    | with_reducible apply keeps_bpmRecorded | with_reducible apply keeps_bpmEnabled | with_reducible apply keeps_noArg
    | with_reducible apply keeps_bpmFree

theorem keeps_bpmCheck {s0 s : State} (hk : Keeps s0 s) : Keeps s0 (bpmCheck s).1 := by
  unfold bpmCheck
  repeat' first | with_reducible assumption

theorem keeps_execBpmCheck {s0 s : State} {p arg} (hk : Keeps s0 s) : Goes s0 (execBpmCheck p arg s) := by
  unfold execBpmCheck
  repeat' first
    | with_reducible apply goes_next | with_reducible assumption | (intro _) | with_reducible apply keeps_access
    | with_reducible apply keeps_bpmRecorded | with_reducible apply keeps_bpmEnabled | with_reducible apply keeps_noArg
    | with_reducible apply keeps_bpmCheck

theorem keeps_bpmUp {s0 s : State} (hk : Keeps s0 s) : Keeps s0 (State.bpmUp s) := by
  unfold State.bpmUp
  repeat' first
    | with_reducible assumption | with_reducible apply keeps_wr | (with_reducible apply keeps_foldl; intro _ _ _) | split
    | (with_reducible apply keeps_mk)

theorem keeps_bpmDisable {s0 s : State} (hk : Keeps s0 s) : Keeps s0 (State.bpmDisable s) := by
  unfold State.bpmDisable
  repeat' first | with_reducible assumption | (with_reducible apply keeps_mk)

theorem keeps_showBundles {s0 s : State} (hk : Keeps s0 s) : Keeps s0 (State.showBundles s) := by
  unfold State.showBundles
  repeat' first | with_reducible assumption | with_reducible apply keeps_wr

theorem keeps_updProfile {s0 s : State} {n f} (hk : Keeps s0 s) : Keeps s0 (State.updProfile s n f) := by
  unfold State.updProfile
  repeat' first | with_reducible assumption | with_reducible apply keeps_upk

theorem keeps_flipProfile {s0 s : State} {n e} (hk : Keeps s0 s) : Keeps s0 (State.flipProfile s n e) := by
  unfold State.flipProfile
  repeat' first | with_reducible assumption | with_reducible apply keeps_updProfile

theorem keeps_cmdProfile {s0 s : State} {arg f} (hf1 : ∀ x0 t, Keeps s0 t → Keeps s0 (f x0 t).1) (hk : Keeps s0 s) :
    Keeps s0 (cmdProfile arg f s).1 := by
  unfold cmdProfile
  repeat' first | with_reducible assumption | with_reducible apply keeps_wrSt | with_reducible apply hf1 | split

theorem keeps_profWrite {s0 s : State} {clear n} (hk : Keeps s0 s) : Keeps s0 (profWrite clear n s).1 := by
  unfold profWrite
  repeat' first
    | with_reducible assumption | ((try lift_lets); intro x; clear_value x) | with_reducible apply keeps_flipProfile | split

theorem keeps_profRead {s0 s : State} {n} (hk : Keeps s0 s) : Keeps s0 (profRead n s).1 := by
  unfold profRead
  repeat' first | with_reducible assumption | with_reducible apply keeps_wr | with_reducible apply keeps_wrB

theorem keeps_execProfileWrite {s0 s : State} {p arg} (hk : Keeps s0 s) : Goes s0 (execProfileWrite p arg s) := by
  unfold execProfileWrite
  repeat' first
    | with_reducible apply goes_next | with_reducible assumption | (intro _) | with_reducible apply keeps_access
    | with_reducible apply keeps_cmdProfile | with_reducible apply keeps_profWrite

theorem keeps_execProfileRead {s0 s : State} {p arg} (hk : Keeps s0 s) : Goes s0 (execProfileRead p arg s) := by
  unfold execProfileRead
  repeat' first
    | with_reducible apply goes_next | with_reducible assumption | (intro _) | with_reducible apply keeps_access
    | with_reducible apply keeps_cmdProfile | with_reducible apply keeps_profRead

theorem keeps_execProfileClear {s0 s : State} {p arg} (hk : Keeps s0 s) : Goes s0 (execProfileClear p arg s) := by
  unfold execProfileClear
  repeat' first
    | with_reducible apply goes_next | with_reducible assumption | (intro _) | with_reducible apply keeps_access
    | with_reducible apply keeps_cmdProfile | with_reducible apply keeps_profWrite

theorem keeps_execProfileHoldEnd {s0 s : State} {profile} (hk : Keeps s0 s) : Goes s0 (execProfileHoldEnd profile s) := by
  unfold execProfileHoldEnd
  repeat' first | with_reducible apply goes_next | with_reducible assumption | with_reducible apply keeps_updProfile

theorem keeps_writeProfiles {s0 x4 : State} {d x2 x3} (hk : Keeps s0 x4) : Keeps s0 (State.writeProfiles d x2 x3 x4).1 := by
  induction x2 generalizing x4 d x3 with
  | zero =>
    unfold State.writeProfiles
    repeat' first | with_reducible assumption
  | succ _ ih =>
    unfold State.writeProfiles
    repeat' first
      | with_reducible assumption | ((try lift_lets); intro x; clear_value x) | with_reducible apply ih
      | with_reducible apply keeps_flipProfile | split

theorem keeps_execProfileRingWrite {s0 s : State} {r} (hk : Keeps s0 s) : Goes s0 (execProfileRingWrite r s) := by
  unfold execProfileRingWrite
  repeat' first
    | with_reducible apply goes_next | (show Goes s0 _; split) | with_reducible assumption
    | ((try lift_lets); intro x; clear_value x) | with_reducible apply keeps_tookEffect
    | with_reducible apply keeps_writeProfiles | with_reducible apply keeps_resumeAt

theorem keeps_updCluster {s0 s : State} {c f} (hk : Keeps s0 s) : Keeps s0 (State.updCluster s c f) := by
  unfold State.updCluster
  repeat' first | with_reducible assumption | with_reducible apply keeps_upk

theorem keeps_engException {s0 s : State} {c kind profile} (hk : Keeps s0 s) :
    Keeps s0 (State.engException s c kind profile) := by
  unfold State.engException
  repeat' first
    | with_reducible assumption
    | ((try lift_lets); intro x; refine (?_ : Keeps s0 x → _) ?_; (clear_value x; intro hx); (rotate_left; subst x; rotate_right))
    | ((try lift_lets); intro x; clear_value x) | with_reducible apply keeps_inc | with_reducible apply keeps_raise
    | with_reducible apply keeps_updCluster | split

theorem keeps_bankParity {s0 s : State} {c bank} (hk : Keeps s0 s) : Keeps s0 (State.bankParity s c bank) := by
  unfold State.bankParity
  repeat' first
    | with_reducible assumption | with_reducible apply keeps_updCluster | with_reducible apply keeps_wr
    | with_reducible apply keeps_protFollow | with_reducible apply keeps_raise | split

theorem keeps_countPass {s0 s : State} {p issue residence} (hk : Keeps s0 s) :
    Keeps s0 (State.countPass s p issue residence) := by
  unfold State.countPass
  repeat' first
    | with_reducible assumption | with_reducible apply keeps_add | with_reducible apply keeps_inc
    | with_reducible apply keeps_updProfile | with_reducible apply keeps_perfOpen | with_reducible apply keeps_perfEvent | split

theorem keeps_engineRead {s0 s : State} {half b} (hk : Keeps s0 s) : Keeps s0 (State.engineRead half s b) := by
  unfold State.engineRead
  repeat' first
    | with_reducible assumption | with_reducible apply keeps_look4 | with_reducible apply keeps_look6
    | with_reducible apply keeps_parityMiss | with_reducible apply keeps_foundBad | with_reducible apply keeps_lookDest
    | with_reducible apply keeps_lookIndex | split

theorem keeps_passCounted {s0 s : State} {p issue residence use} (hk : Keeps s0 s) :
    Keeps s0 (State.passCounted s p issue residence use) := by
  unfold State.passCounted
  repeat' first | with_reducible assumption | with_reducible apply keeps_statUpdate | with_reducible apply keeps_countPass

theorem keeps_passOut {s0 s : State} {p issue residence drop trap ts use} (hk : Keeps s0 s) :
    Keeps s0 (State.passOut s p issue residence drop trap ts use) := by
  unfold State.passOut
  repeat' first | with_reducible assumption | with_reducible apply keeps_outcome | with_reducible apply keeps_passCounted

theorem keeps_passException {s0 s : State} {p kind issue residence use} (hk : Keeps s0 s) :
    Keeps s0 (State.passException s p kind issue residence use) := by
  unfold State.passException
  repeat' first
    | with_reducible assumption
    | ((try lift_lets); intro x; refine (?_ : Keeps s0 x → _) ?_; (clear_value x; intro hx); (rotate_left; subst x; rotate_right))
    | with_reducible apply keeps_engException | with_reducible apply keeps_passOut | split

theorem keeps_passWork {s0 s : State} {p res} (hk : Keeps s0 s) : Keeps s0 (State.passWork s p res) := by
  unfold State.passWork
  repeat' first
    | with_reducible assumption | with_reducible apply keeps_perfOpen | with_reducible apply keeps_engineRequest
    | with_reducible apply keeps_engineRead | (with_reducible apply keeps_foldl; intro _ _ _)

theorem keeps_execPassEnd {s0 s : State} {cluster packet res} (h : Keeps s0 s) :
    Goes s0 (execPassEnd cluster packet res s) := by
  unfold execPassEnd
  split
  · exact goes_next h
  · rename_i p _
    extract_lets zero issue s1 md frame drop
    have h1 : Keeps s0 s1 := by
      unfold s1
      split
      · exact h
      · exact keeps_passWork h
    clear_value s1 md frame drop
    split
    · refine goes_next ?_
      split
      · exact keeps_bankParity (keeps_passException h1)
      · exact keeps_passException h1
    · exact goes_next (keeps_passOut h1)

theorem keeps_execCycleOverrun {s0 s : State} {cluster packet run} (hk : Keeps s0 s) :
    Goes s0 (execCycleOverrun cluster packet run s) := by
  unfold execCycleOverrun
  repeat' first
    | with_reducible apply goes_next | (show Goes s0 _; split) | with_reducible assumption
    | with_reducible apply keeps_passException

theorem keeps_execResidenceOverrun {s0 s : State} {cluster packet run} (hk : Keeps s0 s) :
    Goes s0 (execResidenceOverrun cluster packet run s) := by
  unfold execResidenceOverrun
  repeat' first
    | with_reducible apply goes_next | (show Goes s0 _; split) | with_reducible assumption
    | with_reducible apply keeps_passException

theorem keeps_takeTurn {s0 x2 : State} {x1} (hk : Keeps s0 x2) : Keeps s0 (State.takeTurn x1 x2) := by
  induction x1 generalizing x2 with
  | zero =>
    unfold State.takeTurn
    repeat' first | with_reducible assumption
  | succ _ ih =>
    unfold State.takeTurn
    repeat' first
      | with_reducible assumption
      | ((try lift_lets); intro x; refine (?_ : Keeps s0 x → _) ?_; (clear_value x; intro hx); (rotate_left; subst x; rotate_right))
      | ((try lift_lets); intro x; clear_value x) | with_reducible apply ih | with_reducible apply keeps_upk
      | with_reducible apply keeps_wr | with_reducible apply keeps_inc | with_reducible apply keeps_showBundles
      | with_reducible apply keeps_raise | with_reducible apply keeps_wrSt | split

theorem keeps_turnNext {s0 s : State} (hk : Keeps s0 s) : Keeps s0 (State.turnNext s) := by
  unfold State.turnNext
  repeat' first | with_reducible assumption | with_reducible apply keeps_protFollow | with_reducible apply keeps_takeTurn

theorem keeps_cmdLoad {s0 s : State} (hk : Keeps s0 s) : Keeps s0 (cmdLoad s).1 := by
  unfold cmdLoad
  repeat' first
    | with_reducible assumption | ((try lift_lets); intro x; clear_value x) | with_reducible apply keeps_wr
    | with_reducible apply keeps_showBundles | with_reducible apply keeps_upk | split

theorem keeps_loadFails {s0 s : State} {st arg2} (hk : Keeps s0 s) : Keeps s0 (State.loadFails s st arg2) := by
  unfold State.loadFails
  repeat' first
    | with_reducible assumption | with_reducible apply keeps_raise | with_reducible apply keeps_wrSt
    | with_reducible apply keeps_wr

theorem keeps_execLoad {s0 s : State} {p arg} (hk : Keeps s0 s) : Goes s0 (execLoad p arg s) := by
  unfold execLoad
  repeat' first
    | with_reducible apply goes_next | with_reducible assumption | (intro _) | with_reducible apply keeps_access
    | with_reducible apply keeps_noArg | with_reducible apply keeps_cmdLoad

theorem keeps_execMcodeLoaded {s0 s : State} {badCluster} (hk : Keeps s0 s) : Goes s0 (execMcodeLoaded badCluster s) := by
  unfold execMcodeLoaded
  repeat' first
    | with_reducible apply goes_next | (show Goes s0 _; split) | with_reducible assumption
    | with_reducible apply keeps_loadFails | with_reducible apply keeps_wr | with_reducible apply keeps_wrSt
    | with_reducible apply keeps_showBundles | with_reducible apply keeps_upk | with_reducible apply keeps_raise

theorem keeps_cmdSwitch {s0 s : State} (hk : Keeps s0 s) : Keeps s0 (cmdSwitch s).1 := by
  unfold cmdSwitch
  repeat' first
    | with_reducible assumption | ((try lift_lets); intro x; clear_value x) | with_reducible apply keeps_wr
    | with_reducible apply keeps_turnNext | with_reducible apply keeps_upk | split

theorem keeps_execSwitch {s0 s : State} {p arg} (hk : Keeps s0 s) : Goes s0 (execSwitch p arg s) := by
  unfold execSwitch
  repeat' first
    | with_reducible apply goes_next | with_reducible assumption | (intro _) | with_reducible apply keeps_access
    | with_reducible apply keeps_noArg | with_reducible apply keeps_cmdSwitch

theorem keeps_switchCluster {s0 s : State} {c elapsed} (hk : Keeps s0 s) : Keeps s0 (State.switchCluster s c elapsed) := by
  unfold State.switchCluster
  repeat' first
    | with_reducible assumption | with_reducible apply keeps_wr | with_reducible apply keeps_turnNext
    | with_reducible apply keeps_upk

theorem keeps_execClusterSwitch {s0 s : State} {cluster elapsed} (hk : Keeps s0 s) :
    Goes s0 (execClusterSwitch cluster elapsed s) := by
  unfold execClusterSwitch
  repeat' first
    | with_reducible apply goes_next | (show Goes s0 _; split) | with_reducible assumption
    | ((try lift_lets); intro x; clear_value x) | with_reducible apply keeps_switchCluster

theorem keeps_cmdMcodeAbort {s0 s : State} (hk : Keeps s0 s) : Keeps s0 (cmdMcodeAbort s).1 := by
  unfold cmdMcodeAbort
  repeat' first
    | with_reducible assumption | ((try lift_lets); intro x; clear_value x) | with_reducible apply keeps_wrSt
    | with_reducible apply keeps_wr | with_reducible apply keeps_showBundles | with_reducible apply keeps_upk | split

theorem keeps_execAbort {s0 s : State} {p arg} (hk : Keeps s0 s) : Goes s0 (execAbort p arg s) := by
  unfold execAbort
  repeat' first
    | with_reducible apply goes_next | with_reducible assumption | (intro _) | with_reducible apply keeps_access
    | with_reducible apply keeps_noArg | with_reducible apply keeps_cmdMcodeAbort

theorem keeps_execClusterRepairDone {s0 s : State} {cluster} (hk : Keeps s0 s) : Goes s0 (execClusterRepairDone cluster s) := by
  unfold execClusterRepairDone
  repeat' first
    | with_reducible apply goes_next | (show Goes s0 _; split) | with_reducible assumption
    | ((try lift_lets); intro x; clear_value x) | with_reducible apply keeps_wr | with_reducible apply keeps_turnNext
    | with_reducible apply keeps_protFollow | with_reducible apply keeps_inc | split

theorem keeps_engUp {s0 s : State} {b bad} (hk : Keeps s0 s) : Keeps s0 (State.engUp s b bad) := by
  unfold State.engUp
  repeat' first
    | with_reducible assumption | with_reducible apply keeps_upk | with_reducible apply keeps_wr
    | with_reducible apply keeps_protFollow | with_reducible apply keeps_showBundles
    | (with_reducible apply keeps_foldl; intro _ _ _)

theorem keeps_engStopped {s0 s : State} (hk : Keeps s0 s) : Keeps s0 (State.engStopped s) := by
  unfold State.engStopped
  repeat' first
    | with_reducible assumption | with_reducible apply keeps_upk | with_reducible apply keeps_wr
    | with_reducible apply keeps_protFollow | with_reducible apply keeps_showBundles
    | (with_reducible apply keeps_foldl; intro _ _ _)

theorem keeps_cutPass {s0 s : State} {p} (hk : Keeps s0 s) : Keeps s0 (State.cutPass s p) := by
  unfold State.cutPass
  repeat' first
    | with_reducible assumption | with_reducible apply keeps_open_ | with_reducible apply keeps_openPair
    | with_reducible apply keeps_passCounted

theorem keeps_forcePass {s0 s : State} {p} (hk : Keeps s0 s) : Keeps s0 (State.forcePass s p) := by
  unfold State.forcePass
  repeat' first | with_reducible assumption | with_reducible apply keeps_outcome | with_reducible apply keeps_cutPass

theorem keeps_parseForced {s0 s : State} (hk : Keeps s0 s) : Keeps s0 (State.parseForced s) := by
  unfold State.parseForced
  repeat' first
    | with_reducible assumption | with_reducible apply keeps_cutPass | with_reducible apply keeps_upk
    | with_reducible apply keeps_giveUp | with_reducible apply keeps_leaveEgress | with_reducible apply keeps_countWaiting
    | with_reducible apply keeps_drain | with_reducible apply keeps_add | (with_reducible apply keeps_foldl; intro _ _ _)

theorem keeps_finishSwitch {s0 s : State} (hk : Keeps s0 s) : Keeps s0 (State.finishSwitch s) := by
  unfold State.finishSwitch
  repeat' first
    | with_reducible assumption | with_reducible apply keeps_wr | with_reducible apply keeps_inc
    | with_reducible apply keeps_open_ | with_reducible apply keeps_takeTurn | with_reducible apply keeps_upk
    | (with_reducible apply keeps_foldl; intro _ _ _) | split | (with_reducible apply keeps_mk)

theorem keeps_engForced {s0 s : State} (hk : Keeps s0 s) : Keeps s0 (State.engForced s) := by
  unfold State.engForced
  repeat' first
    | with_reducible assumption
    | ((try lift_lets); intro x; refine (?_ : Keeps s0 x.2.2 → _) ?_; (clear_value x; intro hx); (rotate_left; subst x; rotate_right))
    | ((try lift_lets); intro x; clear_value x) | with_reducible apply keeps_add | with_reducible apply keeps_finishSwitch
    | with_reducible apply keeps_forcePass | (with_reducible apply keeps_foldl; intro _ _ _)

theorem keeps_engDisable {s0 s : State} (hk : Keeps s0 s) : Keeps s0 (State.engDisable s) := by
  unfold State.engDisable
  repeat' first | with_reducible assumption | with_reducible apply keeps_upk

end Sys2Proof.Machine
end

