-- ==== Sys2Proof/Laws/KeepsBuffers.lean ====
section
/-!
SUPPORT. Every operation of buffers, light trap and the switch core keeps what Keeps says, one lemma each.
-/

namespace Sys2Proof.Machine

theorem keeps_updQueue {s0 s : State} {q f} (hk : Keeps s0 s) : Keeps s0 (State.updQueue s q f) := by
  unfold State.updQueue
  repeat' first | with_reducible assumption | (with_reducible apply keeps_mk)

theorem keeps_updNode {s0 s : State} {k f} (hk : Keeps s0 s) : Keeps s0 (State.updNode s k f) := by
  unfold State.updNode
  repeat' first | with_reducible assumption | (with_reducible apply keeps_mk)

theorem keeps_breakGuarantee {s0 s : State} {kind q} (h : Keeps s0 s) : Keeps s0 (s.breakGuarantee kind q) := by
  unfold State.breakGuarantee
  extract_lets s1 s2 b first set due
  have h2 : Keeps s0 s2 := keeps_inc (keeps_updQueue h)
  clear_value s2 b first due
  split
  · exact keeps_raise (keeps_mk h2)
  · exact keeps_mk h2

theorem keeps_refresh {s0 s : State} {k} (hk : Keeps s0 s) : Keeps s0 (State.refresh s k) := by
  unfold State.refresh
  repeat' first
    | with_reducible assumption
    | ((try lift_lets); intro x; refine (?_ : Keeps s0 x → _) ?_; (clear_value x; intro hx); (rotate_left; subst x; rotate_right))
    | ((try lift_lets); intro x; clear_value x) | with_reducible apply keeps_updNode | with_reducible apply keeps_breakGuarantee
    | split

theorem keeps_refreshAll {s0 s : State} {l} (hk : Keeps s0 s) : Keeps s0 (State.refreshAll s l) := by
  unfold State.refreshAll
  repeat' first
    | with_reducible assumption | with_reducible apply keeps_refresh | (with_reducible apply keeps_foldl; intro _ _ _)

theorem keeps_emptyNodes {s0 s : State} {l} (hk : Keeps s0 s) : Keeps s0 (State.emptyNodes s l) := by
  unfold State.emptyNodes
  repeat' first
    | with_reducible assumption | with_reducible apply keeps_updNode | (with_reducible apply keeps_foldl; intro _ _ _) | split

theorem keeps_commitTick {s0 s : State} (hk : Keeps s0 s) : Keeps s0 (State.commitTick s) := by
  unfold State.commitTick
  repeat' first
    | with_reducible assumption | with_reducible apply keeps_refresh | (with_reducible apply keeps_foldl; intro _ _ _) | split

theorem keeps_perfCells {s0 s : State} {code tc x4} (hk : Keeps s0 s) : Keeps s0 (State.perfCells s code tc x4) := by
  induction x4 generalizing s code tc with
  | zero =>
    unfold State.perfCells
    repeat' first | with_reducible assumption
  | succ _ ih =>
    unfold State.perfCells
    repeat' first
      | with_reducible assumption | with_reducible apply ih | with_reducible apply keeps_open_
      | with_reducible apply keeps_perfEvent | split

theorem keeps_updSession {s0 s : State} {k f} (hk : Keeps s0 s) : Keeps s0 (State.updSession s k f) := by
  unfold State.updSession
  repeat' first | with_reducible assumption | (with_reducible apply keeps_mk)

theorem keeps_ltDrop {s0 s : State} {k} (hk : Keeps s0 s) : Keeps s0 (State.ltDrop s k) := by
  unfold State.ltDrop
  repeat' first | with_reducible assumption | with_reducible apply keeps_inc | with_reducible apply keeps_raiseCounted

theorem keeps_ltForget {s0 s : State} {h} (hk : Keeps s0 s) : Keeps s0 (State.ltForget s h) := by
  unfold State.ltForget
  repeat' first | with_reducible assumption | (with_reducible apply keeps_mk)

theorem keeps_ltPump {s0 x3 : State} {x1 x2} (hk : Keeps s0 x3) : Keeps s0 (State.ltPump x1 x2 x3) := by
  induction x1 generalizing x3 x2 with
  | zero =>
    unfold State.ltPump
    repeat' first | with_reducible assumption
  | succ _ ih =>
    unfold State.ltPump
    repeat' first
      | with_reducible assumption
      | ((try lift_lets); intro x; refine (?_ : Keeps s0 x → _) ?_; (clear_value x; intro hx); (rotate_left; subst x; rotate_right))
      | ((try lift_lets); intro x; clear_value x) | with_reducible apply ih | with_reducible apply keeps_ltDrop
      | with_reducible apply keeps_bpmReject | with_reducible apply keeps_ltForget | with_reducible apply keeps_fenceFirst
      | with_reducible apply keeps_askPage | with_reducible apply keeps_writeBuffer | with_reducible apply keeps_inc
      | with_reducible apply keeps_poolRelease | with_reducible apply keeps_updD | with_reducible apply keeps_tookEffect | split

theorem keeps_ltTake {s0 s : State} {k x} (h : Keeps s0 s) : Keeps s0 (s.ltTake k x) := by
  unfold State.ltTake
  extract_lets record t rate b s1 d x1 s2 r n
  have h1 : Keeps s0 s1 := keeps_updSession h
  have h2 : Keeps s0 s2 := keeps_mk h1
  clear_value s2 d s1 b
  split
  · exact keeps_ltDrop h1
  · split
    · exact keeps_ltDrop (keeps_inc h1)
    · split
      · exact keeps_ltDrop h2
      · split
        · exact keeps_ltDrop (keeps_inc h2)
        · have h3 := keeps_poolAlloc (p := 2) h2
          split
          · rename_i e; rw [e] at h3; exact keeps_ltDrop h3
          · rename_i e; rw [e] at h3; exact keeps_ltPump (keeps_mk (keeps_poolWrite h3))

theorem keeps_ltOffer {s0 s : State} {x} (hk : Keeps s0 s) : Keeps s0 (State.ltOffer s x) := by
  unfold State.ltOffer
  repeat' first
    | with_reducible assumption | ((try lift_lets); intro x; clear_value x) | with_reducible apply keeps_ltTake
    | with_reducible apply keeps_updSession | split

theorem keeps_ltTick {s0 s : State} (hk : Keeps s0 s) : Keeps s0 (State.ltTick s) := by
  unfold State.ltTick
  repeat' first
    | with_reducible assumption | with_reducible apply keeps_ltPump | (with_reducible apply keeps_foldl; intro _ _ _) | split

theorem keeps_execLtFlushTimeExpiry {s0 s : State} {r} (hk : Keeps s0 s) : Goes s0 (execLtFlushTimeExpiry r s) := by
  unfold execLtFlushTimeExpiry
  repeat' first
    | with_reducible apply goes_next | (show Goes s0 _; split) | with_reducible assumption
    | ((try lift_lets); intro x; clear_value x) | with_reducible apply keeps_tookEffect

theorem keeps_exhausted {s0 s : State} {before} (hk : Keeps s0 s) : Keeps s0 (State.exhausted s before) := by
  unfold State.exhausted
  repeat' first | with_reducible assumption | with_reducible apply keeps_raise | split

theorem keeps_freeSeg {s0 s : State} {id} (hk : Keeps s0 s) : Keeps s0 (State.freeSeg s id) := by
  unfold State.freeSeg
  repeat' first | with_reducible assumption | (with_reducible apply keeps_mk)

theorem keeps_freshChannel {s0 s : State} {c} (hk : Keeps s0 s) : Keeps s0 (State.freshChannel s c) := by
  unfold State.freshChannel
  repeat' first | with_reducible assumption | (with_reducible apply keeps_mk)

theorem keeps_takeSeg {s0 s : State} {c} (hk : Keeps s0 s) : Keeps s0 (State.takeSeg s c).1 := by
  unfold State.takeSeg
  repeat' first
    | with_reducible assumption | ((try lift_lets); intro x; clear_value x) | split | (with_reducible apply keeps_mk)

theorem keeps_settle {s0 s : State} {q ended} (hk : Keeps s0 s) : Keeps s0 (State.settle s q ended) := by
  unfold State.settle
  repeat' first
    | with_reducible assumption
    | ((try lift_lets); intro x; refine (?_ : Keeps s0 x → _) ?_; (clear_value x; intro hx); (rotate_left; subst x; rotate_right))
    | ((try lift_lets); intro x; clear_value x) | with_reducible apply keeps_updQueue | with_reducible apply keeps_emptyNodes
    | split

theorem keeps_noteBlocked {s0 s : State} {q} (hk : Keeps s0 s) : Keeps s0 (State.noteBlocked s q) := by
  unfold State.noteBlocked
  repeat' first
    | with_reducible assumption | ((try lift_lets); intro x; clear_value x) | with_reducible apply keeps_updQueue
    | with_reducible apply keeps_add | split

theorem keeps_execSegmentWriteIssue {s0 s : State} {q} (hk : Keeps s0 s) : Goes s0 (execSegmentWriteIssue q s) := by
  unfold execSegmentWriteIssue
  repeat' first
    | with_reducible apply goes_next | (show Goes s0 _; split) | with_reducible assumption
    | ((try lift_lets); intro x; refine (?_ : Keeps s0 x.2.2 → _) ?_; (clear_value x; intro hx); (rotate_left; subst x; rotate_right))
    | ((try lift_lets); intro x; clear_value x) | with_reducible apply keeps_noteBlocked | with_reducible apply keeps_takeSeg
    | with_reducible apply keeps_updQueue | with_reducible apply keeps_exhausted | with_reducible apply keeps_perfEvent

theorem keeps_execSegmentWriteDone {s0 s : State} {q segment} (hk : Keeps s0 s) :
    Goes s0 (execSegmentWriteDone q segment s) := by
  unfold execSegmentWriteDone
  repeat' first
    | with_reducible apply goes_next | (show Goes s0 _; split) | with_reducible assumption | with_reducible apply keeps_updQueue
    | with_reducible apply keeps_inc

theorem keeps_execSegmentReadIssue {s0 s : State} {q} (hk : Keeps s0 s) : Goes s0 (execSegmentReadIssue q s) := by
  unfold execSegmentReadIssue
  repeat' first
    | with_reducible apply goes_next | (show Goes s0 _; split) | with_reducible assumption | with_reducible apply keeps_updQueue
    | with_reducible apply keeps_perfEvent | (with_reducible apply keeps_mk)

theorem keeps_segRead {s0 s : State} {q segment} (hk : Keeps s0 s) : Keeps s0 (State.segRead s q segment) := by
  unfold State.segRead
  repeat' first
    | with_reducible assumption | with_reducible apply keeps_inc | with_reducible apply keeps_updQueue
    | with_reducible apply keeps_settle | with_reducible apply keeps_freeSeg | (with_reducible apply keeps_foldl; intro _ _ _)

theorem keeps_loseWhere {s0 s : State} {bad} (hk : Keeps s0 s) : Keeps s0 (State.loseWhere s bad).1 := by
  unfold State.loseWhere
  repeat' first
    | with_reducible assumption | with_reducible apply keeps_updQueue | with_reducible apply keeps_add
    | with_reducible apply keeps_settle | with_reducible apply keeps_freeSeg | (with_reducible apply keeps_foldl; intro _ _ _)
    | (with_reducible apply keeps_foldl1; intro _ _ _) | split

theorem keeps_loseChannel {s0 s : State} {c} (hk : Keeps s0 s) : Keeps s0 (State.loseChannel s c).1 := by
  unfold State.loseChannel
  repeat' first | with_reducible assumption | with_reducible apply keeps_loseWhere | (with_reducible apply keeps_mk)

theorem keeps_execTrimDone {s0 s : State} {channel} (hk : Keeps s0 s) : Goes s0 (execTrimDone channel s) := by
  unfold execTrimDone
  repeat' first
    | with_reducible apply goes_next | (show Goes s0 _; split) | with_reducible assumption | with_reducible apply keeps_raise
    | (with_reducible apply keeps_mk)

theorem keeps_writeAttr {s0 s : State} {q v} (hk : Keeps s0 s) : Keeps s0 (State.writeAttr s q v).1 := by
  unfold State.writeAttr
  repeat' first | with_reducible assumption | with_reducible apply keeps_updQueue | split

theorem keeps_qbufRecorded {s0 s : State} {f} (hf1 : ∀ t, Keeps s0 t → Keeps s0 (f t).1) (hk : Keeps s0 s) :
    Keeps s0 (qbufRecorded f s).1 := by
  unfold qbufRecorded
  repeat' first | with_reducible assumption | with_reducible apply keeps_wrSt | with_reducible apply hf1 | split

theorem keeps_qbufRead {s0 s : State} (hk : Keeps s0 s) : Keeps s0 (qbufRead s).1 := by
  unfold qbufRead
  repeat' first | with_reducible assumption | ((try lift_lets); intro x; clear_value x) | with_reducible apply keeps_wr | split

theorem keeps_execQbufWrite {s0 s : State} {p arg} (hk : Keeps s0 s) : Goes s0 (execQbufWrite p arg s) := by
  unfold execQbufWrite
  repeat' first
    | with_reducible apply goes_next | with_reducible assumption | (intro _) | with_reducible apply keeps_access
    | with_reducible apply keeps_qbufRecorded | with_reducible apply keeps_noArg | with_reducible apply keeps_writeAttr

theorem keeps_execQbufRead {s0 s : State} {p arg} (hk : Keeps s0 s) : Goes s0 (execQbufRead p arg s) := by
  unfold execQbufRead
  repeat' first
    | with_reducible apply goes_next | with_reducible assumption | (intro _) | with_reducible apply keeps_access
    | with_reducible apply keeps_qbufRecorded | with_reducible apply keeps_noArg | with_reducible apply keeps_qbufRead

theorem keeps_execQbufRingRecords {s0 s : State} {r} (hk : Keeps s0 s) : Goes s0 (execQbufRingRecords r s) := by
  unfold execQbufRingRecords
  repeat' first
    | with_reducible apply goes_next | (show Goes s0 _; split) | with_reducible assumption
    | ((try lift_lets); intro x; clear_value x) | (intro _) | with_reducible apply keeps_recordRing
    | with_reducible apply keeps_writeAttr

theorem keeps_redDecision {s0 s : State} {profile colour avg ect} (hk : Keeps s0 s) :
    Keeps s0 (State.redDecision s profile colour avg ect).1 := by
  unfold State.redDecision
  repeat' first
    | with_reducible assumption | ((try lift_lets); intro x; clear_value x) | split | (with_reducible apply keeps_mk)

theorem keeps_place {s0 s : State} {x} (hk : Keeps s0 s) : Keeps s0 (State.place s x) := by
  unfold State.place
  repeat' first
    | with_reducible assumption | with_reducible apply keeps_updQueue | with_reducible apply keeps_breakGuarantee
    | with_reducible apply keeps_noteBlocked | with_reducible apply keeps_perfCells | split

theorem keeps_refused {s0 s : State} {x cause} (hk : Keeps s0 s) : Keeps s0 (State.refused s x cause) := by
  unfold State.refused
  repeat' first | with_reducible assumption | with_reducible apply keeps_ltOffer | with_reducible apply keeps_perfEvent

theorem keeps_admission {s0 s : State} {egress q hdr frame} (hk : Keeps s0 s) :
    Keeps s0 (State.admission s egress q hdr frame) := by
  unfold State.admission
  repeat' first
    | with_reducible assumption
    | ((try lift_lets); intro x; refine (?_ : Keeps s0 x → _) ?_; (clear_value x; intro hx); (rotate_left; subst x; rotate_right))
    | ((try lift_lets); intro x; refine (?_ : Keeps s0 x.1 → _) ?_; (clear_value x; intro hx); (rotate_left; subst x; rotate_right))
    | ((try lift_lets); intro x; clear_value x) | with_reducible apply keeps_refused | with_reducible apply keeps_inc
    | with_reducible apply keeps_refreshAll | with_reducible apply keeps_updQueue | with_reducible apply keeps_redDecision
    | with_reducible apply keeps_breakGuarantee | with_reducible apply keeps_ltOffer | with_reducible apply keeps_place | split

theorem keeps_bufTick {s0 s : State} (hk : Keeps s0 s) : Keeps s0 (State.bufTick s) := by
  unfold State.bufTick
  repeat' first
    | with_reducible assumption | with_reducible apply keeps_inc | (with_reducible apply keeps_foldl; intro _ _ _) | split

theorem keeps_bufForced {s0 s : State} (hk : Keeps s0 s) : Keeps s0 (State.bufForced s) := by
  unfold State.bufForced
  repeat' first | with_reducible assumption | with_reducible apply keeps_loseWhere

theorem keeps_bufDisable {s0 s : State} (hk : Keeps s0 s) : Keeps s0 (State.bufDisable s) := by
  unfold State.bufDisable
  repeat' first
    | with_reducible assumption | with_reducible apply keeps_freeSeg | with_reducible apply keeps_updQueue
    | with_reducible apply keeps_emptyNodes | (with_reducible apply keeps_foldl; intro _ _ _)

theorem keeps_updSwc {s0 s : State} {f} (hk : Keeps s0 s) : Keeps s0 (State.updSwc s f) := by
  unfold State.updSwc
  repeat' first | with_reducible assumption | (with_reducible apply keeps_mk)

theorem keeps_updStaging {s0 s : State} {i o f} (hk : Keeps s0 s) : Keeps s0 (State.updStaging s i o f) := by
  unfold State.updStaging
  repeat' first | with_reducible assumption | with_reducible apply keeps_updSwc

theorem keeps_setVoq {s0 s : State} {m o l} (hk : Keeps s0 s) : Keeps s0 (State.setVoq s m o l) := by
  unfold State.setVoq
  repeat' first | with_reducible assumption | with_reducible apply keeps_updSwc

theorem keeps_updReseq {s0 s : State} {o i f} (hk : Keeps s0 s) : Keeps s0 (State.updReseq s o i f) := by
  unfold State.updReseq
  repeat' first | with_reducible assumption | with_reducible apply keeps_updSwc

theorem keeps_countReseq {s0 s : State} {o} (hk : Keeps s0 s) : Keeps s0 (State.countReseq s o) := by
  unfold State.countReseq
  repeat' first | with_reducible assumption | with_reducible apply keeps_wr

theorem keeps_closeCell {s0 s : State} {i o} (hk : Keeps s0 s) : Keeps s0 (State.closeCell s i o) := by
  unfold State.closeCell
  repeat' first
    | with_reducible assumption
    | ((try lift_lets); intro x; refine (?_ : Keeps s0 x → _) ?_; (clear_value x; intro hx); (rotate_left; subst x; rotate_right))
    | ((try lift_lets); intro x; clear_value x) | with_reducible apply keeps_updStaging | with_reducible apply keeps_updSwc
    | with_reducible apply keeps_add | split

theorem keeps_packCell {s0 s : State} {i o id tc n p x8} (hk : Keeps s0 s) : Keeps s0 (State.packCell s i o id tc n p x8) := by
  induction x8 generalizing s i o id tc n p with
  | zero =>
    unfold State.packCell
    repeat' first | with_reducible assumption
  | succ _ ih =>
    unfold State.packCell
    repeat' first
      | with_reducible assumption | with_reducible apply ih | with_reducible apply keeps_updStaging
      | with_reducible apply keeps_closeCell | split

theorem keeps_enterCore {s0 s : State} {i p} (hk : Keeps s0 s) : Keeps s0 (State.enterCore s i p) := by
  unfold State.enterCore
  repeat' first
    | with_reducible assumption | with_reducible apply keeps_inc | with_reducible apply keeps_updSwc
    | with_reducible apply keeps_packCell | split

theorem keeps_execCellCloseTimeout {s0 s : State} {input output} (hk : Keeps s0 s) :
    Goes s0 (execCellCloseTimeout input output s) := by
  unfold execCellCloseTimeout
  repeat' first | with_reducible apply goes_next | with_reducible assumption | with_reducible apply keeps_closeCell

theorem keeps_middleSends {s0 s : State} {m o} (hk : Keeps s0 s) : Keeps s0 (State.middleSends s m o) := by
  unfold State.middleSends
  repeat' first
    | with_reducible assumption | with_reducible apply keeps_countReseq | with_reducible apply keeps_updReseq
    | with_reducible apply keeps_setVoq | split

theorem keeps_inputSends {s0 s : State} {i m} (hk : Keeps s0 s) : Keeps s0 (State.inputSends s i m) := by
  unfold State.inputSends
  repeat' first
    | with_reducible assumption | with_reducible apply keeps_updStaging | with_reducible apply keeps_setVoq
    | with_reducible apply keeps_perfEvent | with_reducible apply keeps_inc | split

theorem keeps_execCoreCellSend {s0 s : State} {input} (hk : Keeps s0 s) : Goes s0 (execCoreCellSend input s) := by
  unfold execCoreCellSend
  repeat' first
    | with_reducible apply goes_next | (show Goes s0 _; split) | with_reducible assumption
    | ((try lift_lets); intro x; clear_value x) | with_reducible apply keeps_middleSends | with_reducible apply keeps_inputSends

theorem keeps_packetsOf {s0 s : State} {c} (hk : Keeps s0 s) : Keeps s0 (State.packetsOf s c).1 := by
  unfold State.packetsOf
  repeat' first | with_reducible assumption | with_reducible apply keeps_updSwc

theorem keeps_loseCore {s0 s : State} {l} (hk : Keeps s0 s) : Keeps s0 (State.loseCore s l) := by
  unfold State.loseCore
  repeat' first | with_reducible assumption | with_reducible apply keeps_add | with_reducible apply keeps_updSwc

theorem keeps_execReseqTimeout {s0 s : State} {output input} (hk : Keeps s0 s) : Goes s0 (execReseqTimeout output input s) := by
  unfold execReseqTimeout
  repeat' first
    | with_reducible apply goes_next | (show Goes s0 _; split) | with_reducible assumption
    | ((try lift_lets); intro x; clear_value x) | with_reducible apply keeps_loseCore | with_reducible apply keeps_setVoq
    | with_reducible apply keeps_updReseq | with_reducible apply keeps_inc | with_reducible apply keeps_raise | split

theorem keeps_admitHead {s0 s : State} {o} (hk : Keeps s0 s) : Keeps s0 (State.admitHead s o) := by
  unfold State.admitHead
  repeat' first
    | with_reducible assumption | with_reducible apply keeps_updSwc | with_reducible apply keeps_packetsOf
    | with_reducible apply keeps_admission | (with_reducible apply keeps_foldl; intro _ _ _) | split

theorem keeps_roundBegins {s0 s : State} (hk : Keeps s0 s) : Keeps s0 (State.roundBegins s) := by
  unfold State.roundBegins
  repeat' first
    | with_reducible assumption | with_reducible apply keeps_inc | with_reducible apply keeps_updSwc
    | (with_reducible apply keeps_foldl; intro _ _ _) | split

theorem keeps_roundServes {s0 s : State} (hk : Keeps s0 s) : Keeps s0 (State.roundServes s) := by
  unfold State.roundServes
  repeat' first | with_reducible assumption | with_reducible apply keeps_updSwc

theorem keeps_coreTick {s0 s : State} (hk : Keeps s0 s) : Keeps s0 (State.coreTick s) := by
  unfold State.coreTick
  repeat' first
    | with_reducible assumption | with_reducible apply keeps_roundServes | with_reducible apply keeps_roundBegins
    | with_reducible apply keeps_admitHead | (with_reducible apply keeps_foldl; intro _ _ _) | split

theorem keeps_swcForced {s0 s : State} (hk : Keeps s0 s) : Keeps s0 (State.swcForced s) := by
  unfold State.swcForced
  repeat' first
    | with_reducible assumption | with_reducible apply keeps_loseCore | with_reducible apply keeps_updSwc
    | with_reducible apply keeps_countReseq | (with_reducible apply keeps_foldl; intro _ _ _)

theorem keeps_swcUp {s0 s : State} (hk : Keeps s0 s) : Keeps s0 (State.swcUp s) := by
  unfold State.swcUp
  repeat' first | with_reducible assumption | with_reducible apply keeps_updSwc

theorem keeps_swcDisable {s0 s : State} (hk : Keeps s0 s) : Keeps s0 (State.swcDisable s) := by
  unfold State.swcDisable
  repeat' first | with_reducible assumption | with_reducible apply keeps_updSwc

end Sys2Proof.Machine
end

