-- ==== Sys2Proof/Laws/KeepsTraffic.lean ====
section
/-!
SUPPORT. Every operation of schedulers, policers and the fabric interface keeps what Keeps says, one lemma each.
-/

namespace Sys2Proof.Machine

theorem keeps_pick {s0 s : State} {k r} (h : Keeps s0 s) (hr : s.pick k = some r) : Keeps s0 r.2 := by
  unfold State.pick at hr
  dsimp only at hr
  split at hr
  · cases hr
  · split at hr
    · cases hr; exact h
    · cases hr; exact keeps_updNode (keeps_updNode h)

theorem keeps_descend {s0 s : State} {fuel k r} (h : Keeps s0 s) (hr : State.descend fuel s k = some r) : Keeps s0 r.2 := by
  induction fuel generalizing s k r with
  | zero => cases hr
  | succ fuel ih =>
    unfold State.descend at hr
    split at hr
    · cases hr
    · rename_i hp
      split at hr
      · cases hr; exact keeps_pick h hp
      · simp only [Option.map_eq_some_iff] at hr
        obtain ⟨q, hq, rfl⟩ := hr
        have hp' := keeps_pick h hp
        exact (ih (r := q) hp' hq : Keeps s0 q.2)

theorem keeps_debit {s0 s : State} {len k} (hk : Keeps s0 s) : Keeps s0 (State.debit s len k) := by
  unfold State.debit
  repeat' first | with_reducible assumption | with_reducible apply keeps_updNode

theorem keeps_takeSeqEg {s0 s : State} {p} (h : Keeps s0 s) : Keeps s0 (s.takeSeqEg p).2.2 := by
  unfold State.takeSeqEg
  with_reducible exact keeps_upk h

theorem keeps_toEgress {s0 s : State} {n sub p} (h : Keeps s0 s) : Keeps s0 (s.toEgress n sub p) := by
  unfold State.toEgress
  split
  · exact h
  · extract_lets r s1 len s2 d
    have h2 : Keeps s0 s2 := keeps_upk (keeps_takeSeqEg h)
    clear_value s2 d
    split
    · exact keeps_upk h2
    · exact keeps_giveUp (keeps_leavePort (keeps_inc h2))

theorem keeps_dequeue {s0 s : State} {q} (hk : Keeps s0 s) : Keeps s0 (State.dequeue s q) := by
  unfold State.dequeue
  repeat' first
    | with_reducible assumption | with_reducible apply keeps_updQueue | with_reducible apply keeps_settle
    | with_reducible apply keeps_perfCells | split

theorem keeps_bufEcc {s0 s : State} {q cells turn} (hk : Keeps s0 s) : Keeps s0 (State.bufEcc s q cells turn) := by
  unfold State.bufEcc
  repeat' first
    | with_reducible assumption | with_reducible apply keeps_add | with_reducible apply keeps_open_
    | with_reducible apply keeps_inc | with_reducible apply keeps_raise | split

theorem keeps_refreshNodes {s0 s : State} (hk : Keeps s0 s) : Keeps s0 (State.refreshNodes s) := by
  unfold State.refreshNodes
  repeat' first | with_reducible assumption | with_reducible apply keeps_refreshAll

theorem keeps_serve {s0 s : State} {turn} (h : Keeps s0 s) : Keeps s0 (s.serve turn) := by
  unfold State.serve
  extract_lets k s1
  have h1 : Keeps s0 s1 := keeps_refreshNodes h
  clear_value s1
  split
  · exact h1
  · rename_i path t e
    have ht := keeps_descend h1 e
    dsimp only at ht
    clear e
    extract_lets q
    split
    · exact h1
    · extract_lets t1 t2 t3
      have h3 : Keeps s0 t3 := keeps_bufEcc
        (keeps_dequeue (keeps_perfEvent (keeps_add (keeps_inc (keeps_foldl (fun _ _ h => keeps_debit h) ht)))))
      clear_value t3
      split
      · exact h3
      · split
        · exact keeps_enterCore h3
        · exact keeps_toEgress h3

theorem keeps_execSchedulerPick {s0 s : State} {turn} (hk : Keeps s0 s) : Goes s0 (execSchedulerPick turn s) := by
  unfold execSchedulerPick
  repeat' first
    | with_reducible apply goes_next | (show Goes s0 _; split) | with_reducible assumption | with_reducible apply keeps_serve

theorem keeps_execFairWindowExpiry {s0 s : State} {q} (hk : Keeps s0 s) : Goes s0 (execFairWindowExpiry q s) := by
  unfold execFairWindowExpiry
  repeat' first
    | with_reducible apply goes_next | (show Goes s0 _; split) | with_reducible assumption
    | ((try lift_lets); intro x; refine (?_ : Keeps s0 x → _) ?_; (clear_value x; intro hx); (rotate_left; subst x; rotate_right))
    | with_reducible apply keeps_refreshNodes | with_reducible apply keeps_breakGuarantee

theorem keeps_schedTick {s0 s : State} (hk : Keeps s0 s) : Keeps s0 (State.schedTick s) := by
  unfold State.schedTick
  repeat' first
    | with_reducible assumption
    | ((try lift_lets); intro x; refine (?_ : Keeps s0 x → _) ?_; (clear_value x; intro hx); (rotate_left; subst x; rotate_right))
    | ((try lift_lets); intro x; clear_value x) | with_reducible apply keeps_inc
    | (with_reducible apply keeps_foldl; intro _ _ _) | split

theorem keeps_nodeWrite {s0 s : State} {level n v} (hk : Keeps s0 s) : Keeps s0 (State.nodeWrite s level n v).1 := by
  unfold State.nodeWrite
  repeat' first
    | with_reducible assumption | (intro _) | with_reducible apply keeps_refreshNodes | with_reducible apply keeps_refreshAll
    | with_reducible apply keeps_updNode | with_reducible apply keeps_updQueue | with_reducible apply keeps_emptyNodes | split

theorem keeps_nodeCmd {s0 s : State} {arg f} (hf1 : ∀ x0 t, Keeps s0 t → Keeps s0 (f x0 t).1) (hk : Keeps s0 s) :
    Keeps s0 (nodeCmd arg f s).1 := by
  unfold nodeCmd
  repeat' first | with_reducible assumption | with_reducible apply keeps_wrSt | with_reducible apply hf1 | split

theorem keeps_nodeRead {s0 s : State} {level} (hk : Keeps s0 s) : Keeps s0 (nodeRead level s).1 := by
  unfold nodeRead
  repeat' first
    | with_reducible assumption
    | ((try lift_lets); intro x; refine (?_ : Keeps s0 x → _) ?_; (clear_value x; intro hx); (rotate_left; subst x; rotate_right))
    | ((try lift_lets); intro x; clear_value x) | with_reducible apply keeps_refreshNodes | with_reducible apply keeps_wr
    | with_reducible apply keeps_wrS | split

theorem keeps_execNodeWrite {s0 s : State} {p arg} (hk : Keeps s0 s) : Goes s0 (execNodeWrite p arg s) := by
  unfold execNodeWrite
  repeat' first
    | with_reducible apply goes_next | with_reducible assumption | (intro _) | with_reducible apply keeps_access
    | with_reducible apply keeps_nodeCmd | with_reducible apply keeps_nodeWrite

theorem keeps_execNodeRead {s0 s : State} {p arg} (hk : Keeps s0 s) : Goes s0 (execNodeRead p arg s) := by
  unfold execNodeRead
  repeat' first
    | with_reducible apply goes_next | with_reducible assumption | (intro _) | with_reducible apply keeps_access
    | with_reducible apply keeps_nodeCmd | with_reducible apply keeps_nodeRead

theorem keeps_execNodeRingRecords {s0 s : State} {r} (hk : Keeps s0 s) : Goes s0 (execNodeRingRecords r s) := by
  unfold execNodeRingRecords
  repeat' first
    | with_reducible apply goes_next | with_reducible assumption | ((try lift_lets); intro x; clear_value x) | (intro _)
    | with_reducible apply keeps_recordRing | with_reducible apply keeps_nodeWrite | split

theorem keeps_clearFlags {s0 s : State} {m} (hk : Keeps s0 s) : Keeps s0 (State.clearFlags s m) := by
  unfold State.clearFlags
  repeat' first
    | with_reducible assumption
    | ((try lift_lets); intro x; refine (?_ : Keeps s0 x → _) ?_; (clear_value x; intro hx); (rotate_left; subst x; rotate_right))
    | ((try lift_lets); intro x; clear_value x) | with_reducible apply keeps_wr | with_reducible apply keeps_updQueue | split

theorem keeps_shapeCmd {s0 s : State} {arg f} (hf1 : ∀ x0 t, Keeps s0 t → Keeps s0 (f x0 t).1) (hk : Keeps s0 s) :
    Keeps s0 (shapeCmd arg f s).1 := by
  unfold shapeCmd
  repeat' first | with_reducible assumption | with_reducible apply keeps_wrSt | with_reducible apply hf1 | split

theorem keeps_shapeWrite {s0 s : State} {n} (hk : Keeps s0 s) : Keeps s0 (shapeWrite n s).1 := by
  unfold shapeWrite
  repeat' first
    | with_reducible assumption
    | ((try lift_lets); intro x; refine (?_ : Keeps s0 x → _) ?_; (clear_value x; intro hx); (rotate_left; subst x; rotate_right))
    | ((try lift_lets); intro x; clear_value x) | with_reducible apply keeps_refreshNodes | split
    | (with_reducible apply keeps_mk)

theorem keeps_shapeRead {s0 s : State} {n} (hk : Keeps s0 s) : Keeps s0 (shapeRead n s).1 := by
  unfold shapeRead
  repeat' first | with_reducible assumption | with_reducible apply keeps_wr | with_reducible apply keeps_wrS

theorem keeps_execShapeWrite {s0 s : State} {p arg} (hk : Keeps s0 s) : Goes s0 (execShapeWrite p arg s) := by
  unfold execShapeWrite
  repeat' first
    | with_reducible apply goes_next | with_reducible assumption
    | ((try lift_lets); intro x; refine (?_ : Keeps s0 x → _) ?_; (clear_value x; intro hx); (rotate_left; subst x; rotate_right))
    | (intro _) | with_reducible apply keeps_access | with_reducible apply keeps_shapeCmd
    | with_reducible apply keeps_shapeWrite

theorem keeps_execShapeRead {s0 s : State} {p arg} (hk : Keeps s0 s) : Goes s0 (execShapeRead p arg s) := by
  unfold execShapeRead
  repeat' first
    | with_reducible apply goes_next | with_reducible assumption | (intro _) | with_reducible apply keeps_access
    | with_reducible apply keeps_shapeCmd | with_reducible apply keeps_shapeRead

theorem keeps_schedUp {s0 s : State} (hk : Keeps s0 s) : Keeps s0 (State.schedUp s) := by
  unfold State.schedUp
  repeat' first
    | with_reducible assumption | with_reducible apply keeps_refreshNodes | with_reducible apply keeps_updQueue
    | (with_reducible apply keeps_foldl; intro _ _ _) | (with_reducible apply keeps_mk)

theorem keeps_schedDisable {s0 s : State} (hk : Keeps s0 s) : Keeps s0 (State.schedDisable s) := by
  unfold State.schedDisable
  repeat' first
    | with_reducible assumption | with_reducible apply keeps_updQueue | (with_reducible apply keeps_foldl; intro _ _ _)
    | (with_reducible apply keeps_mk)

theorem keeps_setPolicer {s0 s : State} {n v} (hk : Keeps s0 s) : Keeps s0 (State.setPolicer s n v) := by
  unfold State.setPolicer
  repeat' first | with_reducible assumption | (with_reducible apply keeps_mk)

theorem keeps_polHalf {s0 s : State} {n ecc part} (hk : Keeps s0 s) : Keeps s0 (State.polHalf s n ecc part) := by
  unfold State.polHalf
  repeat' first
    | with_reducible assumption
    | ((try lift_lets); intro x; refine (?_ : Keeps s0 x → _) ?_; (clear_value x; intro hx); (rotate_left; subst x; rotate_right))
    | ((try lift_lets); intro x; refine (?_ : Keeps s0 x.2 → _) ?_; (clear_value x; intro hx); (rotate_left; subst x; rotate_right))
    | ((try lift_lets); intro x; clear_value x) | with_reducible apply keeps_qdrEcc | with_reducible apply keeps_setPolicer
    | with_reducible apply keeps_open_ | split

theorem keeps_polEcc {s0 s : State} {n ecc part} (hk : Keeps s0 s) : Keeps s0 (State.polEcc s n ecc part) := by
  unfold State.polEcc
  repeat' first | with_reducible assumption | with_reducible apply keeps_qdrTouch | with_reducible apply keeps_polHalf | split

theorem keeps_metered {s0 s : State} {n colour tc len ecc part} (hk : Keeps s0 s) :
    Keeps s0 (State.metered s n colour tc len ecc part).1 := by
  unfold State.metered
  repeat' first
    | with_reducible assumption
    | ((try lift_lets); intro x; refine (?_ : Keeps s0 x → _) ?_; (clear_value x; intro hx); (rotate_left; subst x; rotate_right))
    | ((try lift_lets); intro x; clear_value x) | with_reducible apply keeps_inc | with_reducible apply keeps_polEcc
    | with_reducible apply keeps_setPolicer | with_reducible apply keeps_perfEvent | split

theorem keeps_ingress {s0 s : State} {n p ecc part} (hk : Keeps s0 s) : Keeps s0 (State.ingress s n p ecc part) := by
  unfold State.ingress
  repeat' first
    | with_reducible assumption
    | ((try lift_lets); intro x; refine (?_ : Keeps s0 x → _) ?_; (clear_value x; intro hx); (rotate_left; subst x; rotate_right))
    | ((try lift_lets); intro x; refine (?_ : Keeps s0 x.1 → _) ?_; (clear_value x; intro hx); (rotate_left; subst x; rotate_right))
    | with_reducible apply keeps_metered | with_reducible apply keeps_inc | with_reducible apply keeps_admission | split

theorem keeps_execMeter {s0 s : State} {n ecc part} (hk : Keeps s0 s) : Goes s0 (execMeter n ecc part s) := by
  unfold execMeter
  repeat' first
    | with_reducible apply goes_next | (show Goes s0 _; split) | with_reducible assumption | with_reducible apply keeps_ingress
    | with_reducible apply keeps_carried | with_reducible apply keeps_upk

theorem keeps_polAssign {s0 s : State} {n profile} (hk : Keeps s0 s) : Keeps s0 (State.polAssign s n profile).1 := by
  unfold State.polAssign
  repeat' first
    | with_reducible assumption
    | ((try lift_lets); intro x; refine (?_ : Keeps s0 x → _) ?_; (clear_value x; intro hx); (rotate_left; subst x; rotate_right))
    | ((try lift_lets); intro x; refine (?_ : Keeps s0 x.2 → _) ?_; (clear_value x; intro hx); (rotate_left; subst x; rotate_right))
    | ((try lift_lets); intro x; clear_value x) | with_reducible apply keeps_qdrTouch | with_reducible apply keeps_setPolicer
    | with_reducible apply keeps_open_ | split

theorem keeps_polCmd {s0 s : State} {arg f} (hf1 : ∀ x0 t, Keeps s0 t → Keeps s0 (f x0 t).1) (hk : Keeps s0 s) :
    Keeps s0 (polCmd arg f s).1 := by
  unfold polCmd
  repeat' first | with_reducible assumption | with_reducible apply keeps_wrSt | with_reducible apply hf1 | split

theorem keeps_polRead {s0 s : State} {ecc part n} (hk : Keeps s0 s) : Keeps s0 (polRead ecc part n s).1 := by
  unfold polRead
  repeat' first
    | with_reducible assumption
    | ((try lift_lets); intro x; refine (?_ : Keeps s0 x → _) ?_; (clear_value x; intro hx); (rotate_left; subst x; rotate_right))
    | ((try lift_lets); intro x; refine (?_ : Keeps s0 x.2 → _) ?_; (clear_value x; intro hx); (rotate_left; subst x; rotate_right))
    | ((try lift_lets); intro x; clear_value x) | with_reducible apply keeps_polEcc | with_reducible apply keeps_wr
    | with_reducible apply keeps_open_ | split

theorem keeps_execPolWrite {s0 s : State} {p arg} (hk : Keeps s0 s) : Goes s0 (execPolWrite p arg s) := by
  unfold execPolWrite
  repeat' first
    | with_reducible apply goes_next | with_reducible assumption | (intro _) | with_reducible apply keeps_access
    | with_reducible apply keeps_polCmd | with_reducible apply keeps_polAssign

theorem keeps_execPolRead {s0 s : State} {p lookup} (hk : Keeps s0 s) : Goes s0 (execPolRead p lookup s) := by
  unfold execPolRead
  repeat' first
    | with_reducible apply goes_next | with_reducible assumption | (intro _) | with_reducible apply keeps_access
    | with_reducible apply keeps_polCmd | with_reducible apply keeps_polRead

theorem keeps_execPolRingRecords {s0 s : State} {r} (hk : Keeps s0 s) : Goes s0 (execPolRingRecords r s) := by
  unfold execPolRingRecords
  repeat' first
    | with_reducible apply goes_next | with_reducible assumption | ((try lift_lets); intro x; clear_value x) | (intro _)
    | with_reducible apply keeps_recordRing | with_reducible apply keeps_polAssign | split

theorem keeps_pprofCmd {s0 s : State} {arg f} (hf1 : ∀ x0 t, Keeps s0 t → Keeps s0 (f x0 t).1) (hk : Keeps s0 s) :
    Keeps s0 (pprofCmd arg f s).1 := by
  unfold pprofCmd
  repeat' first | with_reducible assumption | with_reducible apply keeps_wrSt | with_reducible apply hf1 | split

theorem keeps_pprofWrite {s0 s : State} {n} (hk : Keeps s0 s) : Keeps s0 (pprofWrite n s).1 := by
  unfold pprofWrite
  repeat' first
    | with_reducible assumption | ((try lift_lets); intro x; clear_value x) | split | (with_reducible apply keeps_mk)

theorem keeps_pprofRead {s0 s : State} {n} (hk : Keeps s0 s) : Keeps s0 (pprofRead n s).1 := by
  unfold pprofRead
  repeat' first | with_reducible assumption | with_reducible apply keeps_wr | with_reducible apply keeps_wrS

theorem keeps_execPprofWrite {s0 s : State} {p arg} (hk : Keeps s0 s) : Goes s0 (execPprofWrite p arg s) := by
  unfold execPprofWrite
  repeat' first
    | with_reducible apply goes_next | with_reducible assumption
    | ((try lift_lets); intro x; refine (?_ : Keeps s0 x → _) ?_; (clear_value x; intro hx); (rotate_left; subst x; rotate_right))
    | (intro _) | with_reducible apply keeps_access | with_reducible apply keeps_pprofCmd
    | with_reducible apply keeps_pprofWrite

theorem keeps_execPprofRead {s0 s : State} {p arg} (hk : Keeps s0 s) : Goes s0 (execPprofRead p arg s) := by
  unfold execPprofRead
  repeat' first
    | with_reducible apply goes_next | with_reducible assumption | (intro _) | with_reducible apply keeps_access
    | with_reducible apply keeps_pprofCmd | with_reducible apply keeps_pprofRead

theorem keeps_polAccess {s0 s : State} {n} (hk : Keeps s0 s) : Keeps s0 (State.polAccess s n) := by
  unfold State.polAccess
  repeat' first | with_reducible assumption | with_reducible apply keeps_perfEvent | with_reducible apply keeps_inc

theorem keeps_polStore {s0 s : State} {n v} (hk : Keeps s0 s) : Keeps s0 (State.polStore s n v) := by
  unfold State.polStore
  repeat' first | with_reducible assumption | with_reducible apply keeps_polAccess | (with_reducible apply keeps_mk)

theorem keeps_execPolicerWalk {s0 s : State} {visit} (hk : Keeps s0 s) : Goes s0 (execPolicerWalk visit s) := by
  unfold execPolicerWalk
  repeat' first
    | with_reducible apply goes_next | (show Goes s0 _; split) | with_reducible assumption
    | ((try lift_lets); intro x; clear_value x) | with_reducible apply keeps_polHalf | with_reducible apply keeps_polAccess
    | with_reducible apply keeps_polStore

theorem keeps_polTick {s0 s : State} (hk : Keeps s0 s) : Keeps s0 (State.polTick s) := by
  unfold State.polTick
  repeat' first
    | with_reducible assumption | with_reducible apply keeps_inc | (with_reducible apply keeps_foldl; intro _ _ _) | split

theorem keeps_polDisable {s0 s : State} (hk : Keeps s0 s) : Keeps s0 (State.polDisable s) := by
  unfold State.polDisable
  repeat' first | with_reducible assumption | (with_reducible apply keeps_mk)

theorem keeps_updFab {s0 s : State} {f} (hk : Keeps s0 s) : Keeps s0 (State.updFab s f) := by
  unfold State.updFab
  repeat' first | with_reducible assumption | (with_reducible apply keeps_mk)

theorem keeps_updLane {s0 s : State} {f g} (hk : Keeps s0 s) : Keeps s0 (State.updLane s f g) := by
  unfold State.updLane
  repeat' first | with_reducible assumption | with_reducible apply keeps_updFab

theorem keeps_followLane {s0 s : State} {f} (hk : Keeps s0 s) : Keeps s0 (State.followLane s f) := by
  unfold State.followLane
  repeat' first
    | with_reducible assumption | ((try lift_lets); intro x; clear_value x) | with_reducible apply keeps_raise
    | with_reducible apply keeps_updLane | split

theorem keeps_followPlane {s0 s : State} {p} (hk : Keeps s0 s) : Keeps s0 (State.followPlane s p) := by
  unfold State.followPlane
  repeat' first
    | with_reducible assumption | with_reducible apply keeps_followLane | (with_reducible apply keeps_foldl; intro _ _ _)

theorem keeps_fabLaneLost {s0 s : State} {f} (hk : Keeps s0 s) : Keeps s0 (State.fabLaneLost s f) := by
  unfold State.fabLaneLost
  repeat' first | with_reducible assumption | with_reducible apply keeps_followLane | with_reducible apply keeps_updLane

theorem keeps_fill {s0 s : State} {n} (hk : Keeps s0 s) : Keeps s0 (State.fill s n).2 := by
  unfold State.fill
  repeat' first | with_reducible assumption | (with_reducible apply keeps_mk)

theorem keeps_updTx {s0 s : State} {g dest f} (hk : Keeps s0 s) : Keeps s0 (State.updTx s g dest f) := by
  unfold State.updTx
  repeat' first | with_reducible assumption | with_reducible apply keeps_updFab

theorem keeps_closeFab {s0 s : State} {g dest cont} (hk : Keeps s0 s) : Keeps s0 (State.closeFab s g dest cont) := by
  unfold State.closeFab
  repeat' first
    | with_reducible assumption
    | ((try lift_lets); intro x; refine (?_ : Keeps s0 x → _) ?_; (clear_value x; intro hx); (rotate_left; subst x; rotate_right))
    | ((try lift_lets); intro x; refine (?_ : Keeps s0 x.2 → _) ?_; (clear_value x; intro hx); (rotate_left; subst x; rotate_right))
    | ((try lift_lets); intro x; clear_value x) | with_reducible apply keeps_fill | with_reducible apply keeps_updTx
    | with_reducible apply keeps_updFab | with_reducible apply keeps_add | split

theorem keeps_packFab {s0 s : State} {g dest tc bytes x6} (hk : Keeps s0 s) :
    Keeps s0 (State.packFab s g dest tc bytes x6) := by
  induction x6 generalizing s g dest tc bytes with
  | zero =>
    unfold State.packFab
    repeat' first | with_reducible assumption
  | succ _ ih =>
    unfold State.packFab
    repeat' first
      | with_reducible assumption | with_reducible apply ih | with_reducible apply keeps_updTx
      | with_reducible apply keeps_closeFab | split

theorem keeps_sendFab {s0 s : State} {g p} (hk : Keeps s0 s) : Keeps s0 (State.sendFab s g p) := by
  unfold State.sendFab
  repeat' first | with_reducible assumption | with_reducible apply keeps_updTx | with_reducible apply keeps_packFab

theorem keeps_fabTake {s0 s : State} {g x3} (hk : Keeps s0 s) : Keeps s0 (State.fabTake s g x3) := by
  induction x3 generalizing s g with
  | zero =>
    unfold State.fabTake
    repeat' first | with_reducible assumption
  | succ _ ih =>
    unfold State.fabTake
    repeat' first
      | with_reducible assumption | with_reducible apply ih | with_reducible apply keeps_packetsOf
      | with_reducible apply keeps_updSwc | with_reducible apply keeps_sendFab | (with_reducible apply keeps_foldl; intro _ _ _)
      | split

theorem keeps_execFabCellCloseTimeout {s0 s : State} {g dest} (hk : Keeps s0 s) :
    Goes s0 (execFabCellCloseTimeout g dest s) := by
  unfold execFabCellCloseTimeout
  repeat' first
    | with_reducible apply goes_next | (show Goes s0 _; split) | with_reducible assumption | with_reducible apply keeps_closeFab

theorem keeps_execFabCellSend {s0 s : State} {g} (hk : Keeps s0 s) : Goes s0 (execFabCellSend g s) := by
  unfold execFabCellSend
  repeat' first
    | with_reducible apply goes_next | (show Goes s0 _; split) | with_reducible assumption | with_reducible apply keeps_updFab
    | with_reducible apply keeps_fabTake | with_reducible apply keeps_updLane

theorem keeps_emitOn {s0 s : State} {f o} (hk : Keeps s0 s) : Keeps s0 (State.emitOn s f o) := by
  unfold State.emitOn
  repeat' first | with_reducible assumption | with_reducible apply keeps_emit | split

theorem keeps_laneSends {s0 s : State} {f} (hk : Keeps s0 s) : Keeps s0 (State.laneSends s f) := by
  unfold State.laneSends
  repeat' first
    | with_reducible assumption | with_reducible apply keeps_updLane | with_reducible apply keeps_emit
    | with_reducible apply keeps_inc | with_reducible apply keeps_perfEvent | split

theorem keeps_slotTick {s0 s : State} (hk : Keeps s0 s) : Keeps s0 (State.slotTick s) := by
  unfold State.slotTick
  repeat' first
    | with_reducible assumption | with_reducible apply keeps_laneSends | (with_reducible apply keeps_foldl; intro _ _ _) | split

theorem keeps_coreOut {s0 s : State} {o c} (hk : Keeps s0 s) : Keeps s0 (State.coreOut s o c) := by
  unfold State.coreOut
  repeat' first
    | with_reducible assumption | with_reducible apply keeps_updSwc | with_reducible apply keeps_fabTake
    | with_reducible apply keeps_admitHead | split

theorem keeps_execCoreOutputRelease {s0 s : State} {output input} (hk : Keeps s0 s) :
    Goes s0 (execCoreOutputRelease output input s) := by
  unfold execCoreOutputRelease
  repeat' first
    | with_reducible apply goes_next | (show Goes s0 _; split) | with_reducible assumption
    | ((try lift_lets); intro x; clear_value x) | with_reducible apply keeps_countReseq | with_reducible apply keeps_updReseq
    | with_reducible apply keeps_coreOut | with_reducible apply keeps_inc

theorem keeps_updRx {s0 s : State} {g source f} (hk : Keeps s0 s) : Keeps s0 (State.updRx s g source f) := by
  unfold State.updRx
  repeat' first | with_reducible assumption | with_reducible apply keeps_updFab

theorem keeps_followReasm {s0 s : State} {g} (hk : Keeps s0 s) : Keeps s0 (State.followReasm s g) := by
  unfold State.followReasm
  repeat' first
    | with_reducible assumption
    | ((try lift_lets); intro x; refine (?_ : Keeps s0 x → _) ?_; (clear_value x; intro hx); (rotate_left; subst x; rotate_right))
    | ((try lift_lets); intro x; clear_value x) | with_reducible apply keeps_wr | with_reducible apply keeps_updFab | split

theorem keeps_advanceRx {s0 s : State} {g source} (hk : Keeps s0 s) : Keeps s0 (State.advanceRx s g source) := by
  unfold State.advanceRx
  repeat' first | with_reducible assumption | with_reducible apply keeps_add | with_reducible apply keeps_updRx

theorem keeps_loseRx {s0 s : State} {g source} (hk : Keeps s0 s) : Keeps s0 (State.loseRx s g source) := by
  unfold State.loseRx
  repeat' first
    | with_reducible assumption | with_reducible apply keeps_inc | with_reducible apply keeps_add
    | with_reducible apply keeps_updRx | with_reducible apply keeps_updFab | with_reducible apply keeps_advanceRx
    | with_reducible apply keeps_raiseCounted | split

theorem keeps_loseGaps {s0 s : State} {g source x4} (hk : Keeps s0 s) : Keeps s0 (State.loseGaps s g source x4) := by
  induction x4 generalizing s g source with
  | zero =>
    unfold State.loseGaps
    repeat' first | with_reducible assumption
  | succ _ ih =>
    unfold State.loseGaps
    repeat' first | with_reducible assumption | with_reducible apply ih | with_reducible apply keeps_loseRx | split

theorem keeps_resync {s0 s : State} {g source seq} (hk : Keeps s0 s) : Keeps s0 (State.resync s g source seq) := by
  unfold State.resync
  repeat' first
    | with_reducible assumption | with_reducible apply keeps_inc | with_reducible apply keeps_add
    | with_reducible apply keeps_updRx

theorem keeps_holdCell {s0 s : State} {g source c sync} (hk : Keeps s0 s) : Keeps s0 (State.holdCell s g source c sync) := by
  unfold State.holdCell
  repeat' first
    | with_reducible assumption
    | ((try lift_lets); intro x; refine (?_ : Keeps s0 x → _) ?_; (clear_value x; intro hx); (rotate_left; subst x; rotate_right))
    | with_reducible apply keeps_inc | with_reducible apply keeps_resync | with_reducible apply keeps_updRx
    | with_reducible apply keeps_followReasm | with_reducible apply keeps_advanceRx | split

theorem keeps_execCellReceived {s0 s : State} {lane header payload} (hk : Keeps s0 s) :
    Goes s0 (execCellReceived lane header payload s) := by
  unfold execCellReceived
  repeat' first
    | with_reducible apply goes_next | (show Goes s0 _; split) | with_reducible assumption
    | ((try lift_lets); intro x; clear_value x) | with_reducible apply keeps_inc | with_reducible apply keeps_perfEvent
    | with_reducible apply keeps_holdCell

theorem keeps_execFabReseqTimeout {s0 s : State} {g source} (hk : Keeps s0 s) : Goes s0 (execFabReseqTimeout g source s) := by
  unfold execFabReseqTimeout
  repeat' first
    | with_reducible apply goes_next | (show Goes s0 _; split) | with_reducible assumption
    | with_reducible apply keeps_followReasm | with_reducible apply keeps_loseRx

theorem keeps_execReassemblyRelease {s0 s : State} {g source} (hk : Keeps s0 s) :
    Goes s0 (execReassemblyRelease g source s) := by
  unfold execReassemblyRelease
  repeat' first
    | with_reducible apply goes_next | (show Goes s0 _; split) | with_reducible assumption | with_reducible apply keeps_inc
    | with_reducible apply keeps_updRx | with_reducible apply keeps_updFab | with_reducible apply keeps_enterCore
    | with_reducible apply keeps_followReasm

theorem keeps_updPlane {s0 s : State} {p f} (hk : Keeps s0 s) : Keeps s0 (State.updPlane s p f) := by
  unfold State.updPlane
  repeat' first | with_reducible assumption | with_reducible apply keeps_updFab

theorem keeps_setPlane {s0 s : State} {p v} (hk : Keeps s0 s) : Keeps s0 (State.setPlane s p v) := by
  unfold State.setPlane
  repeat' first
    | with_reducible assumption | with_reducible apply keeps_wr | with_reducible apply keeps_protFollow
    | with_reducible apply keeps_followPlane | split

theorem keeps_planeUp {s0 s : State} {p} (hk : Keeps s0 s) : Keeps s0 (State.planeUp s p) := by
  unfold State.planeUp
  repeat' first
    | with_reducible assumption | with_reducible apply keeps_setPlane | with_reducible apply keeps_updPlane
    | with_reducible apply keeps_raise

theorem keeps_planeFail {s0 s : State} {p} (hk : Keeps s0 s) : Keeps s0 (State.planeFail s p) := by
  unfold State.planeFail
  repeat' first
    | with_reducible assumption | with_reducible apply keeps_setPlane | with_reducible apply keeps_wr
    | with_reducible apply keeps_inc | with_reducible apply keeps_updLane | with_reducible apply keeps_updPlane
    | with_reducible apply keeps_add | with_reducible apply keeps_raise | (with_reducible apply keeps_foldl; intro _ _ _)

theorem keeps_followWatch {s0 s : State} {p miss} (hk : Keeps s0 s) : Keeps s0 (State.followWatch s p miss) := by
  unfold State.followWatch
  repeat' first
    | with_reducible assumption
    | ((try lift_lets); intro x; refine (?_ : Keeps s0 x → _) ?_; (clear_value x; intro hx); (rotate_left; subst x; rotate_right))
    | ((try lift_lets); intro x; clear_value x) | with_reducible apply keeps_wr | with_reducible apply keeps_planeFail
    | with_reducible apply keeps_raise | with_reducible apply keeps_setPlane | with_reducible apply keeps_updPlane | split

theorem keeps_goodBeacon {s0 s : State} {p side} (hk : Keeps s0 s) : Keeps s0 (State.goodBeacon s p side) := by
  unfold State.goodBeacon
  repeat' first | with_reducible assumption | with_reducible apply keeps_followWatch | with_reducible apply keeps_updPlane

theorem keeps_execFramingReceived {s0 s : State} {lane framing} (hk : Keeps s0 s) :
    Goes s0 (execFramingReceived lane framing s) := by
  unfold execFramingReceived
  repeat' first
    | with_reducible apply goes_next | (show Goes s0 _; split) | with_reducible assumption
    | ((try lift_lets); intro x; clear_value x) | with_reducible apply keeps_updLane | with_reducible apply keeps_followLane
    | with_reducible apply keeps_goodBeacon | with_reducible apply keeps_inc

theorem keeps_execSidebandBeacon {s0 s : State} {plane frame} (hk : Keeps s0 s) :
    Goes s0 (execSidebandBeacon plane frame s) := by
  unfold execSidebandBeacon
  repeat' first
    | with_reducible apply goes_next | (show Goes s0 _; split) | with_reducible assumption
    | ((try lift_lets); intro x; clear_value x) | with_reducible apply keeps_goodBeacon | with_reducible apply keeps_inc

theorem keeps_execBeaconMiss {s0 s : State} {plane sideband} (hk : Keeps s0 s) : Goes s0 (execBeaconMiss plane sideband s) := by
  unfold execBeaconMiss
  repeat' first
    | with_reducible apply goes_next | (show Goes s0 _; split) | with_reducible assumption
    | ((try lift_lets); intro x; clear_value x) | with_reducible apply keeps_inc | with_reducible apply keeps_updPlane
    | with_reducible apply keeps_followWatch

theorem keeps_execBeaconSend {s0 s : State} (hk : Keeps s0 s) : Goes s0 (execBeaconSend s) := by
  unfold execBeaconSend
  repeat' first
    | with_reducible apply goes_next | (show Goes s0 _; split) | with_reducible assumption | with_reducible apply keeps_updFab
    | with_reducible apply keeps_emitOn | (with_reducible apply keeps_foldl; intro _ _ _)

theorem keeps_execRemovalWindowEnd {s0 s : State} {plane} (hk : Keeps s0 s) : Goes s0 (execRemovalWindowEnd plane s) := by
  unfold execRemovalWindowEnd
  repeat' first
    | with_reducible apply goes_next | (show Goes s0 _; split) | with_reducible assumption | with_reducible apply keeps_updPlane
    | with_reducible apply keeps_loseGaps | with_reducible apply keeps_followReasm
    | (with_reducible apply keeps_foldl; intro _ _ _)

theorem keeps_execWtrExpiry {s0 s : State} {plane} (hk : Keeps s0 s) : Goes s0 (execWtrExpiry plane s) := by
  unfold execWtrExpiry
  repeat' first
    | with_reducible apply goes_next | (show Goes s0 _; split) | with_reducible assumption | with_reducible apply keeps_planeUp

theorem keeps_execJoinComplete {s0 s : State} {plane} (hk : Keeps s0 s) : Goes s0 (execJoinComplete plane s) := by
  unfold execJoinComplete
  repeat' first
    | with_reducible apply goes_next | (show Goes s0 _; split) | with_reducible assumption | with_reducible apply keeps_planeUp

theorem keeps_cmdPlaneAdmin {s0 s : State} {p v} (hk : Keeps s0 s) : Keeps s0 (cmdPlaneAdmin p v s).1 := by
  unfold cmdPlaneAdmin
  repeat' first
    | with_reducible assumption
    | ((try lift_lets); intro x; refine (?_ : Keeps s0 x → _) ?_; (clear_value x; intro hx); (rotate_left; subst x; rotate_right))
    | with_reducible apply keeps_wr | with_reducible apply keeps_setPlane | with_reducible apply keeps_updPlane | split

theorem keeps_execPlaneAdmin {s0 s : State} {p plane value} (hk : Keeps s0 s) : Goes s0 (execPlaneAdmin p plane value s) := by
  unfold execPlaneAdmin
  repeat' first
    | with_reducible apply goes_next | with_reducible assumption | (intro _) | with_reducible apply keeps_access
    | with_reducible apply keeps_cmdPlaneAdmin

theorem keeps_fabTick {s0 s : State} (hk : Keeps s0 s) : Keeps s0 (State.fabTick s) := by
  unfold State.fabTick
  repeat' first
    | with_reducible assumption
    | ((try lift_lets); intro x; refine (?_ : Keeps s0 x → _) ?_; (clear_value x; intro hx); (rotate_left; subst x; rotate_right))
    | with_reducible apply keeps_followReasm | with_reducible apply keeps_inc | (with_reducible apply keeps_foldl; intro _ _ _)
    | split

theorem keeps_fabUp {s0 s : State} (hk : Keeps s0 s) : Keeps s0 (State.fabUp s) := by
  unfold State.fabUp
  repeat' first
    | with_reducible assumption | with_reducible apply keeps_updFab | with_reducible apply keeps_takeLaneCfg
    | with_reducible apply keeps_trainLane | with_reducible apply keeps_setPlane | with_reducible apply keeps_wr
    | with_reducible apply keeps_fabTake | with_reducible apply keeps_followReasm
    | (with_reducible apply keeps_foldl; intro _ _ _) | split | (with_reducible apply keeps_mk)

theorem keeps_fabStopped {s0 s : State} (hk : Keeps s0 s) : Keeps s0 (State.fabStopped s) := by
  unfold State.fabStopped
  repeat' first
    | with_reducible assumption | with_reducible apply keeps_add | with_reducible apply keeps_updFab
    | with_reducible apply keeps_wr | with_reducible apply keeps_setPlane | (with_reducible apply keeps_foldl; intro _ _ _)

theorem keeps_fabForced {s0 s : State} (hk : Keeps s0 s) : Keeps s0 (State.fabForced s) := by
  unfold State.fabForced
  repeat' first
    | with_reducible assumption | with_reducible apply keeps_add | with_reducible apply keeps_updFab
    | (with_reducible apply keeps_foldl; intro _ _ _)

theorem keeps_fabDisable {s0 s : State} (hk : Keeps s0 s) : Keeps s0 (State.fabDisable s) := by
  unfold State.fabDisable
  repeat' first
    | with_reducible assumption | with_reducible apply keeps_fabLaneLost | with_reducible apply keeps_wr
    | with_reducible apply keeps_updFab | (with_reducible apply keeps_foldl; intro _ _ _)

end Sys2Proof.Machine
end

