-- ==== Sys2Proof/Laws/KeepsUnits.lean ====
section
/-!
SUPPORT. Every operation of external memory, performance counters and the Evrad link keeps what Keeps says, one lemma each.
-/

namespace Sys2Proof.Machine

theorem keeps_updHbm {s0 s : State} {f} (hk : Keeps s0 s) : Keeps s0 (State.updHbm s f) := by
  unfold State.updHbm
  repeat' first | with_reducible assumption | (with_reducible apply keeps_mk)

theorem keeps_setCh {s0 s : State} {c v} (hk : Keeps s0 s) : Keeps s0 (State.setCh s c v) := by
  unfold State.setCh
  repeat' first
    | with_reducible assumption
    | ((try lift_lets); intro x; refine (?_ : Keeps s0 x → _) ?_; (clear_value x; intro hx); (rotate_left; subst x; rotate_right))
    | ((try lift_lets); intro x; clear_value x) | with_reducible apply keeps_wr | with_reducible apply keeps_exhausted
    | with_reducible apply keeps_raise | split

theorem keeps_drainEnd {s0 s : State} {c} (hk : Keeps s0 s) : Keeps s0 (State.drainEnd s c) := by
  unfold State.drainEnd
  repeat' first | with_reducible assumption | with_reducible apply keeps_setCh | split

theorem keeps_drainEnds {s0 s : State} (hk : Keeps s0 s) : Keeps s0 (State.drainEnds s) := by
  unfold State.drainEnds
  repeat' first
    | with_reducible assumption | with_reducible apply keeps_drainEnd | (with_reducible apply keeps_foldl; intro _ _ _)

theorem keeps_enterCh {s0 s : State} {c v} (hk : Keeps s0 s) : Keeps s0 (State.enterCh s c v) := by
  unfold State.enterCh
  repeat' first
    | with_reducible assumption | with_reducible apply keeps_setCh | with_reducible apply keeps_updHbm
    | with_reducible apply keeps_drainEnd | split

theorem keeps_freeze {s0 s : State} {c kind e} (hk : Keeps s0 s) : Keeps s0 (State.freeze s c kind e) := by
  unfold State.freeze
  repeat' first
    | with_reducible assumption | with_reducible apply keeps_wr | with_reducible apply keeps_wrB
    | with_reducible apply keeps_setCh | with_reducible apply keeps_updHbm | with_reducible apply keeps_loseChannel
    | with_reducible apply keeps_add | with_reducible apply keeps_inc | with_reducible apply keeps_raise

theorem keeps_corrected {s0 s : State} {c} (hk : Keeps s0 s) : Keeps s0 (State.corrected s c) := by
  unfold State.corrected
  repeat' first | with_reducible assumption | with_reducible apply keeps_inc | with_reducible apply keeps_raiseCounted

theorem keeps_execSegmentReadDone {s0 s : State} {q segment ecc err} (hk : Keeps s0 s) :
    Goes s0 (execSegmentReadDone q segment ecc err s) := by
  unfold execSegmentReadDone
  repeat' first
    | with_reducible apply goes_next | (show Goes s0 _; split) | with_reducible assumption | with_reducible apply keeps_freeze
    | with_reducible apply keeps_drainEnds | with_reducible apply keeps_segRead | with_reducible apply keeps_corrected

theorem keeps_execHbmScrub {s0 s : State} {ch ecc err} (hk : Keeps s0 s) : Goes s0 (execHbmScrub ch ecc err s) := by
  unfold execHbmScrub
  repeat' first
    | with_reducible apply goes_next | (show Goes s0 _; split) | with_reducible assumption | with_reducible apply keeps_updHbm
    | with_reducible apply keeps_perfEvent | with_reducible apply keeps_corrected | with_reducible apply keeps_freeze

theorem keeps_execHbmCommandParity {s0 s : State} {ch err} (hk : Keeps s0 s) : Goes s0 (execHbmCommandParity ch err s) := by
  unfold execHbmCommandParity
  repeat' first
    | with_reducible apply goes_next | (show Goes s0 _; split) | with_reducible assumption | with_reducible apply keeps_freeze

theorem keeps_retrain {s0 s : State} {c goal} (hk : Keeps s0 s) : Keeps s0 (State.retrain s c goal) := by
  unfold State.retrain
  repeat' first
    | with_reducible assumption | with_reducible apply keeps_wr | with_reducible apply keeps_updHbm
    | with_reducible apply keeps_freshChannel | with_reducible apply keeps_setCh

theorem keeps_centre {s0 s : State} {bad lo n} (hk : Keeps s0 s) : Keeps s0 (State.centre s bad lo n).2 := by
  unfold State.centre
  repeat' first | with_reducible assumption | with_reducible apply keeps_oneOf

theorem keeps_centreAll {s0 s : State} {l} (hk : Keeps s0 s) : Keeps s0 (s.centreAll l).2 := by
  induction l generalizing s with
  | nil => exact hk
  | cons x t ih => exact ih (keeps_centre hk)

theorem keeps_execChannelTrained {s0 s : State} {ch swept refined} (hk : Keeps s0 s) :
    Goes s0 (execChannelTrained ch swept refined s) := by
  unfold execChannelTrained
  repeat' first
    | with_reducible apply goes_next | (show Goes s0 _; split) | with_reducible assumption
    | ((try lift_lets); intro x; clear_value x) | with_reducible apply keeps_centreAll | with_reducible apply keeps_wr
    | with_reducible apply keeps_wrB | with_reducible apply keeps_updHbm | with_reducible apply keeps_setCh
    | with_reducible apply keeps_enterCh | split

theorem keeps_execHbmTrack {s0 s : State} {ch tests} (hk : Keeps s0 s) : Goes s0 (execHbmTrack ch tests s) := by
  unfold execHbmTrack
  repeat' first
    | with_reducible apply goes_next | (show Goes s0 _; split) | with_reducible assumption
    | ((try lift_lets); intro x; clear_value x) | with_reducible apply keeps_wrB

theorem keeps_execStackTempSample {s0 s : State} {k temp} (hk : Keeps s0 s) : Goes s0 (execStackTempSample k temp s) := by
  unfold execStackTempSample
  repeat' first
    | with_reducible apply goes_next | (show Goes s0 _; split) | with_reducible assumption
    | ((try lift_lets); intro x; clear_value x) | with_reducible apply keeps_wr | with_reducible apply keeps_wrS
    | with_reducible apply keeps_setCh | with_reducible apply keeps_updHbm | with_reducible apply keeps_raise
    | with_reducible apply keeps_drainEnd | (with_reducible apply keeps_foldl; intro _ _ _) | split

theorem keeps_chCmd {s0 s : State} {c f} (hf1 : ∀ x0 t, Keeps s0 t → Keeps s0 (f x0 t).1) (hk : Keeps s0 s) :
    Keeps s0 (chCmd c f s).1 := by
  unfold chCmd
  repeat' first | with_reducible assumption | with_reducible apply keeps_wrSt | with_reducible apply hf1 | split

theorem keeps_chDrain {s0 s : State} {c st} (hk : Keeps s0 s) : Keeps s0 (chDrain c st s).1 := by
  unfold chDrain
  repeat' first | with_reducible assumption | with_reducible apply keeps_drainEnd | with_reducible apply keeps_setCh | split

theorem keeps_chToService {s0 s : State} {c st} (hk : Keeps s0 s) : Keeps s0 (chToService c st s).1 := by
  unfold chToService
  repeat' first | with_reducible assumption | with_reducible apply keeps_enterCh | with_reducible apply keeps_retrain | split

theorem keeps_chToOut {s0 s : State} {c st} (hk : Keeps s0 s) : Keeps s0 (chToOut c st s).1 := by
  unfold chToOut
  repeat' first | with_reducible assumption | with_reducible apply keeps_retrain | split

theorem keeps_chRetrain {s0 s : State} {c st} (hk : Keeps s0 s) : Keeps s0 (chRetrain c st s).1 := by
  unfold chRetrain
  repeat' first | with_reducible assumption | with_reducible apply keeps_retrain | split

theorem keeps_execChDrain {s0 s : State} {p ch arg} (hk : Keeps s0 s) : Goes s0 (execChDrain p ch arg s) := by
  unfold execChDrain
  repeat' first
    | with_reducible apply goes_next | with_reducible assumption | (intro _) | with_reducible apply keeps_access
    | with_reducible apply keeps_chCmd | with_reducible apply keeps_noArg | with_reducible apply keeps_chDrain

theorem keeps_execChReleaseService {s0 s : State} {p ch arg} (hk : Keeps s0 s) : Goes s0 (execChReleaseService p ch arg s) := by
  unfold execChReleaseService
  repeat' first
    | with_reducible apply goes_next | with_reducible assumption | (intro _) | with_reducible apply keeps_access
    | with_reducible apply keeps_chCmd | with_reducible apply keeps_noArg | with_reducible apply keeps_chToService

theorem keeps_execChReleaseOut {s0 s : State} {p ch arg} (hk : Keeps s0 s) : Goes s0 (execChReleaseOut p ch arg s) := by
  unfold execChReleaseOut
  repeat' first
    | with_reducible apply goes_next | with_reducible assumption | (intro _) | with_reducible apply keeps_access
    | with_reducible apply keeps_chCmd | with_reducible apply keeps_noArg | with_reducible apply keeps_chToOut

theorem keeps_execChRetrain {s0 s : State} {p ch arg} (hk : Keeps s0 s) : Goes s0 (execChRetrain p ch arg s) := by
  unfold execChRetrain
  repeat' first
    | with_reducible apply goes_next | with_reducible assumption | (intro _) | with_reducible apply keeps_access
    | with_reducible apply keeps_chCmd | with_reducible apply keeps_noArg | with_reducible apply keeps_chRetrain

theorem keeps_patRun {s0 s : State} {arg} (hk : Keeps s0 s) : Keeps s0 (patRun arg s).1 := by
  unfold patRun
  repeat' first
    | with_reducible assumption | ((try lift_lets); intro x; clear_value x) | with_reducible apply keeps_wr
    | with_reducible apply keeps_updHbm | split

theorem keeps_execPatternRun {s0 s : State} {p arg} (hk : Keeps s0 s) : Goes s0 (execPatternRun p arg s) := by
  unfold execPatternRun
  repeat' first
    | with_reducible apply goes_next | with_reducible assumption | (intro _) | with_reducible apply keeps_access
    | with_reducible apply keeps_patRun

theorem keeps_execPatternDone {s0 s : State} {errors delays eyes} (hk : Keeps s0 s) :
    Goes s0 (execPatternDone errors delays eyes s) := by
  unfold execPatternDone
  repeat' first
    | with_reducible apply goes_next | (show Goes s0 _; split) | with_reducible assumption
    | ((try lift_lets); intro x; refine (?_ : Keeps s0 x → _) ?_; (clear_value x; intro hx); (rotate_left; subst x; rotate_right))
    | with_reducible apply keeps_wrB | with_reducible apply keeps_updHbm | with_reducible apply keeps_wrSt
    | with_reducible apply keeps_wr

theorem keeps_hbmStarting {s0 s : State} (hk : Keeps s0 s) : Keeps s0 (State.hbmStarting s) := by
  unfold State.hbmStarting
  repeat' first
    | with_reducible assumption | with_reducible apply keeps_retrain | (with_reducible apply keeps_foldl; intro _ _ _) | split

theorem keeps_hbmUp {s0 s : State} (hk : Keeps s0 s) : Keeps s0 (State.hbmUp s) := by
  unfold State.hbmUp
  repeat' first | with_reducible assumption | with_reducible apply keeps_updHbm

theorem keeps_hbmForced {s0 s : State} (hk : Keeps s0 s) : Keeps s0 (State.hbmForced s) := by
  unfold State.hbmForced
  repeat' first | with_reducible assumption | with_reducible apply keeps_drainEnds | with_reducible apply keeps_bufForced

theorem keeps_hbmDisable {s0 s : State} (hk : Keeps s0 s) : Keeps s0 (State.hbmDisable s) := by
  unfold State.hbmDisable
  repeat' first
    | with_reducible assumption | with_reducible apply keeps_setCh | with_reducible apply keeps_loseChannel
    | with_reducible apply keeps_freshChannel | with_reducible apply keeps_wr | with_reducible apply keeps_updHbm
    | (with_reducible apply keeps_foldl; intro _ _ _) | split

theorem keeps_hbmEnable {s0 s : State} (hk : Keeps s0 s) : Keeps s0 (State.hbmEnable s) := by
  unfold State.hbmEnable
  repeat' first | with_reducible assumption | with_reducible apply keeps_wr

theorem keeps_execQdrAddressParity {s0 s : State} {i repeats} (hk : Keeps s0 s) :
    Goes s0 (execQdrAddressParity i repeats s) := by
  unfold execQdrAddressParity
  repeat' first
    | with_reducible apply goes_next | (show Goes s0 _; split) | with_reducible assumption
    | ((try lift_lets); intro x; clear_value x) | with_reducible apply keeps_add | with_reducible apply keeps_raise
    | with_reducible apply keeps_wr

theorem keeps_qdrStarting {s0 s : State} (hk : Keeps s0 s) : Keeps s0 (State.qdrStarting s) := by
  unfold State.qdrStarting
  repeat' first | with_reducible assumption | with_reducible apply keeps_wr | (with_reducible apply keeps_foldl; intro _ _ _)

theorem keeps_qdrFailed {s0 s : State} {i} (hk : Keeps s0 s) : Keeps s0 (State.qdrFailed s i) := by
  unfold State.qdrFailed
  repeat' first | with_reducible assumption | with_reducible apply keeps_wr | (with_reducible apply keeps_foldl; intro _ _ _)

theorem keeps_qdrTick {s0 s : State} (hk : Keeps s0 s) : Keeps s0 (State.qdrTick s) := by
  unfold State.qdrTick
  repeat' first
    | with_reducible assumption
    | ((try lift_lets); intro x; refine (?_ : Keeps s0 x.2 → _) ?_; (clear_value x; intro hx); (rotate_left; subst x; rotate_right))
    | with_reducible apply keeps_openBit | with_reducible apply keeps_wr | (with_reducible apply keeps_foldl; intro _ _ _)
    | split

theorem keeps_fillWords {s0 s : State} {i} (hk : Keeps s0 s) : Keeps s0 (State.fillWords s i) := by
  unfold State.fillWords
  repeat' first | with_reducible assumption | with_reducible apply keeps_perfRange | with_reducible apply keeps_add | split

theorem keeps_qdrUp {s0 s : State} {eyes} (hk : Keeps s0 s) : Keeps s0 (State.qdrUp s eyes) := by
  unfold State.qdrUp
  repeat' first
    | with_reducible assumption | with_reducible apply keeps_wr | with_reducible apply keeps_fillWords
    | (with_reducible apply keeps_foldl; intro _ _ _) | (with_reducible apply keeps_mk)

theorem keeps_writeBack {s0 s : State} (hk : Keeps s0 s) : Keeps s0 (State.writeBack s) := by
  unfold State.writeBack
  repeat' first
    | with_reducible assumption | with_reducible apply keeps_polAccess | with_reducible apply keeps_inc
    | (with_reducible apply keeps_foldl; intro _ _ _) | (with_reducible apply keeps_mk)

theorem keeps_qdrStopped {s0 s : State} (hk : Keeps s0 s) : Keeps s0 (State.qdrStopped s) := by
  unfold State.qdrStopped
  repeat' first | with_reducible assumption | with_reducible apply keeps_wr | (with_reducible apply keeps_foldl; intro _ _ _)

theorem keeps_qdrForced {s0 s : State} (hk : Keeps s0 s) : Keeps s0 (State.qdrForced s).1 := by
  unfold State.qdrForced
  repeat' first
    | with_reducible assumption
    | ((try lift_lets); intro x; refine (?_ : Keeps s0 x.1 → _) ?_; (clear_value x; intro hx); (rotate_left; subst x; rotate_right))
    | with_reducible apply keeps_open_ | with_reducible apply keeps_polAccess | with_reducible apply keeps_inc
    | (with_reducible apply keeps_foldl1; intro _ _ _) | split | (with_reducible apply keeps_mk)

theorem keeps_qdrDisable {s0 s : State} (hk : Keeps s0 s) : Keeps s0 (State.qdrDisable s) := by
  unfold State.qdrDisable
  repeat' first | with_reducible assumption | (with_reducible apply keeps_mk)

theorem keeps_updPerf {s0 s : State} {f} (hk : Keeps s0 s) : Keeps s0 (State.updPerf s f) := by
  unfold State.updPerf
  repeat' first | with_reducible assumption | (with_reducible apply keeps_mk)

theorem keeps_followFreeze {s0 s : State} (hk : Keeps s0 s) : Keeps s0 (State.followFreeze s) := by
  unfold State.followFreeze
  repeat' first | with_reducible assumption | with_reducible apply keeps_wr

theorem keeps_cmdFreeze {s0 s : State} {on} (hk : Keeps s0 s) : Keeps s0 (cmdFreeze on s).1 := by
  unfold cmdFreeze
  repeat' first
    | with_reducible assumption | with_reducible apply keeps_followFreeze | with_reducible apply keeps_updPerf | split

theorem keeps_execFreeze {s0 s : State} {p arg} (hk : Keeps s0 s) : Goes s0 (execFreeze p arg s) := by
  unfold execFreeze
  repeat' first
    | with_reducible apply goes_next | with_reducible assumption | (intro _) | with_reducible apply keeps_access
    | with_reducible apply keeps_noArg | with_reducible apply keeps_cmdFreeze

theorem keeps_execUnfreeze {s0 s : State} {p arg} (hk : Keeps s0 s) : Goes s0 (execUnfreeze p arg s) := by
  unfold execUnfreeze
  repeat' first
    | with_reducible apply goes_next | with_reducible assumption | (intro _) | with_reducible apply keeps_access
    | with_reducible apply keeps_noArg | with_reducible apply keeps_cmdFreeze

theorem keeps_snapCopy {s0 s : State} (hk : Keeps s0 s) : Keeps s0 (State.snapCopy s) := by
  unfold State.snapCopy
  repeat' first
    | with_reducible assumption | with_reducible apply keeps_wr | with_reducible apply keeps_updPerf
    | with_reducible apply keeps_inc | (with_reducible apply keeps_foldl; intro _ _ _)

theorem keeps_snapshot {s0 s : State} (hk : Keeps s0 s) : Keeps s0 (State.snapshot s) := by
  unfold State.snapshot
  repeat' first | with_reducible assumption | with_reducible apply keeps_inc | with_reducible apply keeps_snapCopy | split

theorem keeps_execSnapshot {s0 s : State} {p arg} (hk : Keeps s0 s) : Goes s0 (execSnapshot p arg s) := by
  unfold execSnapshot
  repeat' first
    | with_reducible apply goes_next | with_reducible assumption | (intro _) | with_reducible apply keeps_access
    | with_reducible apply keeps_noArg | with_reducible apply keeps_snapshot

theorem keeps_execSnapPin {s0 s : State} {level} (hk : Keeps s0 s) : Goes s0 (execSnapPin level s) := by
  unfold execSnapPin
  repeat' first
    | with_reducible apply goes_next | with_reducible assumption | with_reducible apply keeps_followFreeze
    | with_reducible apply keeps_updPerf | with_reducible apply keeps_snapshot | split

theorem keeps_statCmd {s0 s : State} {arg f} (hf1 : ∀ x0 t, Keeps s0 t → Keeps s0 (f x0 t)) (hk : Keeps s0 s) :
    Keeps s0 (statCmd arg f s).1 := by
  unfold statCmd
  repeat' first | with_reducible assumption | with_reducible apply keeps_wrSt | with_reducible apply hf1 | split

theorem keeps_statCapture {s0 s : State} {master p clear read} (hk : Keeps s0 s) :
    Keeps s0 (State.statCapture s master p clear read) := by
  unfold State.statCapture
  repeat' first
    | with_reducible assumption | with_reducible apply keeps_pairCheck2 | with_reducible apply keeps_qdrTouch
    | with_reducible apply keeps_pairSram | with_reducible apply keeps_wr | with_reducible apply keeps_setPair | split

theorem keeps_execStatRead {s0 s : State} {p arg read} (hk : Keeps s0 s) : Goes s0 (execStatRead p arg read s) := by
  unfold execStatRead
  repeat' first
    | with_reducible apply goes_next | with_reducible assumption | (intro _) | with_reducible apply keeps_access
    | with_reducible apply keeps_statCmd | with_reducible apply keeps_statCapture

theorem keeps_execStatReadClear {s0 s : State} {p arg read} (hk : Keeps s0 s) : Goes s0 (execStatReadClear p arg read s) := by
  unfold execStatReadClear
  repeat' first
    | with_reducible apply goes_next | with_reducible assumption | (intro _) | with_reducible apply keeps_access
    | with_reducible apply keeps_statCmd | with_reducible apply keeps_statCapture

theorem keeps_statStore {s0 s : State} {master n} (hk : Keeps s0 s) : Keeps s0 (State.statStore master n s) := by
  unfold State.statStore
  repeat' first
    | with_reducible assumption | with_reducible apply keeps_qdrTouch | with_reducible apply keeps_pairSram
    | with_reducible apply keeps_setPair | split

theorem keeps_execStatWrite {s0 s : State} {p arg} (hk : Keeps s0 s) : Goes s0 (execStatWrite p arg s) := by
  unfold execStatWrite
  repeat' first
    | with_reducible apply goes_next | with_reducible assumption | (intro _) | with_reducible apply keeps_access
    | with_reducible apply keeps_statCmd | with_reducible apply keeps_statStore

theorem keeps_execExportPeriod {s0 s : State} {e} (hk : Keeps s0 s) : Goes s0 (execExportPeriod e s) := by
  unfold execExportPeriod
  repeat' first
    | with_reducible apply goes_next | (show Goes s0 _; split) | with_reducible assumption
    | ((try lift_lets); intro x; clear_value x) | with_reducible apply keeps_inc | with_reducible apply keeps_updPerf

theorem keeps_exportRead {s0 s : State} {p clear read} (hk : Keeps s0 s) : Keeps s0 (State.exportRead s p clear read).1 := by
  unfold State.exportRead
  repeat' first
    | with_reducible assumption | with_reducible apply keeps_open_ | with_reducible apply keeps_pairCheck2
    | with_reducible apply keeps_qdrTouch | with_reducible apply keeps_pairSram | with_reducible apply keeps_setPair | split

theorem keeps_exportEnd {s0 s : State} {n} (hk : Keeps s0 s) : Keeps s0 (State.exportEnd s n) := by
  unfold State.exportEnd
  repeat' first | with_reducible assumption | with_reducible apply keeps_tookEffect | split

theorem keeps_execExportPairRead {s0 s : State} {turn} (h : Keeps s0 s) :
    Goes s0 (execExportPairRead turn s) := by
  have h1 : ∀ n f, Keeps s0 (s.fenceFirst n f) := fun _ _ => keeps_fenceFirst h
  unfold execExportPairRead
  generalize turn.set.val = e
  dsimp only
  split
  · split
    · exact ⟨_, rfl, h⟩
    · split
      · exact ⟨_, rfl, h⟩
      · split
        · exact ⟨_, rfl, h1 _ _⟩
        · split
          · exact ⟨_, rfl, keeps_askPage (h1 _ _)⟩
          · refine Exists.intro _ ⟨rfl, ?_⟩
            refine keeps_updPerf ?_
            split
            · exact keeps_exportEnd (keeps_updD (keeps_writeBuffer (keeps_exportRead (h1 _ _))))
            · exact keeps_updD (keeps_writeBuffer (keeps_exportRead (h1 _ _)))
  · exact ⟨_, rfl, h⟩

theorem keeps_perfStopped {s0 s : State} (hk : Keeps s0 s) : Keeps s0 (State.perfStopped s) := by
  unfold State.perfStopped
  repeat' first
    | with_reducible assumption | with_reducible apply keeps_exportEnd | with_reducible apply keeps_updPerf
    | (with_reducible apply keeps_foldl; intro _ _ _) | split

theorem keeps_perfDisable {s0 s : State} (hk : Keeps s0 s) : Keeps s0 (State.perfDisable s) := by
  unfold State.perfDisable
  repeat' first
    | with_reducible assumption | with_reducible apply keeps_wr | with_reducible apply keeps_followFreeze
    | with_reducible apply keeps_updPerf | (with_reducible apply keeps_foldl; intro _ _ _)

theorem keeps_perfTick {s0 s : State} (hk : Keeps s0 s) : Keeps s0 (State.perfTick s) := by
  unfold State.perfTick
  repeat' first
    | with_reducible assumption
    | ((try lift_lets); intro x; refine (?_ : Keeps s0 x → _) ?_; (clear_value x; intro hx); (rotate_left; subst x; rotate_right))
    | with_reducible apply keeps_perfEvent | split

theorem keeps_portReconfigured {s0 s : State} {p} (hk : Keeps s0 s) : Keeps s0 (State.portReconfigured s p) := by
  unfold State.portReconfigured
  repeat' first
    | with_reducible assumption
    | ((try lift_lets); intro x; refine (?_ : Keeps s0 x → _) ?_; (clear_value x; intro hx); (rotate_left; subst x; rotate_right))
    | with_reducible apply keeps_upk | with_reducible apply keeps_setProtMode | split

theorem keeps_pairsChanged {s0 s old : State} (h : Keeps s0 s) : Keeps s0 (State.pairsChanged old s) := by
  unfold State.pairsChanged
  refine keeps_protFollow (keeps_losAll (keeps_otnUnbind (keeps_foldl (fun t a ht => ?_) h)))
  split
  · exact keeps_portReconfigured ht
  · exact ht

theorem keeps_cmdPairApply {s0 s : State} {k} (hk : Keeps s0 s) : Keeps s0 (cmdPairApply k s).1 := by
  unfold cmdPairApply
  repeat' first
    | with_reducible assumption
    | ((try lift_lets); intro x; refine (?_ : Keeps s0 x.1 → _) ?_; (clear_value x; intro hx); (rotate_left; subst x; rotate_right))
    | with_reducible apply keeps_pairApply | with_reducible apply keeps_pairsChanged | split

theorem keeps_execPairApply {s0 s : State} {p k arg} (hk : Keeps s0 s) : Goes s0 (execPairApply p k arg s) := by
  unfold execPairApply
  repeat' first
    | with_reducible apply goes_next | with_reducible assumption | (intro _) | with_reducible apply keeps_access
    | with_reducible apply keeps_noArg | with_reducible apply keeps_cmdPairApply

theorem keeps_cmdAdminUpAll {s0 s : State} {p up} (hk : Keeps s0 s) : Keeps s0 (cmdAdminUpAll p up s).1 := by
  unfold cmdAdminUpAll
  repeat' first | with_reducible assumption | with_reducible apply keeps_cmdAdminUp | with_reducible apply keeps_losAll

theorem keeps_execAdminUp {s0 s : State} {p port up} (hk : Keeps s0 s) : Goes s0 (execAdminUp p port up s) := by
  unfold execAdminUp
  repeat' first
    | with_reducible apply goes_next | with_reducible assumption | (intro _) | with_reducible apply keeps_access
    | with_reducible apply keeps_cmdAdminUpAll

theorem keeps_laneFollow {s0 s : State} {l} (hk : Keeps s0 s) : Keeps s0 (State.laneFollow s l) := by
  unfold State.laneFollow
  repeat' first
    | with_reducible assumption | with_reducible apply keeps_losAll | with_reducible apply keeps_synceAll
    | with_reducible apply keeps_portRefresh | with_reducible apply keeps_followLane | split

theorem keeps_execLaneLocked {s0 s : State} {lane taps snr} (hk : Keeps s0 s) : Goes s0 (execLaneLocked lane taps snr s) := by
  unfold execLaneLocked
  repeat' first
    | with_reducible apply goes_next | (show Goes s0 _; split) | with_reducible assumption
    | with_reducible apply keeps_laneFollow | with_reducible apply keeps_lockLane

theorem keeps_execLaneTrainFailed {s0 s : State} {lane snr} (hk : Keeps s0 s) : Goes s0 (execLaneTrainFailed lane snr s) := by
  unfold execLaneTrainFailed
  repeat' first
    | with_reducible apply goes_next | (show Goes s0 _; split) | with_reducible assumption
    | with_reducible apply keeps_laneFollow | with_reducible apply keeps_failTraining

theorem keeps_execLaneTrainRetry {s0 s : State} {lane} (hk : Keeps s0 s) : Goes s0 (execLaneTrainRetry lane s) := by
  unfold execLaneTrainRetry
  repeat' first
    | with_reducible apply goes_next | (show Goes s0 _; split) | with_reducible assumption
    | with_reducible apply keeps_laneFollow | with_reducible apply keeps_trainLane

theorem keeps_execLaneSignalLoss {s0 s : State} {lane los} (hk : Keeps s0 s) : Goes s0 (execLaneSignalLoss lane los s) := by
  unfold execLaneSignalLoss
  repeat' first
    | with_reducible apply goes_next | (show Goes s0 _; split) | with_reducible assumption
    | ((try lift_lets); intro x; clear_value x) | with_reducible apply keeps_losAll | with_reducible apply keeps_synceAll
    | with_reducible apply keeps_loseLane | with_reducible apply keeps_fabLaneLost | with_reducible apply keeps_trainLane
    | with_reducible apply keeps_inc

theorem keeps_execLinkDownHoldExpiry {s0 s : State} {port} (hk : Keeps s0 s) : Goes s0 (execLinkDownHoldExpiry port s) := by
  unfold execLinkDownHoldExpiry
  repeat' first
    | with_reducible apply goes_next | (show Goes s0 _; split) | with_reducible assumption
    | with_reducible apply keeps_reportDown | (with_reducible apply keeps_mk)

end Sys2Proof.Machine
end

