-- ==== Sys2Proof/Laws/KeepsPower.lean ====
section
/-!
SUPPORT. Every operation of supply, resets, power states and firmware update keeps what Keeps says, one lemma each.
-/

namespace Sys2Proof.Machine

theorem keeps_updPwr {s0 s : State} {f} (hk : Keeps s0 s) : Keeps s0 (State.updPwr s f) := by
  unfold State.updPwr
  repeat' first | with_reducible assumption | (with_reducible apply keeps_mk)

theorem keeps_fault {s0 s : State} {b on} (hk : Keeps s0 s) : Keeps s0 (State.fault s b on) := by
  unfold State.fault
  repeat' first | with_reducible assumption | with_reducible apply keeps_wr

theorem keeps_cause {s0 s : State} {b} (hk : Keeps s0 s) : Keeps s0 (State.cause s b) := by
  unfold State.cause
  repeat' first | with_reducible assumption | with_reducible apply keeps_wr

theorem keeps_fw {s0 s : State} {x} (hx : FloorsHold s.fw x) (h : Keeps s0 s) : Keeps s0 { s with fw := x } := by
  with_reducible exact keeps_mkAll id hx h

theorem keeps_recordWritten {s0 s : State} (h : Keeps s0 s) : Keeps s0 s.recordWritten := keeps_fw (floors_same rfl rfl rfl) h

theorem floors_recovered (x : FwSt) : FloorsHold x x.recovered := by
  unfold FwSt.recovered
  extract_lets c
  split <;> exact floors_same rfl rfl rfl

theorem keeps_resetRecord {s0 s : State} {watchdog} (h : Keeps s0 s) : Keeps s0 (s.resetRecord watchdog) :=
  keeps_fw ((floors_recovered s.fw).trans (floors_same rfl rfl rfl)) h

theorem floors_lostTransfer (s : State) : FloorsHold s.fw s.lostTransfer := by
  unfold State.lostTransfer
  dsimp only
  split
  · exact ⟨Nat.le_refl _, Nat.le_refl _, fun _ h => h⟩
  · exact ⟨Nat.le_refl _, Nat.le_refl _, fun _ h => h⟩

theorem keeps_cleared {s0 s : State} {keep} (h : Keeps s0 s) : Keeps s0 (s.cleared keep) := by
  unfold State.cleared
  with_reducible exact keeps_mkAll (canonical_filter _) (floors_lostTransfer s) h

theorem keeps_clearedCore {s0 s : State} {keep} (hk : Keeps s0 s) : Keeps s0 (State.clearedCore s keep) := by
  unfold State.clearedCore
  repeat' first | with_reducible assumption | with_reducible apply keeps_cleared | (with_reducible apply keeps_mk)

theorem keeps_nextRegulator {s0 s : State} (hk : Keeps s0 s) : Keeps s0 (State.nextRegulator s) := by
  unfold State.nextRegulator
  repeat' first | with_reducible assumption | with_reducible apply keeps_updPwr | split

theorem keeps_wakeAt {s0 s : State} {n} (hk : Keeps s0 s) : Keeps s0 (State.wakeAt s n) := by
  unfold State.wakeAt
  repeat' first
    | with_reducible assumption | with_reducible apply keeps_updPwr | with_reducible apply keeps_nextRegulator
    | with_reducible apply keeps_wr | split

theorem keeps_assertReset {s0 s : State} {l b reason} (h : Keeps s0 s) : Keeps s0 (s.assertReset l b reason) := by
  unfold State.assertReset
  extract_lets aborted from_ s1 x1 s2 x2 s3 s4 s5 s6 s7 p2 s8 x3 s9 first
  refine keeps_wakeAt ?_
  have h2 : Keeps s0 s2 := keeps_fw (floors_same rfl rfl rfl) (keeps_resetRecord h)
  have h3 : Keeps s0 s3 := by
    subst s3
    split
    · exact keeps_mk (keeps_cleared h2)
    · exact keeps_cleared h2
  have h7 : Keeps s0 s7 := by
    subst s7
    split
    · exact keeps_cause (keeps_cause (keeps_wr (keeps_wr (keeps_wr h3))))
    · exact keeps_cause (keeps_wr (keeps_wr (keeps_wr h3)))
  have h8 : Keeps s0 s8 := keeps_updPwr h7
  clear_value s8
  subst s9
  split
  · exact keeps_mkAll id (floors_same rfl rfl rfl) h8
  · exact h8

theorem keeps_requestReset {s0 s : State} {l b reason} (hk : Keeps s0 s) : Keeps s0 (State.requestReset s l b reason) := by
  unfold State.requestReset
  repeat' first | with_reducible assumption | with_reducible apply keeps_cause | with_reducible apply keeps_assertReset | split

theorem keeps_biasSettle {s0 s : State} (hk : Keeps s0 s) : Keeps s0 (State.biasSettle s) := by
  unfold State.biasSettle
  repeat' first | with_reducible assumption | with_reducible apply keeps_wrS

theorem keeps_coreRings {s0 s : State} (hk : Keeps s0 s) : Keeps s0 (State.coreRings s) := by
  unfold State.coreRings
  repeat' first
    | with_reducible assumption | (intro _) | with_reducible apply keeps_eachRing | with_reducible apply keeps_orphanAll
    | with_reducible apply keeps_haltRing | with_reducible apply keeps_payFlight | with_reducible apply keeps_add | split

theorem keeps_assertCore {s0 s : State} (hk : Keeps s0 s) : Keeps s0 (State.assertCore s) := by
  unfold State.assertCore
  repeat' first
    | with_reducible assumption | with_reducible apply keeps_cause | with_reducible apply keeps_clearedCore
    | with_reducible apply keeps_coreRings | with_reducible apply keeps_biasSettle | with_reducible apply keeps_wr
    | with_reducible apply keeps_updPwr | split

theorem keeps_holdDownNow {s0 s : State} (hk : Keeps s0 s) : Keeps s0 (State.holdDownNow s) := by
  unfold State.holdDownNow
  repeat' first | with_reducible assumption | with_reducible apply keeps_updPwr

theorem keeps_powerDownEnd {s0 s : State} (hk : Keeps s0 s) : Keeps s0 (State.powerDownEnd s) := by
  unfold State.powerDownEnd
  repeat' first
    | with_reducible assumption
    | ((try lift_lets); intro x; refine (?_ : Keeps s0 x → _) ?_; (clear_value x; intro hx); (rotate_left; subst x; rotate_right))
    | ((try lift_lets); intro x; clear_value x) | with_reducible apply keeps_wakeAt | with_reducible apply keeps_updPwr
    | with_reducible apply keeps_cause | with_reducible apply keeps_wr | with_reducible apply keeps_raise
    | with_reducible apply keeps_wrSt | split

theorem keeps_powerDownNext {s0 s : State} (hk : Keeps s0 s) : Keeps s0 (State.powerDownNext s) := by
  unfold State.powerDownNext
  repeat' first
    | with_reducible assumption | with_reducible apply keeps_updPwr | with_reducible apply keeps_powerDownEnd | split

theorem keeps_wakeFails {s0 s : State} {code} (hk : Keeps s0 s) : Keeps s0 (State.wakeFails s code) := by
  unfold State.wakeFails
  repeat' first
    | with_reducible assumption | with_reducible apply keeps_powerDownNext | with_reducible apply keeps_updPwr
    | with_reducible apply keeps_fault

theorem keeps_execRailOff {s0 s : State} (hk : Keeps s0 s) : Goes s0 (execRailOff s) := by
  unfold execRailOff
  repeat' first
    | with_reducible apply goes_next | (show Goes s0 _; split) | with_reducible assumption
    | with_reducible apply keeps_powerDownNext

theorem keeps_execWakeStepTimeout {s0 s : State} {ldoOk} (hk : Keeps s0 s) : Goes s0 (execWakeStepTimeout ldoOk s) := by
  unfold execWakeStepTimeout
  repeat' first
    | with_reducible apply goes_next | (show Goes s0 _; split) | with_reducible assumption
    | with_reducible apply keeps_wakeFails | with_reducible apply keeps_updPwr

theorem keeps_returnRegulator {s0 s : State} (hk : Keeps s0 s) : Keeps s0 (State.returnRegulator s) := by
  unfold State.returnRegulator
  repeat' first | with_reducible assumption | with_reducible apply keeps_updPwr | split

theorem keeps_execWakeRetryTimer {s0 s : State} (hk : Keeps s0 s) : Goes s0 (execWakeRetryTimer s) := by
  unfold execWakeRetryTimer
  repeat' first
    | with_reducible apply goes_next | with_reducible assumption | with_reducible apply keeps_updPwr
    | with_reducible apply keeps_returnRegulator | with_reducible apply keeps_wakeAt | split

theorem keeps_threshold {s0 s : State} {b die type sev tj thr} (hk : Keeps s0 s) :
    Keeps s0 (State.threshold s b die type sev tj thr) := by
  unfold State.threshold
  repeat' first
    | with_reducible assumption | with_reducible apply keeps_updPwr | with_reducible apply keeps_raise
    | with_reducible apply keeps_wr | split

theorem keeps_thermalRead {s0 s : State} {tjF tjT meanF meanT} (hk : Keeps s0 s) :
    Keeps s0 (State.thermalRead s tjF tjT meanF meanT) := by
  unfold State.thermalRead
  repeat' first
    | with_reducible assumption | with_reducible apply keeps_wrS | with_reducible apply keeps_threshold
    | with_reducible apply keeps_protFollow

theorem keeps_execThermalSample {s0 s : State} {tjF tjT meanF meanT diodeF diodeT} (hk : Keeps s0 s) :
    Goes s0 (execThermalSample tjF tjT meanF meanT diodeF diodeT s) := by
  unfold execThermalSample
  repeat' first
    | with_reducible apply goes_next | (show Goes s0 _; split) | with_reducible assumption
    | ((try lift_lets); intro x; refine (?_ : Keeps s0 x → _) ?_; (clear_value x; intro hx); (rotate_left; subst x; rotate_right))
    | with_reducible apply keeps_updPwr | with_reducible apply keeps_thermalRead

theorem keeps_supplyRead {s0 s : State} {vinMv powerDw railMv railMa} (hk : Keeps s0 s) :
    Keeps s0 (State.supplyRead s vinMv powerDw railMv railMa) := by
  unfold State.supplyRead
  repeat' first | with_reducible assumption | with_reducible apply keeps_wr | (with_reducible apply keeps_foldl; intro _ _ _)

theorem keeps_execSupplySample {s0 s : State} {vinMv powerDw railMv railMa} (hk : Keeps s0 s) :
    Goes s0 (execSupplySample vinMv powerDw railMv railMa s) := by
  unfold execSupplySample
  repeat' first
    | with_reducible apply goes_next | (show Goes s0 _; split) | with_reducible assumption
    | with_reducible apply keeps_supplyRead

theorem keeps_execBiasUpdate {s0 s : State} (hk : Keeps s0 s) : Goes s0 (execBiasUpdate s) := by
  unfold execBiasUpdate
  repeat' first
    | with_reducible apply goes_next | (show Goes s0 _; split) | with_reducible assumption | with_reducible apply keeps_wrS

theorem keeps_sampleOpen {s0 s : State} (hk : Keeps s0 s) : Keeps s0 (State.sampleOpen s) := by
  unfold State.sampleOpen
  repeat' first
    | with_reducible assumption | with_reducible apply keeps_biasSettle | with_reducible apply keeps_thermalRead
    | with_reducible apply keeps_supplyRead | (with_reducible apply keeps_mk)

theorem keeps_execVinGood {s0 s : State} (hk : Keeps s0 s) : Goes s0 (execVinGood s) := by
  unfold execVinGood
  repeat' first
    | with_reducible apply goes_next | (show Goes s0 _; split) | with_reducible assumption
    | ((try lift_lets); intro x; clear_value x) | with_reducible apply keeps_updPwr | with_reducible apply keeps_wakeAt
    | with_reducible apply keeps_fault

theorem keeps_execAonReady {s0 s : State} (hk : Keeps s0 s) : Goes s0 (execAonReady s) := by
  unfold execAonReady
  repeat' first
    | with_reducible apply goes_next | (show Goes s0 _; split) | with_reducible assumption | with_reducible apply keeps_wakeAt
    | with_reducible apply keeps_updPwr

theorem keeps_execTrimLoadDone {s0 s : State} {mgmtEn} (hk : Keeps s0 s) : Goes s0 (execTrimLoadDone mgmtEn s) := by
  unfold execTrimLoadDone
  repeat' first
    | with_reducible apply goes_next | (show Goes s0 _; split) | with_reducible assumption | with_reducible apply keeps_wakeAt
    | with_reducible apply keeps_updPwr

theorem keeps_execRegPowerGood {s0 s : State} {n} (hk : Keeps s0 s) : Goes s0 (execRegPowerGood n s) := by
  unfold execRegPowerGood
  repeat' first
    | with_reducible apply goes_next | (show Goes s0 _; split) | with_reducible assumption
    | with_reducible apply keeps_nextRegulator | with_reducible apply keeps_returnRegulator

theorem keeps_execRefclkPresent {s0 s : State} (hk : Keeps s0 s) : Goes s0 (execRefclkPresent s) := by
  unfold execRefclkPresent
  repeat' first
    | with_reducible apply goes_next | (show Goes s0 _; split) | with_reducible assumption | with_reducible apply keeps_wakeAt

theorem keeps_execRootLock {s0 s : State} (hk : Keeps s0 s) : Goes s0 (execRootLock s) := by
  unfold execRootLock
  repeat' first
    | with_reducible apply goes_next | (show Goes s0 _; split) | with_reducible assumption | with_reducible apply keeps_wakeAt
    | with_reducible apply keeps_wr

theorem keeps_execDomainStable {s0 s : State} {d} (hk : Keeps s0 s) : Goes s0 (execDomainStable d s) := by
  unfold execDomainStable
  repeat' first
    | with_reducible apply goes_next | (show Goes s0 _; split) | with_reducible assumption | with_reducible apply keeps_wr

theorem keeps_wakeEnd {s0 s : State} (hk : Keeps s0 s) : Keeps s0 (State.wakeEnd s) := by
  unfold State.wakeEnd
  repeat' first
    | with_reducible assumption | with_reducible apply keeps_updPwr | with_reducible apply keeps_wr
    | with_reducible apply keeps_fault | split

theorem keeps_pclkReleased {s0 s : State} (hk : Keeps s0 s) : Keeps s0 (State.pclkReleased s) := by
  unfold State.pclkReleased
  repeat' first | with_reducible assumption | with_reducible apply keeps_sampleOpen | with_reducible apply keeps_setFn

theorem keeps_execDomainRelease {s0 s : State} {d} (hk : Keeps s0 s) : Goes s0 (execDomainRelease d s) := by
  unfold execDomainRelease
  repeat' first
    | with_reducible apply goes_next | (show Goes s0 _; split) | with_reducible assumption
    | ((try lift_lets); intro x; clear_value x) | with_reducible apply keeps_updPwr | with_reducible apply keeps_wakeEnd
    | with_reducible apply keeps_pclkReleased

theorem keeps_execClkStableTimeout {s0 s : State} {d} (hk : Keeps s0 s) : Goes s0 (execClkStableTimeout d s) := by
  unfold execClkStableTimeout
  repeat' first
    | with_reducible apply goes_next | (show Goes s0 _; split) | with_reducible assumption
    | ((try lift_lets); intro x; clear_value x) | with_reducible apply keeps_fault | with_reducible apply keeps_wr
    | with_reducible apply keeps_wakeEnd | with_reducible apply keeps_setFn

theorem keeps_execSupplyFault {s0 s : State} {rail} (hk : Keeps s0 s) : Goes s0 (execSupplyFault rail s) := by
  unfold execSupplyFault
  repeat' first
    | with_reducible apply goes_next | with_reducible assumption
    | ((try lift_lets); intro x; refine (?_ : Keeps s0 x → _) ?_; (clear_value x; intro hx); (rotate_left; subst x; rotate_right))
    | with_reducible apply keeps_updPwr | with_reducible apply keeps_wr | with_reducible apply keeps_cause
    | with_reducible apply keeps_assertReset | with_reducible apply keeps_powerDownNext | split

theorem keeps_execAonLoss {s0 s : State} (h : Keeps s0 s) : Goes s0 (execAonLoss s) := by
  have h1 : Keeps s0 (s.resetRecord false) := keeps_resetRecord h
  unfold execAonLoss
  generalize s.resetRecord false = t at h1
  refine goes_next ?_
  refine keeps_updPwr (keeps_wr (keeps_wr ?_))
  have f := floors_lostTransfer t
  exact ⟨h1.pending, h1.floors.trans ⟨f.mc, f.eng, f.revoked⟩, fun c => canonical_filter _ (h1.objs c)⟩

theorem keeps_execRailExcursionStart {s0 s : State} {rail} (hk : Keeps s0 s) : Goes s0 (execRailExcursionStart rail s) := by
  unfold execRailExcursionStart
  repeat' first
    | with_reducible apply goes_next | (show Goes s0 _; split) | with_reducible assumption
    | ((try lift_lets); intro x; clear_value x) | with_reducible apply keeps_updPwr | with_reducible apply keeps_wr
    | with_reducible apply keeps_inc | split

theorem keeps_execRailExcursionEnd {s0 s : State} {rail extremeMv durationAon} (hk : Keeps s0 s) :
    Goes s0 (execRailExcursionEnd rail extremeMv durationAon s) := by
  unfold execRailExcursionEnd
  repeat' first
    | with_reducible apply goes_next | with_reducible assumption | with_reducible apply keeps_updPwr
    | with_reducible apply keeps_raise | split

theorem keeps_execThermalTrip {s0 s : State} {diodeF diodeT} (hk : Keeps s0 s) : Goes s0 (execThermalTrip diodeF diodeT s) := by
  unfold execThermalTrip
  repeat' first
    | with_reducible apply goes_next | (show Goes s0 _; split) | with_reducible assumption
    | with_reducible apply keeps_assertReset | with_reducible apply keeps_holdDownNow | with_reducible apply keeps_fault
    | with_reducible apply keeps_updPwr

theorem keeps_execPorstN {s0 s : State} (hk : Keeps s0 s) : Goes s0 (execPorstN s) := by
  unfold execPorstN
  repeat' first
    | with_reducible apply goes_next | with_reducible assumption | with_reducible apply keeps_assertReset
    | with_reducible apply keeps_fault | with_reducible apply keeps_cause | with_reducible apply keeps_requestReset | split

theorem keeps_execSrstN {s0 s : State} (hk : Keeps s0 s) : Goes s0 (execSrstN s) := by
  unfold execSrstN
  repeat' first
    | with_reducible apply goes_next | (show Goes s0 _; split) | with_reducible assumption | with_reducible apply keeps_cause
    | with_reducible apply keeps_requestReset

theorem keeps_askReset {s0 s : State} {l} (hk : Keeps s0 s) : Keeps s0 (State.askReset s l) := by
  unfold State.askReset
  repeat' first | with_reducible assumption | (with_reducible apply keeps_mk)

theorem keeps_cmdSysReset {s0 s : State} {arg} (hk : Keeps s0 s) : Keeps s0 (cmdSysReset arg s).1 := by
  unfold cmdSysReset
  repeat' first | with_reducible assumption | with_reducible apply keeps_askReset | split

theorem keeps_cmdCoreReset {s0 s : State} {arg} (hk : Keeps s0 s) : Keeps s0 (cmdCoreReset arg s).1 := by
  unfold cmdCoreReset
  repeat' first | with_reducible assumption | with_reducible apply keeps_askReset | split

theorem keeps_commandedReset {s0 s : State} {l} (hk : Keeps s0 s) : Keeps s0 (State.commandedReset s l) := by
  unfold State.commandedReset
  repeat' first
    | with_reducible assumption | with_reducible apply keeps_assertCore | with_reducible apply keeps_requestReset
    | with_reducible apply keeps_recordWritten | split

theorem keeps_withReset {s0 s : State} {r} (hk : Keeps s0 s) : Keeps s0 (State.withReset s r) := by
  unfold State.withReset
  repeat' first | with_reducible assumption | (with_reducible apply keeps_mk)

theorem keeps_accessReset {s0 s : State} {p k data f} (hf1 : ∀ t, Keeps s0 t → Keeps s0 (f t).1) (hk : Keeps s0 s) :
    Keeps s0 (accessReset p k data f s) := by
  unfold accessReset
  repeat' first
    | with_reducible assumption
    | ((try lift_lets); intro x; refine (?_ : Keeps s0 x.1 → _) ?_; (clear_value x; intro hx); (rotate_left; subst x; rotate_right))
    | with_reducible apply keeps_withReset | with_reducible apply keeps_dropHalves | with_reducible apply keeps_commandedReset
    | with_reducible apply keeps_finish | with_reducible apply keeps_access | with_reducible apply hf1 | split

theorem keeps_execSysReset {s0 s : State} {p arg} (hk : Keeps s0 s) : Goes s0 (execSysReset p arg s) := by
  unfold execSysReset
  repeat' first
    | with_reducible apply goes_next | with_reducible assumption | (intro _) | with_reducible apply keeps_accessReset
    | with_reducible apply keeps_cmdSysReset

theorem keeps_execCoreReset {s0 s : State} {p arg} (hk : Keeps s0 s) : Goes s0 (execCoreReset p arg s) := by
  unfold execCoreReset
  repeat' first
    | with_reducible apply goes_next | with_reducible assumption | (intro _) | with_reducible apply keeps_accessReset
    | with_reducible apply keeps_cmdCoreReset

theorem keeps_execCommandedResetStart {s0 s : State} (hk : Keeps s0 s) : Goes s0 (execCommandedResetStart s) := by
  unfold execCommandedResetStart
  repeat' first
    | with_reducible apply goes_next | (show Goes s0 _; split) | with_reducible assumption
    | with_reducible apply keeps_commandedReset | with_reducible apply keeps_withReset

theorem keeps_execCoreResetRelease {s0 s : State} (hk : Keeps s0 s) : Goes s0 (execCoreResetRelease s) := by
  unfold execCoreResetRelease
  repeat' first
    | with_reducible apply goes_next | with_reducible assumption | with_reducible apply keeps_updPwr
    | with_reducible apply keeps_setFn | split

theorem keeps_execRootClockLost {s0 s : State} (hk : Keeps s0 s) : Goes s0 (execRootClockLost s) := by
  unfold execRootClockLost
  repeat' first
    | with_reducible apply goes_next | (show Goes s0 _; split) | with_reducible assumption | with_reducible apply keeps_cleared
    | with_reducible apply keeps_fault | with_reducible apply keeps_wr | with_reducible apply keeps_updPwr

theorem keeps_execMonExcursion {s0 s : State} {d} (hk : Keeps s0 s) : Goes s0 (execMonExcursion d s) := by
  unfold execMonExcursion
  repeat' first
    | with_reducible apply goes_next | (show Goes s0 _; split) | with_reducible assumption | with_reducible apply keeps_inc
    | with_reducible apply keeps_raise

theorem keeps_execPhyPllLocked {s0 s : State} {n} (hk : Keeps s0 s) : Goes s0 (execPhyPllLocked n s) := by
  unfold execPhyPllLocked
  repeat' first
    | with_reducible apply goes_next | (show Goes s0 _; split) | with_reducible assumption | with_reducible apply keeps_wr

theorem keeps_execPhyPllUnlock {s0 s : State} {n} (hk : Keeps s0 s) : Goes s0 (execPhyPllUnlock n s) := by
  unfold execPhyPllUnlock
  repeat' first
    | with_reducible apply goes_next | (show Goes s0 _; split) | with_reducible assumption
    | ((try lift_lets); intro x; refine (?_ : Keeps s0 x → _) ?_; (clear_value x; intro hx); (rotate_left; subst x; rotate_right))
    | with_reducible apply keeps_wr | with_reducible apply keeps_inc | with_reducible apply keeps_raise

theorem keeps_enterP2 {s0 s : State} (hk : Keeps s0 s) : Keeps s0 (State.enterP2 s) := by
  unfold State.enterP2
  repeat' first
    | with_reducible assumption | with_reducible apply keeps_dropHalves | with_reducible apply keeps_rolesLost
    | with_reducible apply keeps_clearedCore | with_reducible apply keeps_updPwr | with_reducible apply keeps_setFn
    | (with_reducible apply keeps_mk)

theorem keeps_restore {s0 s : State} {l} (hk : Keeps s0 s) : Keeps s0 (State.restore s l) := by
  unfold State.restore
  repeat' first | with_reducible assumption | with_reducible apply keeps_wr | (with_reducible apply keeps_foldl; intro _ _ _)

theorem keeps_leaveP2 {s0 s : State} (hk : Keeps s0 s) : Keeps s0 (State.leaveP2 s) := by
  unfold State.leaveP2
  repeat' first
    | with_reducible assumption | (intro _) | with_reducible apply keeps_setFn | with_reducible apply keeps_rolesLost
    | with_reducible apply keeps_restore | with_reducible apply keeps_eachRing | with_reducible apply keeps_wr
    | with_reducible apply keeps_fault | with_reducible apply keeps_sampleOpen | with_reducible apply keeps_updPwr | split
    | (with_reducible apply keeps_mk) | with_reducible refine keeps_mkAll (canonical_filter _) (FloorsHold.refl _) ?_

theorem keeps_changing {s0 s : State} {source target} (hk : Keeps s0 s) : Keeps s0 (State.changing s source target) := by
  unfold State.changing
  repeat' first | with_reducible assumption | with_reducible apply keeps_updPwr | with_reducible apply keeps_wr

theorem keeps_p2Rings {s0 s : State} (hk : Keeps s0 s) : Keeps s0 (State.p2Rings s) := by
  unfold State.p2Rings
  repeat' first
    | with_reducible assumption | (intro _) | with_reducible apply keeps_eachRing | with_reducible apply keeps_haltRing
    | with_reducible apply keeps_dropFlight | with_reducible apply keeps_add | split

theorem keeps_startReturn {s0 s : State} (hk : Keeps s0 s) : Keeps s0 (State.startReturn s) := by
  unfold State.startReturn
  repeat' first
    | with_reducible assumption | with_reducible apply keeps_returnRegulator | with_reducible apply keeps_updPwr
    | with_reducible apply keeps_changing

theorem keeps_cmdPstate {s0 s : State} {arg} (hk : Keeps s0 s) : Keeps s0 (cmdPstate arg s).1 := by
  unfold cmdPstate
  repeat' first
    | with_reducible assumption | ((try lift_lets); intro x; clear_value x) | with_reducible apply keeps_startReturn
    | with_reducible apply keeps_changing | with_reducible apply keeps_raise | with_reducible apply keeps_p2Rings | split

theorem keeps_execPstateToP0 {s0 s : State} {p arg} (hk : Keeps s0 s) : Goes s0 (execPstateToP0 p arg s) := by
  unfold execPstateToP0
  repeat' first
    | with_reducible apply goes_next | with_reducible assumption | (intro _) | with_reducible apply keeps_access
    | with_reducible apply keeps_cmdPstate

theorem keeps_execPstateToP1 {s0 s : State} {p arg} (hk : Keeps s0 s) : Goes s0 (execPstateToP1 p arg s) := by
  unfold execPstateToP1
  repeat' first
    | with_reducible apply goes_next | with_reducible assumption | (intro _) | with_reducible apply keeps_access
    | with_reducible apply keeps_cmdPstate

theorem keeps_execPstateToP2 {s0 s : State} {p arg} (hk : Keeps s0 s) : Goes s0 (execPstateToP2 p arg s) := by
  unfold execPstateToP2
  repeat' first
    | with_reducible apply goes_next | with_reducible assumption | (intro _) | with_reducible apply keeps_access
    | with_reducible apply keeps_cmdPstate

theorem keeps_settleAt {s0 s : State} {b} (hk : Keeps s0 s) : Keeps s0 (State.settleAt s b) := by
  unfold State.settleAt
  repeat' first
    | with_reducible assumption | with_reducible apply keeps_updPwr | with_reducible apply keeps_wr
    | with_reducible apply keeps_wrSt | with_reducible apply keeps_biasSettle | with_reducible apply keeps_wrS | split
    | (with_reducible apply keeps_mk)

theorem keeps_fabricOff {s0 s : State} (hk : Keeps s0 s) : Keeps s0 (State.fabricOff s) := by
  unfold State.fabricOff
  repeat' first
    | with_reducible assumption | with_reducible apply keeps_fabLaneLost | with_reducible apply keeps_wr
    | (with_reducible apply keeps_foldl; intro _ _ _)

theorem keeps_execPstateTransitionEnd {s0 s : State} (hk : Keeps s0 s) : Goes s0 (execPstateTransitionEnd s) := by
  unfold execPstateTransitionEnd
  repeat' first
    | with_reducible apply goes_next | (show Goes s0 _; split) | with_reducible assumption | (intro _)
    | with_reducible apply keeps_settleAt | with_reducible apply keeps_enterP2 | with_reducible apply keeps_raise
    | with_reducible apply keeps_leaveP2 | with_reducible apply keeps_fabricOff | split

theorem keeps_smbus {s0 s : State} {ack f} (hf1 : ∀ t, Keeps s0 t → Keeps s0 (f t)) (hk : Keeps s0 s) :
    Keeps s0 (State.smbus s ack f) := by
  unfold State.smbus
  repeat' first | with_reducible assumption | with_reducible apply keeps_emit | with_reducible apply hf1 | split

theorem keeps_execSmbusResetCauseWrite {s0 s : State} {word} (hk : Keeps s0 s) : Goes s0 (execSmbusResetCauseWrite word s) := by
  unfold execSmbusResetCauseWrite
  repeat' first
    | with_reducible apply goes_next | (show Goes s0 _; split) | with_reducible assumption | (intro _)
    | with_reducible apply keeps_smbus | with_reducible apply keeps_wr

theorem keeps_wakeRetry {s0 s : State} (hk : Keeps s0 s) : Keeps s0 (State.wakeRetry s) := by
  unfold State.wakeRetry
  repeat' first
    | with_reducible assumption | with_reducible apply keeps_startReturn | with_reducible apply keeps_updPwr
    | with_reducible apply keeps_wakeAt | with_reducible apply keeps_fault | split

theorem keeps_execWakeRetry {s0 s : State} {data pecGood} (hk : Keeps s0 s) : Goes s0 (execWakeRetry data pecGood s) := by
  unfold execWakeRetry
  repeat' first
    | with_reducible apply goes_next | (show Goes s0 _; split) | with_reducible assumption | with_reducible apply keeps_smbus
    | with_reducible apply keeps_wakeRetry

theorem keeps_execSmbusSysReset {s0 s : State} {data pecGood} (hk : Keeps s0 s) :
    Goes s0 (execSmbusSysReset data pecGood s) := by
  unfold execSmbusSysReset
  repeat' first
    | with_reducible apply goes_next | (show Goes s0 _; split) | with_reducible assumption | (intro _)
    | with_reducible apply keeps_smbus | with_reducible apply keeps_requestReset

theorem keeps_execP2Exit {s0 s : State} {data pecGood} (hk : Keeps s0 s) : Goes s0 (execP2Exit data pecGood s) := by
  unfold execP2Exit
  repeat' first
    | with_reducible apply goes_next | (show Goes s0 _; split) | with_reducible assumption | with_reducible apply keeps_smbus
    | with_reducible apply keeps_startReturn

theorem keeps_execSmbusTimeout {s0 s : State} (hk : Keeps s0 s) : Goes s0 (execSmbusTimeout s) := by
  unfold execSmbusTimeout
  repeat' first | with_reducible apply goes_next | with_reducible assumption

theorem keeps_updFw {s0 s : State} {f : FwSt → FwSt} (hf : FloorsHold s.fw (f s.fw)) (h : Keeps s0 s) :
    Keeps s0 (s.updFw f) := by
  unfold State.updFw
  with_reducible exact keeps_mkAll id hf h

theorem keeps_writeBootRecord {s0 s : State} {f : FwSt → FwSt} (hf : FloorsHold s.fw (f s.fw)) (h : Keeps s0 s) :
    Keeps s0 (s.writeBootRecord f) := by
  unfold State.writeBootRecord
  exact keeps_updFw ⟨hf.mc, hf.eng, hf.revoked⟩ h

theorem keeps_cmdFw {s0 s : State} {f} (hf1 : ∀ t, Keeps s0 t → Keeps s0 (f t).1) (hk : Keeps s0 s) :
    Keeps s0 (cmdFw f s).1 := by
  unfold cmdFw
  repeat' first | with_reducible assumption | with_reducible apply keeps_wrSt | with_reducible apply hf1 | split

theorem keeps_fwEnd {s0 s : State} (hk : Keeps s0 s) : Keeps s0 (State.fwEnd s) := by
  unfold State.fwEnd
  repeat' first
    | with_reducible assumption | with_reducible apply keeps_updFw | with_reducible apply keeps_wr
    | exact floors_same rfl rfl rfl

theorem keeps_cmdFwBegin {s0 s : State} {arg} (hk : Keeps s0 s) : Keeps s0 (cmdFwBegin arg s).1 := by
  unfold cmdFwBegin
  repeat' first
    | with_reducible assumption
    | ((try lift_lets); intro x; refine (?_ : Keeps s0 x → _) ?_; (clear_value x; intro hx); (rotate_left; subst x; rotate_right))
    | ((try lift_lets); intro x; clear_value x) | with_reducible apply keeps_wr | with_reducible apply keeps_updFw
    | exact floors_same rfl rfl rfl | split

theorem keeps_execFwBegin {s0 s : State} {p arg} (hk : Keeps s0 s) : Goes s0 (execFwBegin p arg s) := by
  unfold execFwBegin
  repeat' first
    | with_reducible apply goes_next | with_reducible assumption | (intro _) | with_reducible apply keeps_access
    | with_reducible apply keeps_cmdFw | with_reducible apply keeps_cmdFwBegin

theorem keeps_execEraseDone {s0 s : State} (hk : Keeps s0 s) : Goes s0 (execEraseDone s) := by
  unfold execEraseDone
  repeat' first
    | with_reducible apply goes_next | (show Goes s0 _; split) | with_reducible assumption | with_reducible apply keeps_wrSt
    | with_reducible apply keeps_wr

theorem keeps_execEraseTimeout {s0 s : State} (hk : Keeps s0 s) : Goes s0 (execEraseTimeout s) := by
  unfold execEraseTimeout
  repeat' first
    | with_reducible apply goes_next | (show Goes s0 _; split) | with_reducible assumption | with_reducible apply keeps_wrSt
    | with_reducible apply keeps_fwEnd

theorem keeps_writeBlock {s0 s : State} (hk : Keeps s0 s) : Keeps s0 (State.writeBlock s).1 := by
  unfold State.writeBlock
  repeat' first
    | with_reducible assumption | ((try lift_lets); intro x; clear_value x) | with_reducible apply keeps_inc
    | with_reducible apply keeps_updFw | exact floors_same rfl rfl rfl | split

theorem keeps_cmdFwWrite {s0 s : State} (hk : Keeps s0 s) : Keeps s0 (cmdFwWrite s).1 := by
  unfold cmdFwWrite
  repeat' first | with_reducible assumption | with_reducible apply keeps_writeBlock | split

theorem keeps_execFwWrite {s0 s : State} {p arg} (hk : Keeps s0 s) : Goes s0 (execFwWrite p arg s) := by
  unfold execFwWrite
  repeat' first
    | with_reducible apply goes_next | with_reducible assumption | (intro _) | with_reducible apply keeps_access
    | with_reducible apply keeps_cmdFw | with_reducible apply keeps_noArg | with_reducible apply keeps_cmdFwWrite

theorem keeps_execBlockProgrammed {s0 s : State} (hk : Keeps s0 s) : Goes s0 (execBlockProgrammed s) := by
  unfold execBlockProgrammed
  repeat' first
    | with_reducible apply goes_next | (show Goes s0 _; split) | with_reducible assumption | with_reducible apply keeps_updFw
    | with_reducible apply keeps_wrSt | with_reducible apply keeps_inc | exact floors_same rfl rfl rfl

theorem keeps_verifyFails {s0 s : State} {code} (hk : Keeps s0 s) : Keeps s0 (State.verifyFails s code) := by
  unfold State.verifyFails
  repeat' first
    | with_reducible assumption | with_reducible apply keeps_wrSt | with_reducible apply keeps_wr
    | with_reducible apply keeps_raise

theorem keeps_cmdFwVerify {s0 s : State} (hk : Keeps s0 s) : Keeps s0 (cmdFwVerify s).1 := by
  unfold cmdFwVerify
  repeat' first | with_reducible assumption | with_reducible apply keeps_wrSt | with_reducible apply keeps_wr | split

theorem keeps_verifyMissing {s0 s : State} (hk : Keeps s0 s) : Keeps s0 (State.verifyMissing s) := by
  unfold State.verifyMissing
  repeat' first | with_reducible assumption | with_reducible apply keeps_verifyFails | split

theorem keeps_fwVerify {s0 s : State} (hk : Keeps s0 s) : Keeps s0 (fwVerify s).1 := by
  unfold fwVerify
  repeat' first
    | with_reducible assumption
    | ((try lift_lets); intro x; refine (?_ : Keeps s0 x.1 → _) ?_; (clear_value x; intro hx); (rotate_left; subst x; rotate_right))
    | with_reducible apply keeps_cmdFw | with_reducible apply keeps_cmdFwVerify | with_reducible apply keeps_verifyMissing
    | split

theorem keeps_execFwVerify {s0 s : State} {p arg} (hk : Keeps s0 s) : Goes s0 (execFwVerify p arg s) := by
  unfold execFwVerify
  repeat' first
    | with_reducible apply goes_next | with_reducible assumption | (intro _) | with_reducible apply keeps_access
    | with_reducible apply keeps_fwVerify | with_reducible apply keeps_cmdFw | split

theorem keeps_execVerifyDone {s0 s : State} {readBack} (hk : Keeps s0 s) : Goes s0 (execVerifyDone readBack s) := by
  unfold execVerifyDone
  repeat' first
    | with_reducible apply goes_next | (show Goes s0 _; split) | with_reducible assumption
    | ((try lift_lets); intro x; clear_value x) | with_reducible apply keeps_verifyFails | with_reducible apply keeps_updFw
    | with_reducible apply keeps_wrSt | with_reducible apply keeps_wr | with_reducible apply keeps_raise
    | exact floors_same rfl rfl rfl

theorem keeps_activateMc {s0 s : State} (hk : Keeps s0 s) : Keeps s0 (State.activateMc s).1 := by
  unfold State.activateMc
  repeat' first
    | with_reducible assumption | with_reducible apply keeps_askReset | with_reducible apply keeps_writeBootRecord
    | exact floors_same rfl rfl rfl | split

theorem keeps_activateEng {s0 s : State} (hk : Keeps s0 s) : Keeps s0 (State.activateEng s).1 := by
  unfold State.activateEng
  repeat' first
    | with_reducible assumption | ((try lift_lets); intro x; clear_value x) | with_reducible apply keeps_wr
    | with_reducible apply keeps_showBundles | with_reducible apply keeps_upk | split

theorem keeps_cmdFwActivate {s0 s : State} (hk : Keeps s0 s) : Keeps s0 (cmdFwActivate s).1 := by
  unfold cmdFwActivate
  repeat' first
    | with_reducible assumption | with_reducible apply keeps_activateMc | with_reducible apply keeps_activateEng | split

theorem keeps_execFwActivate {s0 s : State} {p arg} (hk : Keeps s0 s) : Goes s0 (execFwActivate p arg s) := by
  unfold execFwActivate
  repeat' first
    | with_reducible apply goes_next | with_reducible assumption | (intro _) | with_reducible apply keeps_accessReset
    | with_reducible apply keeps_cmdFw | with_reducible apply keeps_noArg | with_reducible apply keeps_cmdFwActivate

theorem keeps_confirmTrial {s0 s : State} (hk : Keeps s0 s) : Keeps s0 (State.confirmTrial s) := by
  unfold State.confirmTrial
  repeat' first
    | with_reducible assumption | with_reducible apply keeps_writeBootRecord | with_reducible apply keeps_wr
    | with_reducible apply keeps_raise | exact ⟨Nat.le_max_left _ _, Nat.le_refl _, fun _ h => h⟩

theorem keeps_confirmEng {s0 s : State} (hk : Keeps s0 s) : Keeps s0 (State.confirmEng s) := by
  unfold State.confirmEng
  repeat' first
    | with_reducible assumption | with_reducible apply keeps_fwEnd | with_reducible apply keeps_writeBootRecord
    | with_reducible apply keeps_raise | exact ⟨Nat.le_refl _, Nat.le_max_left _ _, fun _ h => h⟩

theorem keeps_cmdFwConfirm {s0 s : State} (hk : Keeps s0 s) : Keeps s0 (cmdFwConfirm s).1 := by
  unfold cmdFwConfirm
  repeat' first
    | with_reducible assumption | with_reducible apply keeps_confirmTrial | with_reducible apply keeps_confirmEng | split

theorem keeps_execFwConfirm {s0 s : State} {p arg} (hk : Keeps s0 s) : Goes s0 (execFwConfirm p arg s) := by
  unfold execFwConfirm
  repeat' first
    | with_reducible apply goes_next | with_reducible assumption | (intro _) | with_reducible apply keeps_access
    | with_reducible apply keeps_cmdFw | with_reducible apply keeps_noArg | with_reducible apply keeps_cmdFwConfirm

theorem keeps_cmdFwAbort {s0 s : State} (hk : Keeps s0 s) : Keeps s0 (cmdFwAbort s).1 := by
  unfold cmdFwAbort
  repeat' first | with_reducible assumption | with_reducible apply keeps_wrSt | with_reducible apply keeps_fwEnd | split

theorem keeps_fwAbort {s0 s : State} {arg} (hk : Keeps s0 s) : Keeps s0 (fwAbort arg s).1 := by
  unfold fwAbort
  repeat' first | with_reducible assumption | with_reducible apply keeps_cmdFwAbort | with_reducible apply keeps_wrSt | split

theorem keeps_execFwAbort {s0 s : State} {p arg} (hk : Keeps s0 s) : Goes s0 (execFwAbort p arg s) := by
  unfold execFwAbort
  repeat' first
    | with_reducible apply goes_next | with_reducible assumption | (intro _) | with_reducible apply keeps_access
    | with_reducible apply keeps_fwAbort

theorem keeps_cmdFwRevert {s0 s : State} (hk : Keeps s0 s) : Keeps s0 (cmdFwRevert s).1 := by
  unfold cmdFwRevert
  repeat' first
    | with_reducible assumption | with_reducible apply keeps_askReset | with_reducible apply keeps_updFw
    | exact floors_same rfl rfl rfl | split

theorem keeps_execFwRevert {s0 s : State} {p arg} (hk : Keeps s0 s) : Goes s0 (execFwRevert p arg s) := by
  unfold execFwRevert
  repeat' first
    | with_reducible apply goes_next | with_reducible assumption | (intro _) | with_reducible apply keeps_accessReset
    | with_reducible apply keeps_cmdFw | with_reducible apply keeps_noArg | with_reducible apply keeps_cmdFwRevert

theorem keeps_execConfirmWindowExpiry {s0 s : State} (hk : Keeps s0 s) : Goes s0 (execConfirmWindowExpiry s) := by
  unfold execConfirmWindowExpiry
  repeat' first
    | with_reducible apply goes_next | (show Goes s0 _; split) | with_reducible assumption
    | with_reducible apply keeps_requestReset | with_reducible apply keeps_wr

theorem keeps_cmdKeyRevoke {s0 s : State} {arg} (hk : Keeps s0 s) : Keeps s0 (cmdKeyRevoke arg s).1 := by
  unfold cmdKeyRevoke
  repeat' first
    | with_reducible assumption | ((try lift_lets); intro x; clear_value x) | with_reducible apply keeps_updFw
    | exact ⟨Nat.le_refl _, Nat.le_refl _, fun i h => setBit_keeps _ _ i h⟩ | split

theorem keeps_execKeyRevoke {s0 s : State} {p arg} (hk : Keeps s0 s) : Goes s0 (execKeyRevoke p arg s) := by
  unfold execKeyRevoke
  repeat' first
    | with_reducible apply goes_next | with_reducible assumption | (intro _) | with_reducible apply keeps_access
    | with_reducible apply keeps_cmdKeyRevoke

theorem keeps_fwForced {s0 s : State} (hk : Keeps s0 s) : Keeps s0 (State.fwForced s) := by
  unfold State.fwForced
  repeat' first
    | with_reducible assumption | with_reducible apply keeps_updFw | with_reducible apply keeps_wr
    | exact floors_same rfl rfl rfl | split

theorem keeps_fwDisable {s0 s : State} (hk : Keeps s0 s) : Keeps s0 (State.fwDisable s) := by
  unfold State.fwDisable
  repeat' first
    | with_reducible assumption | with_reducible apply keeps_updFw | with_reducible apply keeps_fwEnd
    | exact floors_same rfl rfl rfl | split

end Sys2Proof.Machine
end

