-- ==== Sys2Proof/Laws/KeepsLifecycle.lean ====
section
/-!
SUPPORT. Every operation of the lifecycle of functions and the command objects keeps what Keeps says, one lemma each.
-/

namespace Sys2Proof.Machine

theorem keeps_startChecks {s0 s : State} {f} (hk : Keeps s0 s) : Keeps s0 (State.startChecks s f).1 := by
  unfold State.startChecks
  repeat' first
    | with_reducible assumption
    | ((try lift_lets); intro x; refine (?_ : Keeps s0 x → _) ?_; (clear_value x; intro hx); (rotate_left; subst x; rotate_right))
    | ((try lift_lets); intro x; refine (?_ : Keeps s0 x.1 → _) ?_; (clear_value x; intro hx); (rotate_left; subst x; rotate_right))
    | ((try lift_lets); intro x; clear_value x) | with_reducible apply keeps_updPwr | with_reducible apply keeps_wr
    | with_reducible apply keeps_pairsChanged | with_reducible apply keeps_lineApplyAll
    | with_reducible apply keeps_otnStartCheck | with_reducible apply keeps_hbmStarting | with_reducible apply keeps_qdrStarting
    | split

theorem keeps_fnStart {s0 s : State} {f} (hk : Keeps s0 s) : Keeps s0 (State.fnStart s f).1 := by
  unfold State.fnStart
  repeat' first
    | with_reducible assumption | with_reducible apply keeps_startChecks | with_reducible apply keeps_setFn
    | with_reducible apply keeps_updFn | split

theorem keeps_stopBegins {s0 s : State} {f} (hk : Keeps s0 s) : Keeps s0 (State.stopBegins s f) := by
  unfold State.stopBegins
  repeat' first
    | with_reducible assumption | with_reducible apply keeps_eachRing | with_reducible apply keeps_startNone
    | with_reducible apply keeps_setPps | with_reducible apply keeps_otnStopping | with_reducible apply keeps_fwdStopping
    | with_reducible apply keeps_protFreeze | with_reducible apply keeps_perfStopped | split

theorem keeps_fnStop {s0 s : State} {f} (hk : Keeps s0 s) : Keeps s0 (State.fnStop s f).1 := by
  unfold State.fnStop
  repeat' first
    | with_reducible assumption | with_reducible apply keeps_updFn | with_reducible apply keeps_setFn
    | with_reducible apply keeps_protFollow | with_reducible apply keeps_synceAll | with_reducible apply keeps_stopBegins
    | split

theorem keeps_fnEnable {s0 s : State} {f} (hk : Keeps s0 s) : Keeps s0 (State.fnEnable s f).1 := by
  unfold State.fnEnable
  repeat' first | with_reducible assumption | with_reducible apply keeps_updFn | split

theorem keeps_fnDisable {s0 s : State} {f} (hk : Keeps s0 s) : Keeps s0 (State.fnDisable s f).1 := by
  unfold State.fnDisable
  repeat' first | with_reducible assumption | with_reducible apply keeps_updFn | split

theorem keeps_cmdFn {s0 s : State} {p f cmd} (hk : Keeps s0 s) : Keeps s0 (cmdFn p f cmd s).1 := by
  unfold cmdFn
  repeat' first
    | with_reducible assumption | with_reducible apply keeps_fnEnable | with_reducible apply keeps_fnStart
    | with_reducible apply keeps_fnStop | with_reducible apply keeps_fnDisable | split

theorem keeps_execEnable {s0 s : State} {p f arg} (hk : Keeps s0 s) : Goes s0 (execEnable p f arg s) := by
  unfold execEnable
  repeat' first
    | with_reducible apply goes_next | with_reducible assumption | (intro _) | with_reducible apply keeps_access
    | with_reducible apply keeps_noArg | with_reducible apply keeps_cmdFn

theorem keeps_execStart {s0 s : State} {p f arg} (hk : Keeps s0 s) : Goes s0 (execStart p f arg s) := by
  unfold execStart
  repeat' first
    | with_reducible apply goes_next | with_reducible assumption | (intro _) | with_reducible apply keeps_access
    | with_reducible apply keeps_noArg | with_reducible apply keeps_cmdFn

theorem keeps_execStop {s0 s : State} {p f arg} (hk : Keeps s0 s) : Goes s0 (execStop p f arg s) := by
  unfold execStop
  repeat' first
    | with_reducible apply goes_next | with_reducible assumption | (intro _) | with_reducible apply keeps_access
    | with_reducible apply keeps_noArg | with_reducible apply keeps_cmdFn

theorem keeps_execDisable {s0 s : State} {p f arg} (hk : Keeps s0 s) : Goes s0 (execDisable p f arg s) := by
  unfold execDisable
  repeat' first
    | with_reducible apply goes_next | with_reducible assumption | (intro _) | with_reducible apply keeps_access
    | with_reducible apply keeps_noArg | with_reducible apply keeps_cmdFn

theorem keeps_commandDone {s0 s : State} {f cmd st} (hk : Keeps s0 s) : Keeps s0 (State.commandDone s f cmd st) := by
  unfold State.commandDone
  repeat' first | with_reducible assumption | with_reducible apply keeps_wrSt | with_reducible apply keeps_raise

theorem keeps_execEnableDone {s0 s : State} {f} (hk : Keeps s0 s) : Goes s0 (execEnableDone f s) := by
  unfold execEnableDone
  repeat' first
    | with_reducible apply goes_next | with_reducible assumption | with_reducible apply keeps_setFn
    | with_reducible apply keeps_updFn | with_reducible apply keeps_commandDone | with_reducible apply keeps_hbmEnable | split

theorem keeps_clkFails {s0 s : State} (hk : Keeps s0 s) : Keeps s0 (State.clkFails s) := by
  unfold State.clkFails
  repeat' first | with_reducible assumption | with_reducible apply keeps_updPwr

theorem keeps_startFails {s0 s : State} {f st} (hk : Keeps s0 s) : Keeps s0 (State.startFails s f st) := by
  unfold State.startFails
  repeat' first
    | with_reducible assumption | with_reducible apply keeps_setFn | with_reducible apply keeps_updFn
    | with_reducible apply keeps_commandDone

theorem keeps_startEnds {s0 s : State} {f up} (hf1 : ∀ t, Keeps s0 t → Keeps s0 (up t)) (hk : Keeps s0 s) :
    Keeps s0 (State.startEnds s f up) := by
  unfold State.startEnds
  repeat' first
    | with_reducible assumption | with_reducible apply keeps_setFn | with_reducible apply keeps_commandDone
    | with_reducible apply keeps_protFollow | with_reducible apply hf1 | split

theorem keeps_otnAll {s0 s : State} (hk : Keeps s0 s) : Keeps s0 (State.otnAll s) := by
  unfold State.otnAll
  repeat' first
    | with_reducible assumption | with_reducible apply keeps_freshBei | with_reducible apply keeps_updGrp
    | with_reducible apply keeps_otnFollow | with_reducible apply keeps_losFollow
    | (with_reducible apply keeps_foldl; intro _ _ _) | split

theorem keeps_fwUp {s0 s : State} (hk : Keeps s0 s) : Keeps s0 (State.fwUp s) := by
  unfold State.fwUp
  repeat' first
    | with_reducible assumption | with_reducible apply keeps_raise | with_reducible apply keeps_updFw
    | exact floors_same rfl rfl rfl | split

theorem keeps_qdrOpenIf {s0 s : State} (hk : Keeps s0 s) : Keeps s0 (State.qdrOpenIf s).1 := by
  unfold State.qdrOpenIf
  repeat' first | with_reducible assumption | with_reducible apply keeps_open_

theorem keeps_startOutcome {s0 s : State} {f report} (hk : Keeps s0 s) : Keeps s0 (State.startOutcome s f report) := by
  unfold State.startOutcome
  repeat' first
    | with_reducible assumption | (show Keeps s0 _; dsimp only [id]; with_reducible assumption)
    | ((try lift_lets); intro x; clear_value x) | (intro _) | with_reducible apply keeps_startEnds
    | with_reducible apply keeps_synceAll | with_reducible apply keeps_startFails | with_reducible apply keeps_clkFails
    | with_reducible apply keeps_otnAll | with_reducible apply keeps_lineUp | with_reducible apply keeps_otnUp
    | with_reducible apply keeps_parseUp | with_reducible apply keeps_engUp | with_reducible apply keeps_assocUp
    | with_reducible apply keeps_swcUp | with_reducible apply keeps_schedUp | with_reducible apply keeps_fabUp
    | with_reducible apply keeps_protUp | with_reducible apply keeps_hbmUp | with_reducible apply keeps_qdrFailed
    | with_reducible apply keeps_qdrUp | with_reducible apply keeps_bpmUp | with_reducible apply keeps_fwUp
    | with_reducible apply keeps_sendPending | split

theorem keeps_execStartDone {s0 s : State} {f report} (hk : Keeps s0 s) : Goes s0 (execStartDone f report s) := by
  unfold execStartDone
  repeat' first
    | with_reducible apply goes_next | (show Goes s0 _; split) | with_reducible assumption
    | with_reducible apply keeps_startFails | with_reducible apply keeps_startOutcome

theorem keeps_execStartFailed {s0 s : State} {f status} (hk : Keeps s0 s) : Goes s0 (execStartFailed f status s) := by
  unfold execStartFailed
  repeat' first
    | with_reducible apply goes_next | (show Goes s0 _; split) | with_reducible assumption
    | with_reducible apply keeps_startFails | with_reducible apply keeps_clkFails | with_reducible apply keeps_qdrOpenIf
    | with_reducible apply keeps_qdrFailed

theorem keeps_hostStopped {s0 s : State} (hk : Keeps s0 s) : Keeps s0 (State.hostStopped s) := by
  unfold State.hostStopped
  repeat' first
    | with_reducible assumption | (intro _) | with_reducible apply keeps_dropAllWaiting | with_reducible apply keeps_eachRing
    | with_reducible apply keeps_haltRing | split

theorem keeps_engDown {s0 s : State} (hk : Keeps s0 s) : Keeps s0 (State.engDown s) := by
  unfold State.engDown
  repeat' first | with_reducible assumption | with_reducible apply keeps_wr | with_reducible apply keeps_engStopped | split

theorem keeps_stopEnds {s0 s : State} {f} (hk : Keeps s0 s) : Keeps s0 (State.stopEnds s f) := by
  unfold State.stopEnds
  repeat' first
    | with_reducible assumption | with_reducible apply keeps_hostStopped | with_reducible apply keeps_otnAll
    | with_reducible apply keeps_otnDown | with_reducible apply keeps_swapDone | with_reducible apply keeps_engDown
    | with_reducible apply keeps_fabStopped | with_reducible apply keeps_qdrStopped | with_reducible apply keeps_writeBack
    | split

theorem keeps_trapForced {s0 s : State} (hk : Keeps s0 s) : Keeps s0 (State.trapForced s) := by
  unfold State.trapForced
  repeat' first
    | with_reducible assumption | with_reducible apply keeps_inc | with_reducible apply keeps_upk
    | (with_reducible apply keeps_foldl; intro _ _ _)

theorem keeps_macForced {s0 s : State} (hk : Keeps s0 s) : Keeps s0 (State.macForced s) := by
  unfold State.macForced
  repeat' first
    | with_reducible assumption | with_reducible apply keeps_inc | with_reducible apply keeps_leavePort
    | with_reducible apply keeps_setMac | (with_reducible apply keeps_foldl; intro _ _ _)

theorem keeps_forcedStop {s0 s : State} {f} (hk : Keeps s0 s) : Keeps s0 (State.forcedStop s f).1 := by
  unfold State.forcedStop
  repeat' first
    | with_reducible assumption | (intro _) | with_reducible apply keeps_dropAllWaiting | with_reducible apply keeps_eachRing
    | with_reducible apply keeps_suspendRing | with_reducible apply keeps_macForced | with_reducible apply keeps_parseForced
    | with_reducible apply keeps_engForced | with_reducible apply keeps_fwdForced | with_reducible apply keeps_assocForced
    | with_reducible apply keeps_drainEnds | with_reducible apply keeps_bufForced | with_reducible apply keeps_hbmForced
    | with_reducible apply keeps_swcForced | with_reducible apply keeps_fabForced | with_reducible apply keeps_qdrForced
    | with_reducible apply keeps_fwForced | with_reducible apply keeps_trapForced | with_reducible apply keeps_otnForced | split
    | (with_reducible apply keeps_mk)

theorem keeps_stopped {s0 s : State} {f st} (hk : Keeps s0 s) : Keeps s0 (State.stopped s f st) := by
  unfold State.stopped
  repeat' first
    | with_reducible assumption | with_reducible apply keeps_commandDone | with_reducible apply keeps_protFollow
    | with_reducible apply keeps_stopEnds | with_reducible apply keeps_setFn

theorem keeps_execStopDone {s0 s : State} {f} (hk : Keeps s0 s) : Goes s0 (execStopDone f s) := by
  unfold execStopDone
  repeat' first
    | with_reducible apply goes_next | (show Goes s0 _; split) | with_reducible assumption | with_reducible apply keeps_stopped

theorem keeps_execStopTimeout {s0 s : State} {f} (hk : Keeps s0 s) : Goes s0 (execStopTimeout f s) := by
  unfold execStopTimeout
  repeat' first
    | with_reducible apply goes_next | (show Goes s0 _; split) | with_reducible assumption
    | with_reducible apply keeps_forcedStop | with_reducible apply keeps_stopped | with_reducible apply keeps_add

theorem keeps_disableEnds {s0 s : State} {f} (hk : Keeps s0 s) : Keeps s0 (State.disableEnds s f) := by
  unfold State.disableEnds
  repeat' first
    | with_reducible assumption | with_reducible apply keeps_synceAll | with_reducible apply keeps_wr
    | with_reducible apply keeps_updPwr | with_reducible apply keeps_losAll | with_reducible apply keeps_lineDisable
    | with_reducible apply keeps_otnDisable | with_reducible apply keeps_parseDisable | with_reducible apply keeps_engDisable
    | with_reducible apply keeps_fwdDisable | with_reducible apply keeps_assocDisable | with_reducible apply keeps_drainEnds
    | with_reducible apply keeps_bufDisable | with_reducible apply keeps_swcDisable | with_reducible apply keeps_schedDisable
    | with_reducible apply keeps_polDisable | with_reducible apply keeps_fabDisable | with_reducible apply keeps_hbmDisable
    | with_reducible apply keeps_qdrDisable | with_reducible apply keeps_fwDisable | with_reducible apply keeps_perfDisable
    | with_reducible apply keeps_bpmDisable | (with_reducible apply keeps_foldl; intro _ _ _) | split
    | with_reducible refine keeps_mkAll (canonical_filter _) (FloorsHold.refl _) ?_

theorem keeps_execDisableDone {s0 s : State} {f} (hk : Keeps s0 s) : Goes s0 (execDisableDone f s) := by
  unfold execDisableDone
  repeat' first
    | with_reducible apply goes_next | (show Goes s0 _; split) | with_reducible assumption | with_reducible apply keeps_setFn
    | with_reducible apply keeps_disableEnds | with_reducible apply keeps_updFn | with_reducible apply keeps_commandDone
    | with_reducible apply keeps_protFollow

theorem keeps_badCode {s0 s : State} (hk : Keeps s0 s) : Keeps s0 (badCode s).1 := by
  unfold badCode
  repeat' first | with_reducible assumption

theorem keeps_runFn {s0 s : State} {p n code arg} (h : Keeps s0 s) : Keeps s0 (runFn p n code arg s).1 := by
  unfold runFn
  cases Fn.ofCode n with
  | none => exact keeps_badCode h
  | some f => exact keeps_noArg (keeps_cmdFn h) h

theorem keeps_runDring {s0 x4 : State} {n code arg} (hk : Keeps s0 x4) : Keeps s0 (runDring n code arg x4).1 := by
  unfold runDring
  repeat' first
    | with_reducible assumption | with_reducible apply keeps_noArg | with_reducible apply keeps_cmdArm
    | with_reducible apply keeps_cmdHalt | with_reducible apply keeps_cmdResetRing | with_reducible apply keeps_badCode | split

theorem keeps_openReads {s0 s : State} {t key} (hk : Keeps s0 s) : Keeps s0 (State.openReads s t key).2 := by
  unfold State.openReads
  repeat' first
    | with_reducible assumption
    | ((try lift_lets); intro x; refine (?_ : Keeps s0 x.2 → _) ?_; (clear_value x; intro hx); (rotate_left; subst x; rotate_right))
    | ((try lift_lets); intro x; clear_value x) | with_reducible apply keeps_open_ | split

theorem keeps_withReads {s0 s : State} {t f a k d} (hf1 : ∀ t x1 x2 x3 x4, Keeps s0 t → Keeps s0 (f t x1 x2 x3 x4).1) (hk : Keeps s0 s) :
    Keeps s0 (withReads t f s a k d).1 := by
  unfold withReads
  repeat' first | with_reducible assumption | with_reducible apply keeps_openReads | with_reducible apply hf1

theorem keeps_runTbl {s0 x5 : State} {p t code arg} (hk : Keeps s0 x5) : Keeps s0 (runTbl p t code arg x5).1 := by
  unfold runTbl
  repeat' first
    | with_reducible assumption | (intro _) | with_reducible apply keeps_cmdTbl | with_reducible apply keeps_withReads
    | with_reducible apply keeps_cmdInsert | with_reducible apply keeps_cmdDelete | with_reducible apply keeps_cmdSearch
    | with_reducible apply keeps_cmdNext | with_reducible apply keeps_flushPort | with_reducible apply keeps_cmdRetire | split

theorem keeps_openSearch {s0 s : State} {m arg} (hk : Keeps s0 s) : Keeps s0 (openSearch m arg s).1 := by
  unfold openSearch
  repeat' first | with_reducible assumption | with_reducible apply keeps_open_ | with_reducible apply keeps_cmdAscSearch

theorem keeps_runAsc {s0 x4 : State} {p code arg} (hk : Keeps s0 x4) : Keeps s0 (runAsc p code arg x4).1 := by
  unfold runAsc
  repeat' first
    | with_reducible assumption | (intro _) | with_reducible apply keeps_cmdAscInsert | with_reducible apply keeps_cmdAscDelete
    | with_reducible apply keeps_openSearch | with_reducible apply keeps_cmdAsc | with_reducible apply keeps_ascRead
    | with_reducible apply keeps_ascNext | split

theorem keeps_runCh {s0 x4 : State} {c code arg} (hk : Keeps s0 x4) : Keeps s0 (runCh c code arg x4).1 := by
  unfold runCh
  repeat' first
    | with_reducible assumption | (intro _) | with_reducible apply keeps_chCmd | with_reducible apply keeps_noArg
    | with_reducible apply keeps_chDrain | with_reducible apply keeps_chToService | with_reducible apply keeps_chToOut
    | with_reducible apply keeps_chRetrain | with_reducible apply keeps_badCode | split

theorem keeps_runTsi {s0 x3 : State} {code arg} (hk : Keeps s0 x3) : Keeps s0 (runTsi code arg x3).1 := by
  unfold runTsi
  repeat' first
    | with_reducible assumption | (intro _) | with_reducible apply keeps_tsiCmd | with_reducible apply keeps_noArg
    | with_reducible apply keeps_cmdTsiWrite | with_reducible apply keeps_cmdTsiRead | with_reducible apply keeps_cmdTsiCopy
    | with_reducible apply keeps_cmdTsiClear | with_reducible apply keeps_cmdTsiSwap | with_reducible apply keeps_badCode
    | split

theorem keeps_runFw {s0 x3 : State} {code arg} (hk : Keeps s0 x3) : Keeps s0 (runFw code arg x3).1 := by
  unfold runFw
  repeat' first
    | with_reducible assumption | (intro _) | with_reducible apply keeps_cmdFw | with_reducible apply keeps_cmdFwBegin
    | with_reducible apply keeps_noArg | with_reducible apply keeps_cmdFwWrite | with_reducible apply keeps_fwVerify
    | with_reducible apply keeps_badCode | with_reducible apply keeps_cmdFwActivate | with_reducible apply keeps_cmdFwConfirm
    | with_reducible apply keeps_fwAbort | with_reducible apply keeps_cmdFwRevert | split

theorem keeps_runLine {s0 x4 : State} {k code arg} (hk : Keeps s0 x4) : Keeps s0 (runLine k code arg x4).1 := by
  unfold runLine
  repeat' first
    | with_reducible assumption | (intro _) | with_reducible apply keeps_subportArg | with_reducible apply keeps_cmdBind
    | with_reducible apply keeps_cmdUnbind | with_reducible apply keeps_cmdSubportRead | with_reducible apply keeps_badCode
    | with_reducible apply keeps_noArg | with_reducible apply keeps_cmdTodCapture | with_reducible apply keeps_cmdTodSetNow
    | with_reducible apply keeps_cmdTodSetArm | with_reducible apply keeps_cmdTodSetCancel
    | with_reducible apply keeps_cmdTodStep | split

theorem keeps_openCapture {s0 s : State} {m clear n} (hk : Keeps s0 s) : Keeps s0 (openCapture m clear n s) := by
  unfold openCapture
  repeat' first | with_reducible assumption | with_reducible apply keeps_openPair | with_reducible apply keeps_statCapture

theorem keeps_runPacket {s0 x5 : State} {p k code arg} (hk : Keeps s0 x5) : Keeps s0 (runPacket p k code arg x5).1 := by
  unfold runPacket
  repeat' first
    | with_reducible assumption | (intro _) | with_reducible apply keeps_cmdChain | with_reducible apply keeps_chainCopy
    | with_reducible apply keeps_chainSwap | with_reducible apply keeps_chainClear | with_reducible apply keeps_chainRecorded
    | with_reducible apply keeps_badCode | with_reducible apply keeps_cmdProfile | with_reducible apply keeps_profWrite
    | with_reducible apply keeps_profRead | with_reducible apply keeps_noArg | with_reducible apply keeps_cmdLoad
    | with_reducible apply keeps_cmdSwitch | with_reducible apply keeps_cmdMcodeAbort | with_reducible apply keeps_cmdFreeze
    | with_reducible apply keeps_snapshot | with_reducible apply keeps_statCmd | with_reducible apply keeps_openCapture
    | with_reducible apply keeps_statStore | with_reducible apply keeps_wrSt | split

theorem keeps_openPolRead {s0 s : State} {n} (hk : Keeps s0 s) : Keeps s0 (openPolRead n s).1 := by
  unfold openPolRead
  repeat' first | with_reducible assumption | with_reducible apply keeps_openPair | with_reducible apply keeps_polRead

theorem keeps_runTDie {s0 x4 : State} {k code arg} (hk : Keeps s0 x4) : Keeps s0 (runTDie k code arg x4).1 := by
  unfold runTDie
  repeat' first
    | with_reducible assumption | (intro _) | with_reducible apply keeps_qbufRecorded | with_reducible apply keeps_noArg
    | with_reducible apply keeps_writeAttr | with_reducible apply keeps_qbufRead | with_reducible apply keeps_badCode
    | with_reducible apply keeps_bpmRecorded | with_reducible apply keeps_bpmAlloc | with_reducible apply keeps_bpmEnabled
    | with_reducible apply keeps_bpmFree | with_reducible apply keeps_bpmCheck | with_reducible apply keeps_nodeCmd
    | with_reducible apply keeps_nodeWrite | with_reducible apply keeps_nodeRead | with_reducible apply keeps_shapeCmd
    | with_reducible apply keeps_shapeWrite | with_reducible apply keeps_shapeRead | with_reducible apply keeps_polCmd
    | with_reducible apply keeps_polAssign | with_reducible apply keeps_openPolRead | with_reducible apply keeps_pprofCmd
    | with_reducible apply keeps_pprofWrite | with_reducible apply keeps_pprofRead | with_reducible apply keeps_patRun | split

theorem keeps_runOnly {s0 x3 : State} {code f} (hf1 : ∀ t, Keeps s0 t → Keeps s0 (f t).1) (hk : Keeps s0 x3) :
    Keeps s0 (runOnly code f x3).1 := by
  unfold runOnly
  repeat' first | with_reducible assumption | with_reducible apply keeps_badCode | with_reducible apply hf1 | split

theorem keeps_runPower {s0 x4 : State} {k code arg} (hk : Keeps s0 x4) : Keeps s0 (runPower k code arg x4).1 := by
  unfold runPower
  repeat' first
    | with_reducible assumption | (intro _) | with_reducible apply keeps_runOnly | with_reducible apply keeps_cmdSysReset
    | with_reducible apply keeps_cmdCoreReset | with_reducible apply keeps_cmdPstate | with_reducible apply keeps_cmdKeyRevoke
    | with_reducible apply keeps_noArg | with_reducible apply keeps_cmdRelinquish | with_reducible apply keeps_badCode | split

end Sys2Proof.Machine
end

