-- ==== Sys2Proof/Laws/KeepsService.lean ====
section
/-!
SUPPORT. Every operation of the dictionary service, KDP, the die-to-die link, boot and the tick keeps what Keeps says, one lemma each.
-/

namespace Sys2Proof.Machine

theorem keeps_countUp {s0 s : State} {k} (hk : Keeps s0 s) : Keeps s0 (State.countUp s k) := by
  unfold State.countUp
  repeat' first
    | with_reducible assumption | ((try lift_lets); intro x; clear_value x) | with_reducible apply keeps_prbsCount | split

theorem keeps_readClears {s0 s : State} {k r} (hk : Keeps s0 s) : Keeps s0 (State.readClears s k r) := by
  unfold State.readClears
  repeat' first | with_reducible assumption | with_reducible apply keeps_wr | split

theorem keeps_readBytes {s0 s : State} {k off len} (hk : Keeps s0 s) : Keeps s0 (State.readBytes s k off len).1 := by
  unfold State.readBytes
  repeat' first | with_reducible assumption | with_reducible apply keeps_countUp | with_reducible apply keeps_readClears | split

theorem keeps_cmdRingEnable {s0 s : State} {r v} (hk : Keeps s0 s) : Keeps s0 (cmdRingEnable r v s).1 := by
  unfold cmdRingEnable
  repeat' first
    | with_reducible assumption | with_reducible apply keeps_updRing | with_reducible apply keeps_wr
    | with_reducible apply keeps_dropWaiting | split

theorem keeps_execRingEnable {s0 s : State} {p ring} (hk : Keeps s0 s) : Goes s0 (execRingEnable p ring s) := by
  unfold execRingEnable
  repeat' first
    | with_reducible apply goes_next | with_reducible assumption | (intro _) | with_reducible apply keeps_access
    | with_reducible apply keeps_cmdRingEnable

theorem keeps_store {s0 s : State} {k v} (hk : Keeps s0 s) : Keeps s0 (store k v s).1 := by
  unfold store
  repeat' first | with_reducible assumption | with_reducible apply keeps_wr

theorem keeps_storeUnless {s0 s : State} {bad st k v} (hk : Keeps s0 s) : Keeps s0 (storeUnless bad st k v s).1 := by
  unfold storeUnless
  repeat' first | with_reducible assumption | with_reducible apply keeps_store | split

theorem keeps_writeRing {s0 s : State} {k v} (hk : Keeps s0 s) : Keeps s0 (writeRing k v s).1 := by
  unfold writeRing
  repeat' first
    | with_reducible assumption | with_reducible apply keeps_storeUnless | with_reducible apply keeps_cmdRingEnable
    | with_reducible apply keeps_store | split

theorem keeps_writeDring {s0 s : State} {d k v} (hk : Keeps s0 s) : Keeps s0 (writeDring d k v s).1 := by
  unfold writeDring
  repeat' first | with_reducible assumption | with_reducible apply keeps_storeUnless | split

theorem keeps_writeThermal {s0 s : State} {k v} (hk : Keeps s0 s) : Keeps s0 (writeThermal k v s).1 := by
  unfold writeThermal
  repeat' first
    | with_reducible assumption
    | ((try lift_lets); intro x; refine (?_ : Keeps s0 x → _) ?_; (clear_value x; intro hx); (rotate_left; subst x; rotate_right))
    | with_reducible apply keeps_wr | split

theorem keeps_writeLine {s0 s : State} {k v} (hk : Keeps s0 s) : Keeps s0 (writeLine k v s).1 := by
  unfold writeLine
  repeat' first
    | with_reducible assumption
    | ((try lift_lets); intro x; refine (?_ : Keeps s0 x → _) ?_; (clear_value x; intro hx); (rotate_left; subst x; rotate_right))
    | ((try lift_lets); intro x; clear_value x) | with_reducible apply keeps_cmdAdminUpAll
    | with_reducible apply keeps_cmdLoopback | with_reducible apply keeps_storeUnless | with_reducible apply keeps_cmdPrbsMode
    | with_reducible apply keeps_emit | with_reducible apply keeps_store | with_reducible apply keeps_wr
    | with_reducible apply keeps_synceFollow | split | (with_reducible apply keeps_mk)

theorem keeps_writePerf {s0 s : State} {k v} (hk : Keeps s0 s) : Keeps s0 (writePerf k v s).1 := by
  unfold writePerf
  repeat' first
    | with_reducible assumption
    | ((try lift_lets); intro x; refine (?_ : Keeps s0 x → _) ?_; (clear_value x; intro hx); (rotate_left; subst x; rotate_right))
    | ((try lift_lets); intro x; clear_value x) | with_reducible apply keeps_followFreeze | with_reducible apply keeps_wr
    | with_reducible apply keeps_storeUnless | with_reducible apply keeps_store | split

theorem keeps_writeFabric {s0 s : State} {k v} (hk : Keeps s0 s) : Keeps s0 (writeFabric k v s).1 := by
  unfold writeFabric
  repeat' first
    | with_reducible assumption
    | ((try lift_lets); intro x; refine (?_ : Keeps s0 x → _) ?_; (clear_value x; intro hx); (rotate_left; subst x; rotate_right))
    | ((try lift_lets); intro x; clear_value x) | with_reducible apply keeps_wr | with_reducible apply keeps_cmdPlaneAdmin
    | with_reducible apply keeps_protFollow | with_reducible apply keeps_cmdProtMode | with_reducible apply keeps_storeUnless
    | with_reducible apply keeps_store | split

theorem keeps_writeOtn {s0 s : State} {g k v} (hk : Keeps s0 s) : Keeps s0 (writeOtn g k v s).1 := by
  unfold writeOtn
  repeat' first
    | with_reducible assumption | with_reducible apply keeps_otnFollow | with_reducible apply keeps_wr
    | with_reducible apply keeps_updGrp | with_reducible apply keeps_store | split

theorem keeps_writeSpecial {s0 s : State} {k v} (hk : Keeps s0 s) : Keeps s0 (writeSpecial k v s).1 := by
  unfold writeSpecial
  repeat' first
    | with_reducible assumption
    | ((try lift_lets); intro x; refine (?_ : Keeps s0 x → _) ?_; (clear_value x; intro hx); (rotate_left; subst x; rotate_right))
    | ((try lift_lets); intro x; refine (?_ : Keeps s0 x.1 → _) ?_; (clear_value x; intro hx); (rotate_left; subst x; rotate_right))
    | ((try lift_lets); intro x; clear_value x) | (intro _) | with_reducible apply keeps_writeRing
    | with_reducible apply keeps_writeThermal | with_reducible apply keeps_storeUnless | with_reducible apply keeps_writeDring
    | with_reducible apply keeps_writeLine | with_reducible apply keeps_writeOtn | with_reducible apply keeps_writeFabric
    | with_reducible apply keeps_writePerf | with_reducible apply keeps_store | split

theorem keeps_writeClears {s0 s : State} {k v} (hk : Keeps s0 s) : Keeps s0 (writeClears k v s).1 := by
  unfold writeClears
  repeat' first | with_reducible assumption | with_reducible apply keeps_clearFlags | with_reducible apply keeps_wr | split

theorem keeps_writeValue {s0 s : State} {k v r} (hk : Keeps s0 s) : Keeps s0 (writeValue k v r s).1 := by
  unfold writeValue
  repeat' first
    | with_reducible assumption | with_reducible apply keeps_writeClears | with_reducible apply keeps_writeSpecial | split

theorem keeps_updStore {s0 s : State} {n f} (hk : Keeps s0 s) : Keeps s0 (State.updStore s n f) := by
  unfold State.updStore
  repeat' first | with_reducible assumption | with_reducible apply keeps_updFw | exact floors_same rfl rfl rfl

theorem keeps_settingsRecorded {s0 s : State} {f} (hf1 : ∀ t, Keeps s0 t → Keeps s0 (f t).1) (hk : Keeps s0 s) :
    Keeps s0 (settingsRecorded f s).1 := by
  unfold settingsRecorded
  repeat' first | with_reducible assumption | with_reducible apply keeps_wrSt | with_reducible apply hf1

theorem keeps_settingsSave {s0 s : State} (hk : Keeps s0 s) : Keeps s0 (settingsSave s).1 := by
  unfold settingsSave
  repeat' first
    | with_reducible assumption
    | ((try lift_lets); intro x; refine (?_ : Keeps s0 x → _) ?_; (clear_value x; intro hx); (rotate_left; subst x; rotate_right))
    | ((try lift_lets); intro x; clear_value x) | with_reducible apply keeps_wr | with_reducible apply keeps_linked
    | with_reducible apply keeps_inc | with_reducible apply keeps_updStore | (with_reducible apply keeps_foldl; intro _ _ _)
    | split

theorem keeps_writeSaved {s0 s : State} {boot e} (hk : Keeps s0 s) : Keeps s0 (writeSaved boot s e).1 := by
  unfold writeSaved
  repeat' first | with_reducible assumption | with_reducible apply keeps_writeValue | with_reducible apply keeps_linked | split

theorem keeps_loadEntries {s0 s : State} {boot l} (hk : Keeps s0 s) : Keeps s0 (State.loadEntries s boot l) := by
  unfold State.loadEntries
  repeat' first
    | with_reducible assumption
    | ((try lift_lets); intro x; refine (?_ : Keeps s0 x.1 → _) ?_; (clear_value x; intro hx); (rotate_left; subst x; rotate_right))
    | with_reducible apply keeps_writeSaved | with_reducible apply keeps_inc | with_reducible apply keeps_wr
    | (with_reducible apply keeps_foldl; intro _ _ _) | split

theorem keeps_settingsApply {s0 s : State} (hk : Keeps s0 s) : Keeps s0 (settingsApply s).1 := by
  unfold settingsApply
  repeat' first | with_reducible assumption | with_reducible apply keeps_loadEntries

theorem keeps_runSettings {s0 x3 : State} {code arg} (hk : Keeps s0 x3) : Keeps s0 (runSettings code arg x3).1 := by
  unfold runSettings
  repeat' first
    | with_reducible assumption | (intro _) | with_reducible apply keeps_settingsRecorded | with_reducible apply keeps_noArg
    | with_reducible apply keeps_settingsSave | with_reducible apply keeps_settingsApply | with_reducible apply keeps_badCode
    | split

theorem keeps_execSettingsSave {s0 s : State} {p arg} (hk : Keeps s0 s) : Goes s0 (execSettingsSave p arg s) := by
  unfold execSettingsSave
  repeat' first
    | with_reducible apply goes_next | with_reducible assumption | (intro _) | with_reducible apply keeps_access
    | with_reducible apply keeps_settingsRecorded | with_reducible apply keeps_noArg | with_reducible apply keeps_settingsSave

theorem keeps_execSettingsApply {s0 s : State} {p arg} (hk : Keeps s0 s) : Goes s0 (execSettingsApply p arg s) := by
  unfold execSettingsApply
  repeat' first
    | with_reducible apply goes_next | with_reducible assumption | (intro _) | with_reducible apply keeps_access
    | with_reducible apply keeps_settingsRecorded | with_reducible apply keeps_noArg | with_reducible apply keeps_settingsApply

theorem keeps_setKey {s0 s : State} {slot key} (hk : Keeps s0 s) : Keeps s0 (State.setKey s slot key) := by
  unfold State.setKey
  repeat' first | with_reducible assumption | with_reducible apply keeps_updStore | (with_reducible apply keeps_mk)

theorem keeps_cmdKey {s0 s : State} {slot key} (hk : Keeps s0 s) : Keeps s0 (cmdKey slot key s).1 := by
  unfold cmdKey
  repeat' first | with_reducible assumption | with_reducible apply keeps_setKey | split

theorem keeps_cmdKdpKeyRevoke {s0 s : State} {arg} (hk : Keeps s0 s) : Keeps s0 (cmdKdpKeyRevoke arg s).1 := by
  unfold cmdKdpKeyRevoke
  repeat' first | with_reducible assumption | with_reducible apply keeps_setKey | split

theorem keeps_execKdpKeyWrite {s0 s : State} {p slot key} (hk : Keeps s0 s) : Goes s0 (execKdpKeyWrite p slot key s) := by
  unfold execKdpKeyWrite
  repeat' first
    | with_reducible apply goes_next | with_reducible assumption | (intro _) | with_reducible apply keeps_access
    | with_reducible apply keeps_cmdKey | split

theorem keeps_execKdpKeyRevoke {s0 s : State} {p arg} (hk : Keeps s0 s) : Goes s0 (execKdpKeyRevoke p arg s) := by
  unfold execKdpKeyRevoke
  repeat' first
    | with_reducible apply goes_next | with_reducible assumption | (intro _) | with_reducible apply keeps_access
    | with_reducible apply keeps_cmdKdpKeyRevoke

theorem keeps_cmdMbx {s0 s : State} {p write} (hk : Keeps s0 s) : Keeps s0 (cmdMbx p write s).1 := by
  unfold cmdMbx
  repeat' first | with_reducible assumption | with_reducible apply keeps_wr | split | (with_reducible apply keeps_mk)

theorem keeps_execMbxRead {s0 s : State} {p arg} (hk : Keeps s0 s) : Goes s0 (execMbxRead p arg s) := by
  unfold execMbxRead
  repeat' first
    | with_reducible apply goes_next | with_reducible assumption
    | ((try lift_lets); intro x; refine (?_ : Keeps s0 x → _) ?_; (clear_value x; intro hx); (rotate_left; subst x; rotate_right))
    | (intro _) | with_reducible apply keeps_access | with_reducible apply keeps_noArg | with_reducible apply keeps_cmdMbx

theorem keeps_execMbxWrite {s0 s : State} {p arg} (hk : Keeps s0 s) : Goes s0 (execMbxWrite p arg s) := by
  unfold execMbxWrite
  repeat' first
    | with_reducible apply goes_next | with_reducible assumption
    | ((try lift_lets); intro x; refine (?_ : Keeps s0 x → _) ?_; (clear_value x; intro hx); (rotate_left; subst x; rotate_right))
    | (intro _) | with_reducible apply keeps_access | with_reducible apply keeps_noArg | with_reducible apply keeps_cmdMbx

theorem keeps_runMbx {s0 x4 : State} {p code arg} (hk : Keeps s0 x4) : Keeps s0 (runMbx p code arg x4).1 := by
  unfold runMbx
  repeat' first
    | with_reducible assumption
    | ((try lift_lets); intro x; refine (?_ : Keeps s0 x → _) ?_; (clear_value x; intro hx); (rotate_left; subst x; rotate_right))
    | with_reducible apply keeps_noArg | with_reducible apply keeps_cmdMbx | with_reducible apply keeps_badCode | split

theorem keeps_cond {c : Prop} [Decidable c] {s0 s : State} {f g : State → State × Status} (hf : Keeps s0 (f s).1)
    (hg : Keeps s0 (g s).1) : Keeps s0 ((if c then f else g) s).1 := by
  split
  · exact hf
  · exact hg

theorem keeps_runCommand {s0 s : State} {p k v} (h : Keeps s0 s) : Keeps s0 (runCommand p k v s).1 := by
  have hr : ∀ {i act arg}, Keeps s0 (noArg arg (cmdRole i act) s).1 := keeps_noArg (keeps_cmdRole h) h
  unfold runCommand
  refine keeps_cond (keeps_runFn h) (keeps_cond (keeps_runDring h) (keeps_cond (keeps_runMbx h) (keeps_cond
    (keeps_runOnly (fun _ => keeps_cmdKdpKeyRevoke) h) (keeps_cond
    (keeps_runOnly (fun _ ht => keeps_noArg (keeps_cmdPairApply ht) ht) h) (keeps_cond (keeps_runLine h) (keeps_cond
    (keeps_runTsi h) (keeps_cond (keeps_runPacket h) (keeps_cond (keeps_runTbl h) (keeps_cond (keeps_runAsc h) (keeps_cond
    (keeps_runTDie h) (keeps_cond ?_ (keeps_cond (keeps_runCh h) (keeps_cond (keeps_runFw h) (keeps_cond (keeps_runSettings h)
    (keeps_runPower h)))))))))))))))
  generalize v % 256 = c
  match c with
  | 1 => exact hr
  | 2 => exact hr
  | 0 => exact keeps_badCode h
  | _ + 3 => exact keeps_badCode h

theorem keeps_writeWhole {s0 s : State} {p k v r} (hk : Keeps s0 s) : Keeps s0 (writeWhole p k v r s).1 := by
  unfold writeWhole
  repeat' first
    | with_reducible assumption | with_reducible apply keeps_runCommand | with_reducible apply keeps_writeValue | split

theorem keeps_dropStaging {s0 s : State} {k} (hk : Keeps s0 s) : Keeps s0 (State.dropStaging s k) := by
  unfold State.dropStaging
  repeat' first | with_reducible assumption | (with_reducible apply keeps_mk)

theorem keeps_writeRange {s0 s : State} {k off n data r} (hk : Keeps s0 s) : Keeps s0 (writeRange k off n data r s).1 := by
  unfold writeRange
  repeat' first
    | with_reducible assumption | ((try lift_lets); intro x; clear_value x) | with_reducible apply keeps_dropStaging
    | with_reducible apply keeps_writeValue | split | (with_reducible apply keeps_mk)

theorem keeps_writeBytes {s0 s : State} {p k off data} (hk : Keeps s0 s) : Keeps s0 (writeBytes p k off data s).1 := by
  unfold writeBytes
  repeat' first
    | with_reducible assumption | (intro _) | with_reducible apply keeps_dropStaging | with_reducible apply keeps_cmdKey
    | with_reducible apply keeps_writeRange | with_reducible apply keeps_writeWhole | split

theorem keeps_fillMbx {s0 s : State} {data} (hk : Keeps s0 s) : Keeps s0 (State.fillMbx s data) := by
  unfold State.fillMbx
  repeat' first | with_reducible assumption | with_reducible apply keeps_wr | (with_reducible apply keeps_foldl; intro _ _ _)

theorem keeps_finishRead {s0 s : State} {p k st data} (hk : Keeps s0 s) : Keeps s0 (State.finishRead s p k st data) := by
  unfold State.finishRead
  repeat' first
    | with_reducible assumption | with_reducible apply keeps_countAccess | with_reducible apply keeps_emit
    | with_reducible apply keeps_windowRead | with_reducible apply keeps_fillMbx | with_reducible apply keeps_mailboxDone
    | split | (with_reducible apply keeps_mk)

theorem keeps_windowFetch {s0 s : State} {k off len} (h : Keeps s0 s) : Keeps s0 (s.windowFetch k off len) := by
  unfold State.windowFetch
  extract_lets refuse
  split
  · exact keeps_finishRead h
  · split
    · exact keeps_finishRead h
    · split
      · exact keeps_finishRead h
      · split
        · exact keeps_finishRead h
        · refine keeps_finishRead ?_
          split
          · exact keeps_mk (keeps_readBytes h)
          · exact keeps_readBytes h

theorem keeps_windowNew {s0 s : State} {k off len} (hk : Keeps s0 s) : Keeps s0 (State.windowNew s k off len) := by
  unfold State.windowNew
  repeat' first
    | with_reducible assumption | with_reducible apply keeps_dropHalves | with_reducible apply keeps_finishRead
    | with_reducible apply keeps_windowFetch | with_reducible apply keeps_linked | split

theorem keeps_windowLoad {s0 s : State} {k off len} (hk : Keeps s0 s) : Keeps s0 (State.windowLoad s k off len) := by
  unfold State.windowLoad
  repeat' first
    | with_reducible assumption | with_reducible apply keeps_unsupported | with_reducible apply keeps_emit
    | with_reducible apply keeps_hold | with_reducible apply keeps_finishRead | with_reducible apply keeps_windowNew | split
    | (with_reducible apply keeps_mk)

theorem keeps_windowPut {s0 s : State} {k off data} (hk : Keeps s0 s) : Keeps s0 (windowPut k off data s).1 := by
  unfold windowPut
  repeat' first
    | with_reducible assumption | ((try lift_lets); intro x; clear_value x) | with_reducible apply keeps_writeWhole | split

theorem keeps_windowFirst {s0 s : State} {k off data} (hk : Keeps s0 s) : Keeps s0 (State.windowFirst s k off data) := by
  unfold State.windowFirst
  repeat' first
    | with_reducible assumption | (intro _) | with_reducible apply keeps_dropHalves | with_reducible apply keeps_accessReset
    | with_reducible apply keeps_windowPut | split | (with_reducible apply keeps_mk)

theorem keeps_windowStore {s0 s : State} {k off data} (hk : Keeps s0 s) : Keeps s0 (State.windowStore s k off data) := by
  unfold State.windowStore
  repeat' first
    | with_reducible assumption
    | ((try lift_lets); intro x; refine (?_ : Keeps s0 x.2 → _) ?_; (clear_value x; intro hx); (rotate_left; subst x; rotate_right))
    | (intro _) | with_reducible apply keeps_unsupported | with_reducible apply keeps_hold
    | with_reducible apply keeps_accessReset | with_reducible apply keeps_windowPut | with_reducible apply keeps_windowFirst
    | with_reducible refine keeps_fst (by with_reducible assumption) ?_ | split | (with_reducible apply keeps_mk)

theorem keeps_rangeRefused {s0 s : State} {p k bytes st} (hk : Keeps s0 s) : Keeps s0 (State.rangeRefused s p k bytes st) := by
  unfold State.rangeRefused
  repeat' first
    | with_reducible assumption | with_reducible apply keeps_accessRefused | with_reducible apply keeps_dropStaging | split

theorem keeps_objectWrite {s0 s : State} {p k off data} (hk : Keeps s0 s) : Keeps s0 (State.objectWrite s p k off data) := by
  unfold State.objectWrite
  repeat' first
    | with_reducible assumption | with_reducible apply keeps_hold | with_reducible apply keeps_rangeRefused
    | with_reducible apply keeps_writeBytes | with_reducible apply keeps_linked | with_reducible apply keeps_atMailbox
    | with_reducible apply keeps_finish | split

theorem keeps_execObjectWrite {s0 s : State} {p index sub offset data} (hk : Keeps s0 s) :
    Goes s0 (execObjectWrite p index sub offset data s) := by
  unfold execObjectWrite
  repeat' first
    | with_reducible apply goes_next | (show Goes s0 _; split) | with_reducible assumption
    | ((try lift_lets); intro x; refine (?_ : Keeps s0 x.2 → _) ?_; (clear_value x; intro hx); (rotate_left; subst x; rotate_right))
    | ((try lift_lets); intro x; refine (?_ : Keeps s0 x.2.1 → _) ?_; (clear_value x; intro hx); (rotate_left; subst x; rotate_right))
    | ((try lift_lets); intro x; refine (?_ : Keeps s0 x.2.2 → _) ?_; (clear_value x; intro hx); (rotate_left; subst x; rotate_right))
    | ((try lift_lets); intro x; clear_value x) | (intro _) | with_reducible apply keeps_windowStore
    | with_reducible apply keeps_objectWrite

theorem keeps_readRefused {s0 s : State} {p k st} (hk : Keeps s0 s) : Keeps s0 (State.readRefused s p k st) := by
  unfold State.readRefused
  repeat' first
    | with_reducible assumption | with_reducible apply keeps_mailboxBusy | with_reducible apply keeps_unauthentic
    | with_reducible apply keeps_finishRead | split

theorem keeps_objectRead {s0 s : State} {p k} (hk : Keeps s0 s) : Keeps s0 (State.objectRead s p k) := by
  unfold State.objectRead
  repeat' first
    | with_reducible assumption | with_reducible apply keeps_hold | with_reducible apply keeps_readRefused
    | with_reducible apply keeps_readBytes | with_reducible apply keeps_linked | with_reducible apply keeps_atMailbox
    | with_reducible apply keeps_finishRead | split

theorem keeps_execRcRead {s0 s : State} {p index sub} (hk : Keeps s0 s) : Goes s0 (execRcRead p index sub s) := by
  unfold execRcRead
  repeat' first
    | with_reducible apply goes_next | (show Goes s0 _; split) | with_reducible assumption
    | ((try lift_lets); intro x; refine (?_ : Keeps s0 x.2.1 → _) ?_; (clear_value x; intro hx); (rotate_left; subst x; rotate_right))
    | ((try lift_lets); intro x; refine (?_ : Keeps s0 x.2.2 → _) ?_; (clear_value x; intro hx); (rotate_left; subst x; rotate_right))
    | ((try lift_lets); intro x; clear_value x) | (intro _) | with_reducible apply keeps_windowLoad
    | with_reducible apply keeps_objectRead

theorem keeps_execWindowHalfWrite {s0 s : State} {upper index sub half} (hk : Keeps s0 s) :
    Goes s0 (execWindowHalfWrite upper index sub half s) := by
  unfold execWindowHalfWrite
  repeat' first
    | with_reducible apply goes_next | with_reducible assumption
    | ((try lift_lets); intro x; refine (?_ : Keeps s0 x.1 → _) ?_; (clear_value x; intro hx); (rotate_left; subst x; rotate_right))
    | ((try lift_lets); intro x; refine (?_ : Keeps s0 x.2 → _) ?_; (clear_value x; intro hx); (rotate_left; subst x; rotate_right))
    | ((try lift_lets); intro x; refine (?_ : Keeps s0 x.2.1 → _) ?_; (clear_value x; intro hx); (rotate_left; subst x; rotate_right))
    | ((try lift_lets); intro x; refine (?_ : Keeps s0 x.2.2 → _) ?_; (clear_value x; intro hx); (rotate_left; subst x; rotate_right))
    | ((try lift_lets); intro x; clear_value x) | with_reducible apply keeps_windowStore

theorem keeps_execWindowHalfRead {s0 s : State} {upper index sub} (hk : Keeps s0 s) :
    Goes s0 (execWindowHalfRead upper index sub s) := by
  unfold execWindowHalfRead
  repeat' first
    | with_reducible apply goes_next | with_reducible assumption
    | ((try lift_lets); intro x; refine (?_ : Keeps s0 x.2 → _) ?_; (clear_value x; intro hx); (rotate_left; subst x; rotate_right))
    | ((try lift_lets); intro x; refine (?_ : Keeps s0 x.2.1 → _) ?_; (clear_value x; intro hx); (rotate_left; subst x; rotate_right))
    | ((try lift_lets); intro x; refine (?_ : Keeps s0 x.2.2 → _) ?_; (clear_value x; intro hx); (rotate_left; subst x; rotate_right))
    | ((try lift_lets); intro x; clear_value x) | (intro _) | with_reducible apply keeps_windowLoad

theorem keeps_mailboxAccess {s0 s : State} {m} (hk : Keeps s0 s) : Keeps s0 (State.mailboxAccess s m) := by
  unfold State.mailboxAccess
  repeat' first
    | with_reducible assumption
    | ((try lift_lets); intro x; refine (?_ : Keeps s0 x.1 → _) ?_; (clear_value x; intro hx); (rotate_left; subst x; rotate_right))
    | ((try lift_lets); intro x; clear_value x) | with_reducible apply keeps_finish | with_reducible apply keeps_dropStaging
    | with_reducible apply keeps_finishRead | with_reducible apply keeps_writeBytes | with_reducible apply keeps_linked
    | with_reducible apply keeps_readBytes | split

theorem keeps_execMailboxAccessEnd {s0 s : State} (hk : Keeps s0 s) : Goes s0 (execMailboxAccessEnd s) := by
  unfold execMailboxAccessEnd
  repeat' first
    | with_reducible apply goes_next | (show Goes s0 _; split) | with_reducible assumption
    | with_reducible apply keeps_mailboxAccess

theorem keeps_perform {s0 s : State} {h} (hk : Keeps s0 s) : Keeps s0 (State.perform s h) := by
  unfold State.perform
  repeat' first
    | with_reducible assumption
    | ((try lift_lets); intro x; refine (?_ : Keeps s0 x.2.2 → _) ?_; (clear_value x; intro hx); (rotate_left; subst x; rotate_right))
    | ((try lift_lets); intro x; clear_value x) | (intro _) | with_reducible apply keeps_windowStore
    | with_reducible apply keeps_windowLoad | with_reducible apply keeps_objectWrite | with_reducible apply keeps_objectRead
    | split

theorem keeps_letGo {s0 s : State} (hk : Keeps s0 s) : Keeps s0 (State.letGo s) := by
  unfold State.letGo
  repeat' first
    | with_reducible assumption | with_reducible apply keeps_raise | with_reducible apply keeps_perform
    | (with_reducible apply keeps_foldl; intro _ _ _) | split | (with_reducible apply keeps_mk)

theorem keeps_execStagingCopyTimeout {s0 s : State} {index sub} (hk : Keeps s0 s) :
    Goes s0 (execStagingCopyTimeout index sub s) := by
  unfold execStagingCopyTimeout
  repeat' first | with_reducible apply goes_next | with_reducible assumption | with_reducible apply keeps_dropStaging

theorem keeps_answer {s0 s : State} {source port d st key} (hk : Keeps s0 s) :
    Keeps s0 (State.answer s source port d st key) := by
  unfold State.answer
  repeat' first | with_reducible assumption | with_reducible apply keeps_open_ | with_reducible apply keeps_emit

theorem keeps_authFail {s0 s : State} {source port d} (hk : Keeps s0 s) : Keeps s0 (State.authFail s source port d) := by
  unfold State.authFail
  repeat' first
    | with_reducible assumption | with_reducible apply keeps_inc | with_reducible apply keeps_answer | split
    | (with_reducible apply keeps_mk)

theorem keeps_hear {s0 s : State} {x} (hk : Keeps s0 s) : Keeps s0 (State.hear s x) := by
  unfold State.hear
  repeat' first | with_reducible assumption | (with_reducible apply keeps_mk)

theorem keeps_repeated {s0 s : State} {x port gen seq} (hk : Keeps s0 s) : Keeps s0 (State.repeated s x port gen seq) := by
  unfold State.repeated
  repeat' first | with_reducible assumption | with_reducible apply keeps_emit | split | (with_reducible apply keeps_mk)

theorem keeps_sequence {s0 s : State} {source port d} (hk : Keeps s0 s) : Keeps s0 (State.sequence s source port d) := by
  unfold State.sequence
  repeat' first
    | with_reducible assumption | with_reducible apply keeps_inc | with_reducible apply keeps_hear
    | with_reducible apply keeps_repeated | with_reducible apply keeps_answer | split | (with_reducible apply keeps_mk)

theorem keeps_execKdpRequest {s0 s : State} {source port datagram} (hk : Keeps s0 s) :
    Goes s0 (execKdpRequest source port datagram s) := by
  unfold execKdpRequest
  repeat' first
    | with_reducible apply goes_next | (show Goes s0 _; split) | with_reducible assumption | with_reducible apply keeps_inc
    | with_reducible apply keeps_authFail | with_reducible apply keeps_sequence

theorem keeps_kdpRunOne {s0 s : State} {r} (hk : Keeps s0 s) : Keeps s0 (kdpRunOne r s).1 := by
  unfold kdpRunOne
  repeat' first
    | with_reducible assumption
    | ((try lift_lets); intro x; refine (?_ : Keeps s0 x.1 → _) ?_; (clear_value x; intro hx); (rotate_left; subst x; rotate_right))
    | ((try lift_lets); intro x; clear_value x) | with_reducible apply keeps_dropStaging | with_reducible apply keeps_readBytes
    | with_reducible apply keeps_linked | with_reducible apply keeps_writeBytes | split

theorem keeps_kdpRun {s0 x4 : State} {stop x2 x3} (hk : Keeps s0 x4) : Keeps s0 (kdpRun stop x2 x3 x4).1 := by
  induction x2 generalizing x4 stop x3 with
  | nil =>
    unfold kdpRun
    repeat' first | with_reducible assumption
  | cons _ _ ih =>
    unfold kdpRun
    repeat' first
      | with_reducible assumption | with_reducible apply ih | with_reducible apply keeps_kdpRunOne
      | with_reducible apply keeps_emit | with_reducible apply keeps_countAccess | split

theorem keeps_keepResponse {s0 s : State} {r bytes} (hk : Keeps s0 s) : Keeps s0 (State.keepResponse s r bytes) := by
  unfold State.keepResponse
  repeat' first | with_reducible assumption | (with_reducible apply keeps_mk)

theorem keeps_respond {s0 s : State} {r} (hk : Keeps s0 s) : Keeps s0 (State.respond s r) := by
  unfold State.respond
  repeat' first
    | with_reducible assumption | with_reducible apply keeps_kdpRun | with_reducible apply keeps_open_
    | with_reducible apply keeps_emit | with_reducible apply keeps_keepResponse
    | (with_reducible apply keeps_foldl; intro _ _ _)

theorem keeps_execKdpResponse {s0 s : State} (hk : Keeps s0 s) : Goes s0 (execKdpResponse s) := by
  unfold execKdpResponse
  repeat' first
    | with_reducible apply goes_next | (show Goes s0 _; split) | with_reducible assumption | with_reducible apply keeps_respond
    | (with_reducible apply keeps_mk)

theorem keeps_loseInFlight {s0 s : State} {n} (hk : Keeps s0 s) : Keeps s0 (State.loseInFlight s n) := by
  unfold State.loseInFlight
  repeat' first
    | with_reducible assumption | with_reducible apply keeps_upk | with_reducible apply keeps_add
    | with_reducible apply keeps_giveUp | with_reducible apply keeps_leavePort | (with_reducible apply keeps_foldl; intro _ _ _)
    | split

theorem keeps_sliceFailed {s0 s : State} {n} (hk : Keeps s0 s) : Keeps s0 (State.sliceFailed s n) := by
  unfold State.sliceFailed
  repeat' first
    | with_reducible assumption | with_reducible apply keeps_open_ | with_reducible apply keeps_portDown
    | (with_reducible apply keeps_foldl; intro _ _ _) | split

theorem keeps_chanFailed {s0 s : State} {n w} (hk : Keeps s0 s) : Keeps s0 (State.chanFailed s n w) := by
  unfold State.chanFailed
  repeat' first
    | with_reducible assumption | with_reducible apply keeps_loseInFlight | with_reducible apply keeps_wr
    | with_reducible apply keeps_raise | with_reducible apply keeps_protFollow | with_reducible apply keeps_sliceFailed | split

theorem keeps_retrainChan {s0 s : State} {n w} (hk : Keeps s0 s) : Keeps s0 (State.retrainChan s n w) := by
  unfold State.retrainChan
  repeat' first
    | with_reducible assumption | with_reducible apply keeps_chanFailed | with_reducible apply keeps_updChan
    | with_reducible apply keeps_wr | with_reducible apply keeps_protFollow | with_reducible apply keeps_loseInFlight | split

theorem keeps_execEvradFlitCrcFail {s0 s : State} {channel wire again} (hk : Keeps s0 s) :
    Goes s0 (execEvradFlitCrcFail channel wire again s) := by
  unfold execEvradFlitCrcFail
  repeat' first
    | with_reducible apply goes_next | (show Goes s0 _; split) | with_reducible assumption
    | ((try lift_lets); intro x; clear_value x) | with_reducible apply keeps_updChan | with_reducible apply keeps_inc
    | with_reducible apply keeps_letGo | with_reducible apply keeps_retrainChan

theorem keeps_execEvradWireFault {s0 s : State} {channel wire} (hk : Keeps s0 s) :
    Goes s0 (execEvradWireFault channel wire s) := by
  unfold execEvradWireFault
  repeat' first
    | with_reducible apply goes_next | (show Goes s0 _; split) | with_reducible assumption
    | ((try lift_lets); intro x; clear_value x) | with_reducible apply keeps_updChan | with_reducible apply keeps_letGo
    | with_reducible apply keeps_chanFailed

theorem keeps_moveWires {s0 s : State} {n wires up} (hf1 : ∀ t, Keeps s0 t → Keeps s0 (up t)) (hk : Keeps s0 s) :
    Keeps s0 (State.moveWires s n wires up) := by
  unfold State.moveWires
  repeat' first
    | with_reducible assumption
    | ((try lift_lets); intro x; refine (?_ : Keeps s0 x → _) ?_; (clear_value x; intro hx); (rotate_left; subst x; rotate_right))
    | ((try lift_lets); intro x; clear_value x) | with_reducible apply keeps_wr | with_reducible apply keeps_add
    | with_reducible apply keeps_updChan | with_reducible apply keeps_chanFailed | with_reducible apply keeps_protFollow
    | with_reducible apply hf1 | split

theorem keeps_execEvradRetrainEnd {s0 s : State} {channel outage} (hk : Keeps s0 s) :
    Goes s0 (execEvradRetrainEnd channel outage s) := by
  unfold execEvradRetrainEnd
  repeat' first
    | with_reducible apply goes_next | (show Goes s0 _; split) | with_reducible assumption
    | ((try lift_lets); intro x; clear_value x) | (intro _) | with_reducible apply keeps_wr | with_reducible apply keeps_letGo
    | with_reducible apply keeps_moveWires | with_reducible apply keeps_raise

theorem keeps_execEvradTrainingEnd {s0 s : State} {badWires} (hk : Keeps s0 s) : Goes s0 (execEvradTrainingEnd badWires s) := by
  unfold execEvradTrainingEnd
  repeat' first
    | with_reducible apply goes_next | with_reducible assumption | (show Keeps s0 _; dsimp only [id]; with_reducible assumption)
    | (intro _) | with_reducible apply keeps_moveWires | (with_reducible apply keeps_foldl; intro _ _ _) | split

theorem keeps_brokenRun {s0 s : State} (hk : Keeps s0 s) : Keeps s0 (State.brokenRun s) := by
  unfold State.brokenRun
  repeat' first | with_reducible assumption | with_reducible apply keeps_updFw | exact floors_same rfl rfl rfl | split

theorem keeps_execMcWdt {s0 s : State} (hk : Keeps s0 s) : Goes s0 (execMcWdt s) := by
  unfold execMcWdt
  repeat' first
    | with_reducible apply goes_next | (show Goes s0 _; split) | with_reducible assumption
    | with_reducible apply keeps_brokenRun | with_reducible apply keeps_requestReset | with_reducible apply keeps_updFw
    | exact floors_same rfl rfl rfl

theorem keeps_fallBack {s0 s : State} {slot reason} (hk : Keeps s0 s) : Keeps s0 (State.fallBack s slot reason) := by
  unfold State.fallBack
  repeat' first
    | with_reducible assumption | with_reducible apply keeps_wr | with_reducible apply keeps_writeBootRecord
    | exact floors_same rfl rfl rfl

theorem keeps_trialStep {s0 s : State} (hk : Keeps s0 s) : Keeps s0 (State.trialStep s) := by
  unfold State.trialStep
  repeat' first
    | with_reducible assumption | with_reducible apply keeps_fallBack | with_reducible apply keeps_writeBootRecord
    | exact floors_same rfl rfl rfl | split

theorem keeps_bootFails {s0 s : State} {state reason} (hk : Keeps s0 s) : Keeps s0 (State.bootFails s state reason) := by
  unfold State.bootFails
  repeat' first | with_reducible assumption | with_reducible apply keeps_wr | split | (with_reducible apply keeps_mk)

theorem keeps_startImage {s0 s : State} {slot trial} (hk : Keeps s0 s) : Keeps s0 (State.startImage s slot trial) := by
  unfold State.startImage
  repeat' first
    | with_reducible assumption | with_reducible apply keeps_wr | with_reducible apply keeps_loadEntries
    | with_reducible apply keeps_updFw | with_reducible apply keeps_updStore | with_reducible apply keeps_raise
    | exact floors_same rfl rfl rfl | split | (with_reducible apply keeps_mk)

theorem keeps_bootFrom {s0 s : State} (hk : Keeps s0 s) : Keeps s0 (State.bootFrom s) := by
  unfold State.bootFrom
  repeat' first
    | with_reducible assumption
    | ((try lift_lets); intro x; refine (?_ : Keeps s0 x → _) ?_; (clear_value x; intro hx); (rotate_left; subst x; rotate_right))
    | ((try lift_lets); intro x; refine (?_ : Keeps s0 x.2.1 → _) ?_; (clear_value x; intro hx); (rotate_left; subst x; rotate_right))
    | ((try lift_lets); intro x; clear_value x) | with_reducible apply keeps_bootFails | with_reducible apply keeps_fallBack
    | with_reducible apply keeps_startImage | split

theorem keeps_storeFound {s0 s : State} {n good} (hk : Keeps s0 s) : Keeps s0 (State.storeFound s n good) := by
  unfold State.storeFound
  repeat' first | with_reducible assumption | with_reducible apply keeps_updStore | split

theorem keeps_execBootSelect {s0 s : State} {flashAnswers storeGoodA storeGoodB} (hk : Keeps s0 s) :
    Goes s0 (execBootSelect flashAnswers storeGoodA storeGoodB s) := by
  unfold execBootSelect
  repeat' first
    | with_reducible apply goes_next | (show Goes s0 _; split) | with_reducible assumption
    | ((try lift_lets); intro x; refine (?_ : Keeps s0 x.2 → _) ?_; (clear_value x; intro hx); (rotate_left; subst x; rotate_right))
    | with_reducible apply keeps_bootFails | with_reducible apply keeps_bootFrom | with_reducible apply keeps_trialStep
    | with_reducible apply keeps_storeFound | with_reducible apply keeps_brokenRun

theorem keeps_pclkTick {s0 s : State} (hk : Keeps s0 s) : Keeps s0 (State.pclkTick s) := by
  unfold State.pclkTick
  repeat' first
    | with_reducible assumption
    | ((try lift_lets); intro x; refine (?_ : Keeps s0 x → _) ?_; (clear_value x; intro hx); (rotate_left; subst x; rotate_right))
    | with_reducible apply keeps_qdrTick | with_reducible apply keeps_recordWritten | with_reducible apply keeps_wr | split

theorem keeps_pipeTick {s0 s : State} (hk : Keeps s0 s) : Keeps s0 (State.pipeTick s) := by
  unfold State.pipeTick
  repeat' first
    | with_reducible assumption | with_reducible apply keeps_sweepTick | with_reducible apply keeps_flushTick
    | with_reducible apply keeps_chainTick | with_reducible apply keeps_polTick | with_reducible apply keeps_stallTick
    | with_reducible apply keeps_fabTick | with_reducible apply keeps_schedTick | with_reducible apply keeps_commitTick
    | with_reducible apply keeps_coreTick | with_reducible apply keeps_bufTick

theorem keeps_tick {s0 s : State} (hk : Keeps s0 s) : Keeps s0 (State.tick s) := by
  unfold State.tick
  repeat' first
    | with_reducible assumption
    | ((try lift_lets); intro x; refine (?_ : Keeps s0 x → _) ?_; (clear_value x; intro hx); (rotate_left; subst x; rotate_right))
    | with_reducible apply keeps_pclkTick | with_reducible apply keeps_todTick | with_reducible apply keeps_pipeTick
    | with_reducible apply keeps_updPwr | with_reducible apply keeps_slotTick | with_reducible apply keeps_perfTick
    | with_reducible apply keeps_ltTick | split | (with_reducible apply keeps_mk)

end Sys2Proof.Machine
end

