-- ==== Sys2Proof/Laws/State.lean ====
section
/-!
SUPPORT. What each update of the state leaves alone: one lemma per update, whose clauses are one equation per field, so that no proof
unfolds a record update.
-/

namespace Sys2Proof.Machine

@[simp] theorem wr_frame (s : State) (k v : Nat) :
    (s.wr k v).pending = s.pending ∧ (s.wr k v).ticks = s.ticks ∧ (s.wr k v).free = s.free ∧ (s.wr k v).draws = s.draws ∧
    (s.wr k v).out = s.out ∧ (s.wr k v).mcState = s.mcState ∧ (s.wr k v).failReason = s.failReason ∧ (s.wr k v).svc = s.svc ∧
    (s.wr k v).fns = s.fns ∧ (s.wr k v).ev = s.ev ∧ (s.wr k v).pwr = s.pwr ∧ (s.wr k v).host = s.host ∧
    (s.wr k v).line = s.line ∧ (s.wr k v).otn = s.otn ∧ (s.wr k v).pk = s.pk ∧ (s.wr k v).fwd = s.fwd ∧
    (s.wr k v).asc = s.asc ∧ (s.wr k v).perf = s.perf ∧ (s.wr k v).prot = s.prot ∧ (s.wr k v).buf = s.buf ∧
    (s.wr k v).bpm = s.bpm ∧ (s.wr k v).lt = s.lt ∧ (s.wr k v).swc = s.swc ∧ (s.wr k v).sched = s.sched ∧
    (s.wr k v).pol = s.pol ∧ (s.wr k v).fab = s.fab ∧ (s.wr k v).hbm = s.hbm ∧ (s.wr k v).qdr = s.qdr ∧
    (s.wr k v).tap = s.tap ∧ (s.wr k v).fw = s.fw := by
  refine ⟨rfl, rfl, rfl, rfl, rfl, rfl, rfl, rfl, rfl, rfl, rfl, rfl, rfl, rfl, rfl, rfl, rfl, rfl, rfl, rfl, rfl, rfl, rfl, rfl, rfl, rfl, rfl, rfl, rfl, rfl⟩

@[simp] theorem toDflt_frame (s : State) (k : Nat) :
    (s.toDflt k).pending = s.pending ∧ (s.toDflt k).ticks = s.ticks ∧ (s.toDflt k).free = s.free ∧
    (s.toDflt k).draws = s.draws ∧ (s.toDflt k).out = s.out ∧ (s.toDflt k).mcState = s.mcState ∧
    (s.toDflt k).failReason = s.failReason ∧ (s.toDflt k).svc = s.svc ∧ (s.toDflt k).fns = s.fns ∧ (s.toDflt k).ev = s.ev ∧
    (s.toDflt k).pwr = s.pwr ∧ (s.toDflt k).host = s.host ∧ (s.toDflt k).line = s.line ∧ (s.toDflt k).otn = s.otn ∧
    (s.toDflt k).pk = s.pk ∧ (s.toDflt k).fwd = s.fwd ∧ (s.toDflt k).asc = s.asc ∧ (s.toDflt k).perf = s.perf ∧
    (s.toDflt k).prot = s.prot ∧ (s.toDflt k).buf = s.buf ∧ (s.toDflt k).bpm = s.bpm ∧ (s.toDflt k).lt = s.lt ∧
    (s.toDflt k).swc = s.swc ∧ (s.toDflt k).sched = s.sched ∧ (s.toDflt k).pol = s.pol ∧ (s.toDflt k).fab = s.fab ∧
    (s.toDflt k).hbm = s.hbm ∧ (s.toDflt k).qdr = s.qdr ∧ (s.toDflt k).tap = s.tap ∧ (s.toDflt k).fw = s.fw := by
  refine ⟨rfl, rfl, rfl, rfl, rfl, rfl, rfl, rfl, rfl, rfl, rfl, rfl, rfl, rfl, rfl, rfl, rfl, rfl, rfl, rfl, rfl, rfl, rfl, rfl, rfl, rfl, rfl, rfl, rfl, rfl⟩

@[simp] theorem add_frame (s : State) (k n : Nat) :
    (s.add k n).pending = s.pending ∧ (s.add k n).ticks = s.ticks ∧ (s.add k n).free = s.free ∧ (s.add k n).draws = s.draws ∧
    (s.add k n).out = s.out ∧ (s.add k n).mcState = s.mcState ∧ (s.add k n).failReason = s.failReason ∧
    (s.add k n).svc = s.svc ∧ (s.add k n).fns = s.fns ∧ (s.add k n).ev = s.ev ∧ (s.add k n).pwr = s.pwr ∧
    (s.add k n).host = s.host ∧ (s.add k n).line = s.line ∧ (s.add k n).otn = s.otn ∧ (s.add k n).pk = s.pk ∧
    (s.add k n).fwd = s.fwd ∧ (s.add k n).asc = s.asc ∧ (s.add k n).perf = s.perf ∧ (s.add k n).prot = s.prot ∧
    (s.add k n).buf = s.buf ∧ (s.add k n).bpm = s.bpm ∧ (s.add k n).lt = s.lt ∧ (s.add k n).swc = s.swc ∧
    (s.add k n).sched = s.sched ∧ (s.add k n).pol = s.pol ∧ (s.add k n).fab = s.fab ∧ (s.add k n).hbm = s.hbm ∧
    (s.add k n).qdr = s.qdr ∧ (s.add k n).tap = s.tap ∧ (s.add k n).fw = s.fw := by
  refine ⟨rfl, rfl, rfl, rfl, rfl, rfl, rfl, rfl, rfl, rfl, rfl, rfl, rfl, rfl, rfl, rfl, rfl, rfl, rfl, rfl, rfl, rfl, rfl, rfl, rfl, rfl, rfl, rfl, rfl, rfl⟩

@[simp] theorem inc_frame (s : State) (k : Nat) :
    (s.inc k).pending = s.pending ∧ (s.inc k).ticks = s.ticks ∧ (s.inc k).free = s.free ∧ (s.inc k).draws = s.draws ∧
    (s.inc k).out = s.out ∧ (s.inc k).mcState = s.mcState ∧ (s.inc k).failReason = s.failReason ∧ (s.inc k).svc = s.svc ∧
    (s.inc k).fns = s.fns ∧ (s.inc k).ev = s.ev ∧ (s.inc k).pwr = s.pwr ∧ (s.inc k).host = s.host ∧ (s.inc k).line = s.line ∧
    (s.inc k).otn = s.otn ∧ (s.inc k).pk = s.pk ∧ (s.inc k).fwd = s.fwd ∧ (s.inc k).asc = s.asc ∧ (s.inc k).perf = s.perf ∧
    (s.inc k).prot = s.prot ∧ (s.inc k).buf = s.buf ∧ (s.inc k).bpm = s.bpm ∧ (s.inc k).lt = s.lt ∧ (s.inc k).swc = s.swc ∧
    (s.inc k).sched = s.sched ∧ (s.inc k).pol = s.pol ∧ (s.inc k).fab = s.fab ∧ (s.inc k).hbm = s.hbm ∧
    (s.inc k).qdr = s.qdr ∧ (s.inc k).tap = s.tap ∧ (s.inc k).fw = s.fw := by
  refine ⟨rfl, rfl, rfl, rfl, rfl, rfl, rfl, rfl, rfl, rfl, rfl, rfl, rfl, rfl, rfl, rfl, rfl, rfl, rfl, rfl, rfl, rfl, rfl, rfl, rfl, rfl, rfl, rfl, rfl, rfl⟩

@[simp] theorem wrS_frame (s : State) (k : Nat) (v : Int) :
    (s.wrS k v).pending = s.pending ∧ (s.wrS k v).ticks = s.ticks ∧ (s.wrS k v).free = s.free ∧ (s.wrS k v).draws = s.draws ∧
    (s.wrS k v).out = s.out ∧ (s.wrS k v).mcState = s.mcState ∧ (s.wrS k v).failReason = s.failReason ∧
    (s.wrS k v).svc = s.svc ∧ (s.wrS k v).fns = s.fns ∧ (s.wrS k v).ev = s.ev ∧ (s.wrS k v).pwr = s.pwr ∧
    (s.wrS k v).host = s.host ∧ (s.wrS k v).line = s.line ∧ (s.wrS k v).otn = s.otn ∧ (s.wrS k v).pk = s.pk ∧
    (s.wrS k v).fwd = s.fwd ∧ (s.wrS k v).asc = s.asc ∧ (s.wrS k v).perf = s.perf ∧ (s.wrS k v).prot = s.prot ∧
    (s.wrS k v).buf = s.buf ∧ (s.wrS k v).bpm = s.bpm ∧ (s.wrS k v).lt = s.lt ∧ (s.wrS k v).swc = s.swc ∧
    (s.wrS k v).sched = s.sched ∧ (s.wrS k v).pol = s.pol ∧ (s.wrS k v).fab = s.fab ∧ (s.wrS k v).hbm = s.hbm ∧
    (s.wrS k v).qdr = s.qdr ∧ (s.wrS k v).tap = s.tap ∧ (s.wrS k v).fw = s.fw := by
  refine ⟨rfl, rfl, rfl, rfl, rfl, rfl, rfl, rfl, rfl, rfl, rfl, rfl, rfl, rfl, rfl, rfl, rfl, rfl, rfl, rfl, rfl, rfl, rfl, rfl, rfl, rfl, rfl, rfl, rfl, rfl⟩

@[simp] theorem wrSt_frame (s : State) (k : Nat) (st : Status) :
    (s.wrSt k st).pending = s.pending ∧ (s.wrSt k st).ticks = s.ticks ∧ (s.wrSt k st).free = s.free ∧
    (s.wrSt k st).draws = s.draws ∧ (s.wrSt k st).out = s.out ∧ (s.wrSt k st).mcState = s.mcState ∧
    (s.wrSt k st).failReason = s.failReason ∧ (s.wrSt k st).svc = s.svc ∧ (s.wrSt k st).fns = s.fns ∧
    (s.wrSt k st).ev = s.ev ∧ (s.wrSt k st).pwr = s.pwr ∧ (s.wrSt k st).host = s.host ∧ (s.wrSt k st).line = s.line ∧
    (s.wrSt k st).otn = s.otn ∧ (s.wrSt k st).pk = s.pk ∧ (s.wrSt k st).fwd = s.fwd ∧ (s.wrSt k st).asc = s.asc ∧
    (s.wrSt k st).perf = s.perf ∧ (s.wrSt k st).prot = s.prot ∧ (s.wrSt k st).buf = s.buf ∧ (s.wrSt k st).bpm = s.bpm ∧
    (s.wrSt k st).lt = s.lt ∧ (s.wrSt k st).swc = s.swc ∧ (s.wrSt k st).sched = s.sched ∧ (s.wrSt k st).pol = s.pol ∧
    (s.wrSt k st).fab = s.fab ∧ (s.wrSt k st).hbm = s.hbm ∧ (s.wrSt k st).qdr = s.qdr ∧ (s.wrSt k st).tap = s.tap ∧
    (s.wrSt k st).fw = s.fw := by
  refine ⟨rfl, rfl, rfl, rfl, rfl, rfl, rfl, rfl, rfl, rfl, rfl, rfl, rfl, rfl, rfl, rfl, rfl, rfl, rfl, rfl, rfl, rfl, rfl, rfl, rfl, rfl, rfl, rfl, rfl, rfl⟩

@[simp] theorem wrB_frame (s : State) (k : Nat) (l : List Byte) :
    (s.wrB k l).pending = s.pending ∧ (s.wrB k l).ticks = s.ticks ∧ (s.wrB k l).free = s.free ∧ (s.wrB k l).draws = s.draws ∧
    (s.wrB k l).out = s.out ∧ (s.wrB k l).mcState = s.mcState ∧ (s.wrB k l).failReason = s.failReason ∧
    (s.wrB k l).svc = s.svc ∧ (s.wrB k l).fns = s.fns ∧ (s.wrB k l).ev = s.ev ∧ (s.wrB k l).pwr = s.pwr ∧
    (s.wrB k l).host = s.host ∧ (s.wrB k l).line = s.line ∧ (s.wrB k l).otn = s.otn ∧ (s.wrB k l).pk = s.pk ∧
    (s.wrB k l).fwd = s.fwd ∧ (s.wrB k l).asc = s.asc ∧ (s.wrB k l).perf = s.perf ∧ (s.wrB k l).prot = s.prot ∧
    (s.wrB k l).buf = s.buf ∧ (s.wrB k l).bpm = s.bpm ∧ (s.wrB k l).lt = s.lt ∧ (s.wrB k l).swc = s.swc ∧
    (s.wrB k l).sched = s.sched ∧ (s.wrB k l).pol = s.pol ∧ (s.wrB k l).fab = s.fab ∧ (s.wrB k l).hbm = s.hbm ∧
    (s.wrB k l).qdr = s.qdr ∧ (s.wrB k l).tap = s.tap ∧ (s.wrB k l).fw = s.fw := by
  refine ⟨rfl, rfl, rfl, rfl, rfl, rfl, rfl, rfl, rfl, rfl, rfl, rfl, rfl, rfl, rfl, rfl, rfl, rfl, rfl, rfl, rfl, rfl, rfl, rfl, rfl, rfl, rfl, rfl, rfl, rfl⟩

@[simp] theorem setFn_frame (s : State) (f : Fn) (v : Nat) :
    (s.setFn f v).pending = s.pending ∧ (s.setFn f v).ticks = s.ticks ∧ (s.setFn f v).free = s.free ∧
    (s.setFn f v).draws = s.draws ∧ (s.setFn f v).out = s.out ∧ (s.setFn f v).mcState = s.mcState ∧
    (s.setFn f v).failReason = s.failReason ∧ (s.setFn f v).svc = s.svc ∧ (s.setFn f v).fns = s.fns ∧
    (s.setFn f v).ev = s.ev ∧ (s.setFn f v).pwr = s.pwr ∧ (s.setFn f v).host = s.host ∧ (s.setFn f v).line = s.line ∧
    (s.setFn f v).otn = s.otn ∧ (s.setFn f v).pk = s.pk ∧ (s.setFn f v).fwd = s.fwd ∧ (s.setFn f v).asc = s.asc ∧
    (s.setFn f v).perf = s.perf ∧ (s.setFn f v).prot = s.prot ∧ (s.setFn f v).buf = s.buf ∧ (s.setFn f v).bpm = s.bpm ∧
    (s.setFn f v).lt = s.lt ∧ (s.setFn f v).swc = s.swc ∧ (s.setFn f v).sched = s.sched ∧ (s.setFn f v).pol = s.pol ∧
    (s.setFn f v).fab = s.fab ∧ (s.setFn f v).hbm = s.hbm ∧ (s.setFn f v).qdr = s.qdr ∧ (s.setFn f v).tap = s.tap ∧
    (s.setFn f v).fw = s.fw := by
  refine ⟨rfl, rfl, rfl, rfl, rfl, rfl, rfl, rfl, rfl, rfl, rfl, rfl, rfl, rfl, rfl, rfl, rfl, rfl, rfl, rfl, rfl, rfl, rfl, rfl, rfl, rfl, rfl, rfl, rfl, rfl⟩

@[simp] theorem emit_frame (s : State) (o : Out) :
    (s.emit o).pending = s.pending ∧ (s.emit o).ticks = s.ticks ∧ (s.emit o).free = s.free ∧ (s.emit o).draws = s.draws ∧
    (s.emit o).objs = s.objs ∧ (s.emit o).mcState = s.mcState ∧ (s.emit o).failReason = s.failReason ∧
    (s.emit o).svc = s.svc ∧ (s.emit o).fns = s.fns ∧ (s.emit o).ev = s.ev ∧ (s.emit o).pwr = s.pwr ∧
    (s.emit o).host = s.host ∧ (s.emit o).line = s.line ∧ (s.emit o).otn = s.otn ∧ (s.emit o).pk = s.pk ∧
    (s.emit o).fwd = s.fwd ∧ (s.emit o).asc = s.asc ∧ (s.emit o).perf = s.perf ∧ (s.emit o).prot = s.prot ∧
    (s.emit o).buf = s.buf ∧ (s.emit o).bpm = s.bpm ∧ (s.emit o).lt = s.lt ∧ (s.emit o).swc = s.swc ∧
    (s.emit o).sched = s.sched ∧ (s.emit o).pol = s.pol ∧ (s.emit o).fab = s.fab ∧ (s.emit o).hbm = s.hbm ∧
    (s.emit o).qdr = s.qdr ∧ (s.emit o).tap = s.tap ∧ (s.emit o).fw = s.fw ∧ (∀ j, (s.emit o).rd j = s.rd j) := by
  refine ⟨rfl, rfl, rfl, rfl, rfl, rfl, rfl, rfl, rfl, rfl, rfl, rfl, rfl, rfl, rfl, rfl, rfl, rfl, rfl, rfl, rfl, rfl, rfl, rfl, rfl, rfl, rfl, rfl, rfl, rfl, fun _ => rfl⟩

@[simp] theorem updFn_frame (s : State) (f : Fn) (g : FnSt → FnSt) :
    (s.updFn f g).pending = s.pending ∧ (s.updFn f g).ticks = s.ticks ∧ (s.updFn f g).free = s.free ∧
    (s.updFn f g).draws = s.draws ∧ (s.updFn f g).out = s.out ∧ (s.updFn f g).objs = s.objs ∧
    (s.updFn f g).mcState = s.mcState ∧ (s.updFn f g).failReason = s.failReason ∧ (s.updFn f g).svc = s.svc ∧
    (s.updFn f g).ev = s.ev ∧ (s.updFn f g).pwr = s.pwr ∧ (s.updFn f g).host = s.host ∧ (s.updFn f g).line = s.line ∧
    (s.updFn f g).otn = s.otn ∧ (s.updFn f g).pk = s.pk ∧ (s.updFn f g).fwd = s.fwd ∧ (s.updFn f g).asc = s.asc ∧
    (s.updFn f g).perf = s.perf ∧ (s.updFn f g).prot = s.prot ∧ (s.updFn f g).buf = s.buf ∧ (s.updFn f g).bpm = s.bpm ∧
    (s.updFn f g).lt = s.lt ∧ (s.updFn f g).swc = s.swc ∧ (s.updFn f g).sched = s.sched ∧ (s.updFn f g).pol = s.pol ∧
    (s.updFn f g).fab = s.fab ∧ (s.updFn f g).hbm = s.hbm ∧ (s.updFn f g).qdr = s.qdr ∧ (s.updFn f g).tap = s.tap ∧
    (s.updFn f g).fw = s.fw ∧ (∀ j, (s.updFn f g).rd j = s.rd j) := by
  refine ⟨rfl, rfl, rfl, rfl, rfl, rfl, rfl, rfl, rfl, rfl, rfl, rfl, rfl, rfl, rfl, rfl, rfl, rfl, rfl, rfl, rfl, rfl, rfl, rfl, rfl, rfl, rfl, rfl, rfl, rfl, fun _ => rfl⟩

@[simp] theorem updVec_frame (s : State) (v : Nat) (f : Vector → Vector) :
    (s.updVec v f).pending = s.pending ∧ (s.updVec v f).ticks = s.ticks ∧ (s.updVec v f).free = s.free ∧
    (s.updVec v f).draws = s.draws ∧ (s.updVec v f).out = s.out ∧ (s.updVec v f).objs = s.objs ∧
    (s.updVec v f).mcState = s.mcState ∧ (s.updVec v f).failReason = s.failReason ∧ (s.updVec v f).svc = s.svc ∧
    (s.updVec v f).fns = s.fns ∧ (s.updVec v f).ev = s.ev ∧ (s.updVec v f).pwr = s.pwr ∧ (s.updVec v f).line = s.line ∧
    (s.updVec v f).otn = s.otn ∧ (s.updVec v f).pk = s.pk ∧ (s.updVec v f).fwd = s.fwd ∧ (s.updVec v f).asc = s.asc ∧
    (s.updVec v f).perf = s.perf ∧ (s.updVec v f).prot = s.prot ∧ (s.updVec v f).buf = s.buf ∧ (s.updVec v f).bpm = s.bpm ∧
    (s.updVec v f).lt = s.lt ∧ (s.updVec v f).swc = s.swc ∧ (s.updVec v f).sched = s.sched ∧ (s.updVec v f).pol = s.pol ∧
    (s.updVec v f).fab = s.fab ∧ (s.updVec v f).hbm = s.hbm ∧ (s.updVec v f).qdr = s.qdr ∧ (s.updVec v f).tap = s.tap ∧
    (s.updVec v f).fw = s.fw ∧ (∀ j, (s.updVec v f).rd j = s.rd j) := by
  refine ⟨rfl, rfl, rfl, rfl, rfl, rfl, rfl, rfl, rfl, rfl, rfl, rfl, rfl, rfl, rfl, rfl, rfl, rfl, rfl, rfl, rfl, rfl, rfl, rfl, rfl, rfl, rfl, rfl, rfl, rfl, fun _ => rfl⟩

@[simp] theorem updRing_frame (s : State) (r : Nat) (f : EvRing → EvRing) :
    (s.updRing r f).pending = s.pending ∧ (s.updRing r f).ticks = s.ticks ∧ (s.updRing r f).free = s.free ∧
    (s.updRing r f).draws = s.draws ∧ (s.updRing r f).out = s.out ∧ (s.updRing r f).objs = s.objs ∧
    (s.updRing r f).mcState = s.mcState ∧ (s.updRing r f).failReason = s.failReason ∧ (s.updRing r f).svc = s.svc ∧
    (s.updRing r f).fns = s.fns ∧ (s.updRing r f).ev = s.ev ∧ (s.updRing r f).pwr = s.pwr ∧ (s.updRing r f).line = s.line ∧
    (s.updRing r f).otn = s.otn ∧ (s.updRing r f).pk = s.pk ∧ (s.updRing r f).fwd = s.fwd ∧ (s.updRing r f).asc = s.asc ∧
    (s.updRing r f).perf = s.perf ∧ (s.updRing r f).prot = s.prot ∧ (s.updRing r f).buf = s.buf ∧
    (s.updRing r f).bpm = s.bpm ∧ (s.updRing r f).lt = s.lt ∧ (s.updRing r f).swc = s.swc ∧ (s.updRing r f).sched = s.sched ∧
    (s.updRing r f).pol = s.pol ∧ (s.updRing r f).fab = s.fab ∧ (s.updRing r f).hbm = s.hbm ∧ (s.updRing r f).qdr = s.qdr ∧
    (s.updRing r f).tap = s.tap ∧ (s.updRing r f).fw = s.fw ∧ (∀ j, (s.updRing r f).rd j = s.rd j) := by
  refine ⟨rfl, rfl, rfl, rfl, rfl, rfl, rfl, rfl, rfl, rfl, rfl, rfl, rfl, rfl, rfl, rfl, rfl, rfl, rfl, rfl, rfl, rfl, rfl, rfl, rfl, rfl, rfl, rfl, rfl, rfl, fun _ => rfl⟩

@[simp] theorem updD_frame (s : State) (n : Nat) (f : DRing → DRing) :
    (s.updD n f).pending = s.pending ∧ (s.updD n f).ticks = s.ticks ∧ (s.updD n f).free = s.free ∧
    (s.updD n f).draws = s.draws ∧ (s.updD n f).out = s.out ∧ (s.updD n f).objs = s.objs ∧ (s.updD n f).mcState = s.mcState ∧
    (s.updD n f).failReason = s.failReason ∧ (s.updD n f).svc = s.svc ∧ (s.updD n f).fns = s.fns ∧ (s.updD n f).ev = s.ev ∧
    (s.updD n f).pwr = s.pwr ∧ (s.updD n f).line = s.line ∧ (s.updD n f).otn = s.otn ∧ (s.updD n f).pk = s.pk ∧
    (s.updD n f).fwd = s.fwd ∧ (s.updD n f).asc = s.asc ∧ (s.updD n f).perf = s.perf ∧ (s.updD n f).prot = s.prot ∧
    (s.updD n f).buf = s.buf ∧ (s.updD n f).bpm = s.bpm ∧ (s.updD n f).lt = s.lt ∧ (s.updD n f).swc = s.swc ∧
    (s.updD n f).sched = s.sched ∧ (s.updD n f).pol = s.pol ∧ (s.updD n f).fab = s.fab ∧ (s.updD n f).hbm = s.hbm ∧
    (s.updD n f).qdr = s.qdr ∧ (s.updD n f).tap = s.tap ∧ (s.updD n f).fw = s.fw ∧ (∀ j, (s.updD n f).rd j = s.rd j) := by
  refine ⟨rfl, rfl, rfl, rfl, rfl, rfl, rfl, rfl, rfl, rfl, rfl, rfl, rfl, rfl, rfl, rfl, rfl, rfl, rfl, rfl, rfl, rfl, rfl, rfl, rfl, rfl, rfl, rfl, rfl, rfl, fun _ => rfl⟩

@[simp] theorem updReads_frame (s : State) (f : NMap ReadReq → NMap ReadReq) :
    (s.updReads f).pending = s.pending ∧ (s.updReads f).ticks = s.ticks ∧ (s.updReads f).free = s.free ∧
    (s.updReads f).draws = s.draws ∧ (s.updReads f).out = s.out ∧ (s.updReads f).objs = s.objs ∧
    (s.updReads f).mcState = s.mcState ∧ (s.updReads f).failReason = s.failReason ∧ (s.updReads f).svc = s.svc ∧
    (s.updReads f).fns = s.fns ∧ (s.updReads f).ev = s.ev ∧ (s.updReads f).pwr = s.pwr ∧ (s.updReads f).line = s.line ∧
    (s.updReads f).otn = s.otn ∧ (s.updReads f).pk = s.pk ∧ (s.updReads f).fwd = s.fwd ∧ (s.updReads f).asc = s.asc ∧
    (s.updReads f).perf = s.perf ∧ (s.updReads f).prot = s.prot ∧ (s.updReads f).buf = s.buf ∧ (s.updReads f).bpm = s.bpm ∧
    (s.updReads f).lt = s.lt ∧ (s.updReads f).swc = s.swc ∧ (s.updReads f).sched = s.sched ∧ (s.updReads f).pol = s.pol ∧
    (s.updReads f).fab = s.fab ∧ (s.updReads f).hbm = s.hbm ∧ (s.updReads f).qdr = s.qdr ∧ (s.updReads f).tap = s.tap ∧
    (s.updReads f).fw = s.fw ∧ (∀ j, (s.updReads f).rd j = s.rd j) := by
  refine ⟨rfl, rfl, rfl, rfl, rfl, rfl, rfl, rfl, rfl, rfl, rfl, rfl, rfl, rfl, rfl, rfl, rfl, rfl, rfl, rfl, rfl, rfl, rfl, rfl, rfl, rfl, rfl, rfl, rfl, rfl, fun _ => rfl⟩

@[simp] theorem orphan_frame (s : State) (n : Nat) :
    (s.orphan n).pending = s.pending ∧ (s.orphan n).ticks = s.ticks ∧ (s.orphan n).free = s.free ∧
    (s.orphan n).draws = s.draws ∧ (s.orphan n).out = s.out ∧ (s.orphan n).objs = s.objs ∧ (s.orphan n).mcState = s.mcState ∧
    (s.orphan n).failReason = s.failReason ∧ (s.orphan n).svc = s.svc ∧ (s.orphan n).fns = s.fns ∧ (s.orphan n).ev = s.ev ∧
    (s.orphan n).pwr = s.pwr ∧ (s.orphan n).line = s.line ∧ (s.orphan n).otn = s.otn ∧ (s.orphan n).pk = s.pk ∧
    (s.orphan n).fwd = s.fwd ∧ (s.orphan n).asc = s.asc ∧ (s.orphan n).perf = s.perf ∧ (s.orphan n).prot = s.prot ∧
    (s.orphan n).buf = s.buf ∧ (s.orphan n).bpm = s.bpm ∧ (s.orphan n).lt = s.lt ∧ (s.orphan n).swc = s.swc ∧
    (s.orphan n).sched = s.sched ∧ (s.orphan n).pol = s.pol ∧ (s.orphan n).fab = s.fab ∧ (s.orphan n).hbm = s.hbm ∧
    (s.orphan n).qdr = s.qdr ∧ (s.orphan n).tap = s.tap ∧ (s.orphan n).fw = s.fw ∧ (∀ j, (s.orphan n).rd j = s.rd j) := by
  refine ⟨rfl, rfl, rfl, rfl, rfl, rfl, rfl, rfl, rfl, rfl, rfl, rfl, rfl, rfl, rfl, rfl, rfl, rfl, rfl, rfl, rfl, rfl, rfl, rfl, rfl, rfl, rfl, rfl, rfl, rfl, fun _ => rfl⟩

@[simp] theorem updFwd_frame (s : State) (f : FwdSt → FwdSt) :
    (s.updFwd f).pending = s.pending ∧ (s.updFwd f).ticks = s.ticks ∧ (s.updFwd f).free = s.free ∧
    (s.updFwd f).draws = s.draws ∧ (s.updFwd f).out = s.out ∧ (s.updFwd f).objs = s.objs ∧ (s.updFwd f).mcState = s.mcState ∧
    (s.updFwd f).failReason = s.failReason ∧ (s.updFwd f).svc = s.svc ∧ (s.updFwd f).fns = s.fns ∧ (s.updFwd f).ev = s.ev ∧
    (s.updFwd f).pwr = s.pwr ∧ (s.updFwd f).host = s.host ∧ (s.updFwd f).line = s.line ∧ (s.updFwd f).otn = s.otn ∧
    (s.updFwd f).pk = s.pk ∧ (s.updFwd f).asc = s.asc ∧ (s.updFwd f).perf = s.perf ∧ (s.updFwd f).prot = s.prot ∧
    (s.updFwd f).buf = s.buf ∧ (s.updFwd f).bpm = s.bpm ∧ (s.updFwd f).lt = s.lt ∧ (s.updFwd f).swc = s.swc ∧
    (s.updFwd f).sched = s.sched ∧ (s.updFwd f).pol = s.pol ∧ (s.updFwd f).fab = s.fab ∧ (s.updFwd f).hbm = s.hbm ∧
    (s.updFwd f).qdr = s.qdr ∧ (s.updFwd f).tap = s.tap ∧ (s.updFwd f).fw = s.fw ∧ (∀ j, (s.updFwd f).rd j = s.rd j) := by
  refine ⟨rfl, rfl, rfl, rfl, rfl, rfl, rfl, rfl, rfl, rfl, rfl, rfl, rfl, rfl, rfl, rfl, rfl, rfl, rfl, rfl, rfl, rfl, rfl, rfl, rfl, rfl, rfl, rfl, rfl, rfl, fun _ => rfl⟩

@[simp] theorem updAsc_frame (s : State) (t : Nat) (f : AscTable → AscTable) :
    (s.updAsc t f).pending = s.pending ∧ (s.updAsc t f).ticks = s.ticks ∧ (s.updAsc t f).free = s.free ∧
    (s.updAsc t f).draws = s.draws ∧ (s.updAsc t f).out = s.out ∧ (s.updAsc t f).objs = s.objs ∧
    (s.updAsc t f).mcState = s.mcState ∧ (s.updAsc t f).failReason = s.failReason ∧ (s.updAsc t f).svc = s.svc ∧
    (s.updAsc t f).fns = s.fns ∧ (s.updAsc t f).ev = s.ev ∧ (s.updAsc t f).pwr = s.pwr ∧ (s.updAsc t f).host = s.host ∧
    (s.updAsc t f).line = s.line ∧ (s.updAsc t f).otn = s.otn ∧ (s.updAsc t f).pk = s.pk ∧ (s.updAsc t f).fwd = s.fwd ∧
    (s.updAsc t f).perf = s.perf ∧ (s.updAsc t f).prot = s.prot ∧ (s.updAsc t f).buf = s.buf ∧ (s.updAsc t f).bpm = s.bpm ∧
    (s.updAsc t f).lt = s.lt ∧ (s.updAsc t f).swc = s.swc ∧ (s.updAsc t f).sched = s.sched ∧ (s.updAsc t f).pol = s.pol ∧
    (s.updAsc t f).fab = s.fab ∧ (s.updAsc t f).hbm = s.hbm ∧ (s.updAsc t f).qdr = s.qdr ∧ (s.updAsc t f).tap = s.tap ∧
    (s.updAsc t f).fw = s.fw ∧ (∀ j, (s.updAsc t f).rd j = s.rd j) := by
  refine ⟨rfl, rfl, rfl, rfl, rfl, rfl, rfl, rfl, rfl, rfl, rfl, rfl, rfl, rfl, rfl, rfl, rfl, rfl, rfl, rfl, rfl, rfl, rfl, rfl, rfl, rfl, rfl, rfl, rfl, rfl, fun _ => rfl⟩

@[simp] theorem updGrp_frame (s : State) (g : Nat) (f : OtnGroup → OtnGroup) :
    (s.updGrp g f).pending = s.pending ∧ (s.updGrp g f).ticks = s.ticks ∧ (s.updGrp g f).free = s.free ∧
    (s.updGrp g f).draws = s.draws ∧ (s.updGrp g f).out = s.out ∧ (s.updGrp g f).objs = s.objs ∧
    (s.updGrp g f).mcState = s.mcState ∧ (s.updGrp g f).failReason = s.failReason ∧ (s.updGrp g f).svc = s.svc ∧
    (s.updGrp g f).fns = s.fns ∧ (s.updGrp g f).ev = s.ev ∧ (s.updGrp g f).pwr = s.pwr ∧ (s.updGrp g f).host = s.host ∧
    (s.updGrp g f).line = s.line ∧ (s.updGrp g f).pk = s.pk ∧ (s.updGrp g f).fwd = s.fwd ∧ (s.updGrp g f).asc = s.asc ∧
    (s.updGrp g f).perf = s.perf ∧ (s.updGrp g f).prot = s.prot ∧ (s.updGrp g f).buf = s.buf ∧ (s.updGrp g f).bpm = s.bpm ∧
    (s.updGrp g f).lt = s.lt ∧ (s.updGrp g f).swc = s.swc ∧ (s.updGrp g f).sched = s.sched ∧ (s.updGrp g f).pol = s.pol ∧
    (s.updGrp g f).fab = s.fab ∧ (s.updGrp g f).hbm = s.hbm ∧ (s.updGrp g f).qdr = s.qdr ∧ (s.updGrp g f).tap = s.tap ∧
    (s.updGrp g f).fw = s.fw ∧ (∀ j, (s.updGrp g f).rd j = s.rd j) := by
  refine ⟨rfl, rfl, rfl, rfl, rfl, rfl, rfl, rfl, rfl, rfl, rfl, rfl, rfl, rfl, rfl, rfl, rfl, rfl, rfl, rfl, rfl, rfl, rfl, rfl, rfl, rfl, rfl, rfl, rfl, rfl, fun _ => rfl⟩

@[simp] theorem updClient_frame (s : State) (q : Nat) (f : OtnClient → OtnClient) :
    (s.updClient q f).pending = s.pending ∧ (s.updClient q f).ticks = s.ticks ∧ (s.updClient q f).free = s.free ∧
    (s.updClient q f).draws = s.draws ∧ (s.updClient q f).out = s.out ∧ (s.updClient q f).objs = s.objs ∧
    (s.updClient q f).mcState = s.mcState ∧ (s.updClient q f).failReason = s.failReason ∧ (s.updClient q f).svc = s.svc ∧
    (s.updClient q f).fns = s.fns ∧ (s.updClient q f).ev = s.ev ∧ (s.updClient q f).pwr = s.pwr ∧
    (s.updClient q f).host = s.host ∧ (s.updClient q f).line = s.line ∧ (s.updClient q f).pk = s.pk ∧
    (s.updClient q f).fwd = s.fwd ∧ (s.updClient q f).asc = s.asc ∧ (s.updClient q f).perf = s.perf ∧
    (s.updClient q f).prot = s.prot ∧ (s.updClient q f).buf = s.buf ∧ (s.updClient q f).bpm = s.bpm ∧
    (s.updClient q f).lt = s.lt ∧ (s.updClient q f).swc = s.swc ∧ (s.updClient q f).sched = s.sched ∧
    (s.updClient q f).pol = s.pol ∧ (s.updClient q f).fab = s.fab ∧ (s.updClient q f).hbm = s.hbm ∧
    (s.updClient q f).qdr = s.qdr ∧ (s.updClient q f).tap = s.tap ∧ (s.updClient q f).fw = s.fw ∧
    (∀ j, (s.updClient q f).rd j = s.rd j) := by
  refine ⟨rfl, rfl, rfl, rfl, rfl, rfl, rfl, rfl, rfl, rfl, rfl, rfl, rfl, rfl, rfl, rfl, rfl, rfl, rfl, rfl, rfl, rfl, rfl, rfl, rfl, rfl, rfl, rfl, rfl, rfl, fun _ => rfl⟩

@[simp] theorem setMac_frame (s : State) (p : Nat) (l : List TxFrame) :
    (s.setMac p l).pending = s.pending ∧ (s.setMac p l).ticks = s.ticks ∧ (s.setMac p l).free = s.free ∧
    (s.setMac p l).draws = s.draws ∧ (s.setMac p l).out = s.out ∧ (s.setMac p l).objs = s.objs ∧
    (s.setMac p l).mcState = s.mcState ∧ (s.setMac p l).failReason = s.failReason ∧ (s.setMac p l).svc = s.svc ∧
    (s.setMac p l).fns = s.fns ∧ (s.setMac p l).ev = s.ev ∧ (s.setMac p l).pwr = s.pwr ∧ (s.setMac p l).host = s.host ∧
    (s.setMac p l).line = s.line ∧ (s.setMac p l).otn = s.otn ∧ (s.setMac p l).fwd = s.fwd ∧ (s.setMac p l).asc = s.asc ∧
    (s.setMac p l).perf = s.perf ∧ (s.setMac p l).prot = s.prot ∧ (s.setMac p l).buf = s.buf ∧ (s.setMac p l).bpm = s.bpm ∧
    (s.setMac p l).lt = s.lt ∧ (s.setMac p l).swc = s.swc ∧ (s.setMac p l).sched = s.sched ∧ (s.setMac p l).pol = s.pol ∧
    (s.setMac p l).fab = s.fab ∧ (s.setMac p l).hbm = s.hbm ∧ (s.setMac p l).qdr = s.qdr ∧ (s.setMac p l).tap = s.tap ∧
    (s.setMac p l).fw = s.fw ∧ (∀ j, (s.setMac p l).rd j = s.rd j) := by
  refine ⟨rfl, rfl, rfl, rfl, rfl, rfl, rfl, rfl, rfl, rfl, rfl, rfl, rfl, rfl, rfl, rfl, rfl, rfl, rfl, rfl, rfl, rfl, rfl, rfl, rfl, rfl, rfl, rfl, rfl, rfl, fun _ => rfl⟩

@[simp] theorem updProt_frame (s : State) (f : ProtSt → ProtSt) :
    (s.updProt f).pending = s.pending ∧ (s.updProt f).ticks = s.ticks ∧ (s.updProt f).free = s.free ∧
    (s.updProt f).draws = s.draws ∧ (s.updProt f).out = s.out ∧ (s.updProt f).objs = s.objs ∧
    (s.updProt f).mcState = s.mcState ∧ (s.updProt f).failReason = s.failReason ∧ (s.updProt f).svc = s.svc ∧
    (s.updProt f).fns = s.fns ∧ (s.updProt f).ev = s.ev ∧ (s.updProt f).pwr = s.pwr ∧ (s.updProt f).host = s.host ∧
    (s.updProt f).line = s.line ∧ (s.updProt f).otn = s.otn ∧ (s.updProt f).pk = s.pk ∧ (s.updProt f).fwd = s.fwd ∧
    (s.updProt f).asc = s.asc ∧ (s.updProt f).perf = s.perf ∧ (s.updProt f).buf = s.buf ∧ (s.updProt f).bpm = s.bpm ∧
    (s.updProt f).lt = s.lt ∧ (s.updProt f).swc = s.swc ∧ (s.updProt f).sched = s.sched ∧ (s.updProt f).pol = s.pol ∧
    (s.updProt f).fab = s.fab ∧ (s.updProt f).hbm = s.hbm ∧ (s.updProt f).qdr = s.qdr ∧ (s.updProt f).tap = s.tap ∧
    (s.updProt f).fw = s.fw ∧ (∀ j, (s.updProt f).rd j = s.rd j) := by
  refine ⟨rfl, rfl, rfl, rfl, rfl, rfl, rfl, rfl, rfl, rfl, rfl, rfl, rfl, rfl, rfl, rfl, rfl, rfl, rfl, rfl, rfl, rfl, rfl, rfl, rfl, rfl, rfl, rfl, rfl, rfl, fun _ => rfl⟩

@[simp] theorem upk_frame (s : State) (f : PacketSt → PacketSt) :
    (s.upk f).pending = s.pending ∧ (s.upk f).ticks = s.ticks ∧ (s.upk f).free = s.free ∧ (s.upk f).draws = s.draws ∧
    (s.upk f).out = s.out ∧ (s.upk f).objs = s.objs ∧ (s.upk f).mcState = s.mcState ∧ (s.upk f).failReason = s.failReason ∧
    (s.upk f).svc = s.svc ∧ (s.upk f).fns = s.fns ∧ (s.upk f).ev = s.ev ∧ (s.upk f).pwr = s.pwr ∧ (s.upk f).host = s.host ∧
    (s.upk f).line = s.line ∧ (s.upk f).otn = s.otn ∧ (s.upk f).fwd = s.fwd ∧ (s.upk f).asc = s.asc ∧
    (s.upk f).perf = s.perf ∧ (s.upk f).prot = s.prot ∧ (s.upk f).buf = s.buf ∧ (s.upk f).bpm = s.bpm ∧ (s.upk f).lt = s.lt ∧
    (s.upk f).swc = s.swc ∧ (s.upk f).sched = s.sched ∧ (s.upk f).pol = s.pol ∧ (s.upk f).fab = s.fab ∧
    (s.upk f).hbm = s.hbm ∧ (s.upk f).qdr = s.qdr ∧ (s.upk f).tap = s.tap ∧ (s.upk f).fw = s.fw ∧
    (∀ j, (s.upk f).rd j = s.rd j) := by
  refine ⟨rfl, rfl, rfl, rfl, rfl, rfl, rfl, rfl, rfl, rfl, rfl, rfl, rfl, rfl, rfl, rfl, rfl, rfl, rfl, rfl, rfl, rfl, rfl, rfl, rfl, rfl, rfl, rfl, rfl, rfl, fun _ => rfl⟩

@[simp] theorem updQueue_frame (s : State) (q : Nat) (f : Queue → Queue) :
    (s.updQueue q f).pending = s.pending ∧ (s.updQueue q f).ticks = s.ticks ∧ (s.updQueue q f).free = s.free ∧
    (s.updQueue q f).draws = s.draws ∧ (s.updQueue q f).out = s.out ∧ (s.updQueue q f).objs = s.objs ∧
    (s.updQueue q f).mcState = s.mcState ∧ (s.updQueue q f).failReason = s.failReason ∧ (s.updQueue q f).svc = s.svc ∧
    (s.updQueue q f).fns = s.fns ∧ (s.updQueue q f).ev = s.ev ∧ (s.updQueue q f).pwr = s.pwr ∧
    (s.updQueue q f).host = s.host ∧ (s.updQueue q f).line = s.line ∧ (s.updQueue q f).otn = s.otn ∧
    (s.updQueue q f).pk = s.pk ∧ (s.updQueue q f).fwd = s.fwd ∧ (s.updQueue q f).asc = s.asc ∧
    (s.updQueue q f).perf = s.perf ∧ (s.updQueue q f).prot = s.prot ∧ (s.updQueue q f).bpm = s.bpm ∧
    (s.updQueue q f).lt = s.lt ∧ (s.updQueue q f).swc = s.swc ∧ (s.updQueue q f).sched = s.sched ∧
    (s.updQueue q f).pol = s.pol ∧ (s.updQueue q f).fab = s.fab ∧ (s.updQueue q f).hbm = s.hbm ∧
    (s.updQueue q f).qdr = s.qdr ∧ (s.updQueue q f).tap = s.tap ∧ (s.updQueue q f).fw = s.fw ∧
    (∀ j, (s.updQueue q f).rd j = s.rd j) := by
  refine ⟨rfl, rfl, rfl, rfl, rfl, rfl, rfl, rfl, rfl, rfl, rfl, rfl, rfl, rfl, rfl, rfl, rfl, rfl, rfl, rfl, rfl, rfl, rfl, rfl, rfl, rfl, rfl, rfl, rfl, rfl, fun _ => rfl⟩

@[simp] theorem updNode_frame (s : State) (k : Nat) (f : Node → Node) :
    (s.updNode k f).pending = s.pending ∧ (s.updNode k f).ticks = s.ticks ∧ (s.updNode k f).free = s.free ∧
    (s.updNode k f).draws = s.draws ∧ (s.updNode k f).out = s.out ∧ (s.updNode k f).objs = s.objs ∧
    (s.updNode k f).mcState = s.mcState ∧ (s.updNode k f).failReason = s.failReason ∧ (s.updNode k f).svc = s.svc ∧
    (s.updNode k f).fns = s.fns ∧ (s.updNode k f).ev = s.ev ∧ (s.updNode k f).pwr = s.pwr ∧ (s.updNode k f).host = s.host ∧
    (s.updNode k f).line = s.line ∧ (s.updNode k f).otn = s.otn ∧ (s.updNode k f).pk = s.pk ∧ (s.updNode k f).fwd = s.fwd ∧
    (s.updNode k f).asc = s.asc ∧ (s.updNode k f).perf = s.perf ∧ (s.updNode k f).prot = s.prot ∧
    (s.updNode k f).buf = s.buf ∧ (s.updNode k f).bpm = s.bpm ∧ (s.updNode k f).lt = s.lt ∧ (s.updNode k f).swc = s.swc ∧
    (s.updNode k f).pol = s.pol ∧ (s.updNode k f).fab = s.fab ∧ (s.updNode k f).hbm = s.hbm ∧ (s.updNode k f).qdr = s.qdr ∧
    (s.updNode k f).tap = s.tap ∧ (s.updNode k f).fw = s.fw ∧ (∀ j, (s.updNode k f).rd j = s.rd j) := by
  refine ⟨rfl, rfl, rfl, rfl, rfl, rfl, rfl, rfl, rfl, rfl, rfl, rfl, rfl, rfl, rfl, rfl, rfl, rfl, rfl, rfl, rfl, rfl, rfl, rfl, rfl, rfl, rfl, rfl, rfl, rfl, fun _ => rfl⟩

@[simp] theorem updPoolBuf_frame (s : State) (p i : Nat) (f : PoolBuf → PoolBuf) :
    (s.updPoolBuf p i f).pending = s.pending ∧ (s.updPoolBuf p i f).ticks = s.ticks ∧ (s.updPoolBuf p i f).free = s.free ∧
    (s.updPoolBuf p i f).draws = s.draws ∧ (s.updPoolBuf p i f).out = s.out ∧ (s.updPoolBuf p i f).objs = s.objs ∧
    (s.updPoolBuf p i f).mcState = s.mcState ∧ (s.updPoolBuf p i f).failReason = s.failReason ∧
    (s.updPoolBuf p i f).svc = s.svc ∧ (s.updPoolBuf p i f).fns = s.fns ∧ (s.updPoolBuf p i f).ev = s.ev ∧
    (s.updPoolBuf p i f).pwr = s.pwr ∧ (s.updPoolBuf p i f).host = s.host ∧ (s.updPoolBuf p i f).line = s.line ∧
    (s.updPoolBuf p i f).otn = s.otn ∧ (s.updPoolBuf p i f).pk = s.pk ∧ (s.updPoolBuf p i f).fwd = s.fwd ∧
    (s.updPoolBuf p i f).asc = s.asc ∧ (s.updPoolBuf p i f).perf = s.perf ∧ (s.updPoolBuf p i f).prot = s.prot ∧
    (s.updPoolBuf p i f).buf = s.buf ∧ (s.updPoolBuf p i f).lt = s.lt ∧ (s.updPoolBuf p i f).swc = s.swc ∧
    (s.updPoolBuf p i f).sched = s.sched ∧ (s.updPoolBuf p i f).pol = s.pol ∧ (s.updPoolBuf p i f).fab = s.fab ∧
    (s.updPoolBuf p i f).hbm = s.hbm ∧ (s.updPoolBuf p i f).qdr = s.qdr ∧ (s.updPoolBuf p i f).tap = s.tap ∧
    (s.updPoolBuf p i f).fw = s.fw ∧ (∀ j, (s.updPoolBuf p i f).rd j = s.rd j) := by
  refine ⟨rfl, rfl, rfl, rfl, rfl, rfl, rfl, rfl, rfl, rfl, rfl, rfl, rfl, rfl, rfl, rfl, rfl, rfl, rfl, rfl, rfl, rfl, rfl, rfl, rfl, rfl, rfl, rfl, rfl, rfl, fun _ => rfl⟩

@[simp] theorem updSession_frame (s : State) (k : Nat) (f : LtSession → LtSession) :
    (s.updSession k f).pending = s.pending ∧ (s.updSession k f).ticks = s.ticks ∧ (s.updSession k f).free = s.free ∧
    (s.updSession k f).draws = s.draws ∧ (s.updSession k f).out = s.out ∧ (s.updSession k f).objs = s.objs ∧
    (s.updSession k f).mcState = s.mcState ∧ (s.updSession k f).failReason = s.failReason ∧ (s.updSession k f).svc = s.svc ∧
    (s.updSession k f).fns = s.fns ∧ (s.updSession k f).ev = s.ev ∧ (s.updSession k f).pwr = s.pwr ∧
    (s.updSession k f).host = s.host ∧ (s.updSession k f).line = s.line ∧ (s.updSession k f).otn = s.otn ∧
    (s.updSession k f).pk = s.pk ∧ (s.updSession k f).fwd = s.fwd ∧ (s.updSession k f).asc = s.asc ∧
    (s.updSession k f).perf = s.perf ∧ (s.updSession k f).prot = s.prot ∧ (s.updSession k f).buf = s.buf ∧
    (s.updSession k f).bpm = s.bpm ∧ (s.updSession k f).swc = s.swc ∧ (s.updSession k f).sched = s.sched ∧
    (s.updSession k f).pol = s.pol ∧ (s.updSession k f).fab = s.fab ∧ (s.updSession k f).hbm = s.hbm ∧
    (s.updSession k f).qdr = s.qdr ∧ (s.updSession k f).tap = s.tap ∧ (s.updSession k f).fw = s.fw ∧
    (∀ j, (s.updSession k f).rd j = s.rd j) := by
  refine ⟨rfl, rfl, rfl, rfl, rfl, rfl, rfl, rfl, rfl, rfl, rfl, rfl, rfl, rfl, rfl, rfl, rfl, rfl, rfl, rfl, rfl, rfl, rfl, rfl, rfl, rfl, rfl, rfl, rfl, rfl, fun _ => rfl⟩

@[simp] theorem updSwc_frame (s : State) (f : SwcSt → SwcSt) :
    (s.updSwc f).pending = s.pending ∧ (s.updSwc f).ticks = s.ticks ∧ (s.updSwc f).free = s.free ∧
    (s.updSwc f).draws = s.draws ∧ (s.updSwc f).out = s.out ∧ (s.updSwc f).objs = s.objs ∧ (s.updSwc f).mcState = s.mcState ∧
    (s.updSwc f).failReason = s.failReason ∧ (s.updSwc f).svc = s.svc ∧ (s.updSwc f).fns = s.fns ∧ (s.updSwc f).ev = s.ev ∧
    (s.updSwc f).pwr = s.pwr ∧ (s.updSwc f).host = s.host ∧ (s.updSwc f).line = s.line ∧ (s.updSwc f).otn = s.otn ∧
    (s.updSwc f).pk = s.pk ∧ (s.updSwc f).fwd = s.fwd ∧ (s.updSwc f).asc = s.asc ∧ (s.updSwc f).perf = s.perf ∧
    (s.updSwc f).prot = s.prot ∧ (s.updSwc f).buf = s.buf ∧ (s.updSwc f).bpm = s.bpm ∧ (s.updSwc f).lt = s.lt ∧
    (s.updSwc f).sched = s.sched ∧ (s.updSwc f).pol = s.pol ∧ (s.updSwc f).fab = s.fab ∧ (s.updSwc f).hbm = s.hbm ∧
    (s.updSwc f).qdr = s.qdr ∧ (s.updSwc f).tap = s.tap ∧ (s.updSwc f).fw = s.fw ∧ (∀ j, (s.updSwc f).rd j = s.rd j) := by
  refine ⟨rfl, rfl, rfl, rfl, rfl, rfl, rfl, rfl, rfl, rfl, rfl, rfl, rfl, rfl, rfl, rfl, rfl, rfl, rfl, rfl, rfl, rfl, rfl, rfl, rfl, rfl, rfl, rfl, rfl, rfl, fun _ => rfl⟩

@[simp] theorem updFab_frame (s : State) (f : FabSt → FabSt) :
    (s.updFab f).pending = s.pending ∧ (s.updFab f).ticks = s.ticks ∧ (s.updFab f).free = s.free ∧
    (s.updFab f).draws = s.draws ∧ (s.updFab f).out = s.out ∧ (s.updFab f).objs = s.objs ∧ (s.updFab f).mcState = s.mcState ∧
    (s.updFab f).failReason = s.failReason ∧ (s.updFab f).svc = s.svc ∧ (s.updFab f).fns = s.fns ∧ (s.updFab f).ev = s.ev ∧
    (s.updFab f).pwr = s.pwr ∧ (s.updFab f).host = s.host ∧ (s.updFab f).line = s.line ∧ (s.updFab f).otn = s.otn ∧
    (s.updFab f).pk = s.pk ∧ (s.updFab f).fwd = s.fwd ∧ (s.updFab f).asc = s.asc ∧ (s.updFab f).perf = s.perf ∧
    (s.updFab f).prot = s.prot ∧ (s.updFab f).buf = s.buf ∧ (s.updFab f).bpm = s.bpm ∧ (s.updFab f).lt = s.lt ∧
    (s.updFab f).swc = s.swc ∧ (s.updFab f).sched = s.sched ∧ (s.updFab f).pol = s.pol ∧ (s.updFab f).hbm = s.hbm ∧
    (s.updFab f).qdr = s.qdr ∧ (s.updFab f).tap = s.tap ∧ (s.updFab f).fw = s.fw ∧ (∀ j, (s.updFab f).rd j = s.rd j) := by
  refine ⟨rfl, rfl, rfl, rfl, rfl, rfl, rfl, rfl, rfl, rfl, rfl, rfl, rfl, rfl, rfl, rfl, rfl, rfl, rfl, rfl, rfl, rfl, rfl, rfl, rfl, rfl, rfl, rfl, rfl, rfl, fun _ => rfl⟩

@[simp] theorem updChan_frame (s : State) (n : Nat) (f : EvChan → EvChan) :
    (s.updChan n f).pending = s.pending ∧ (s.updChan n f).ticks = s.ticks ∧ (s.updChan n f).free = s.free ∧
    (s.updChan n f).draws = s.draws ∧ (s.updChan n f).out = s.out ∧ (s.updChan n f).objs = s.objs ∧
    (s.updChan n f).mcState = s.mcState ∧ (s.updChan n f).failReason = s.failReason ∧ (s.updChan n f).svc = s.svc ∧
    (s.updChan n f).fns = s.fns ∧ (s.updChan n f).pwr = s.pwr ∧ (s.updChan n f).host = s.host ∧
    (s.updChan n f).line = s.line ∧ (s.updChan n f).otn = s.otn ∧ (s.updChan n f).pk = s.pk ∧ (s.updChan n f).fwd = s.fwd ∧
    (s.updChan n f).asc = s.asc ∧ (s.updChan n f).perf = s.perf ∧ (s.updChan n f).prot = s.prot ∧
    (s.updChan n f).buf = s.buf ∧ (s.updChan n f).bpm = s.bpm ∧ (s.updChan n f).lt = s.lt ∧ (s.updChan n f).swc = s.swc ∧
    (s.updChan n f).sched = s.sched ∧ (s.updChan n f).pol = s.pol ∧ (s.updChan n f).fab = s.fab ∧
    (s.updChan n f).hbm = s.hbm ∧ (s.updChan n f).qdr = s.qdr ∧ (s.updChan n f).tap = s.tap ∧ (s.updChan n f).fw = s.fw ∧
    (∀ j, (s.updChan n f).rd j = s.rd j) := by
  refine ⟨rfl, rfl, rfl, rfl, rfl, rfl, rfl, rfl, rfl, rfl, rfl, rfl, rfl, rfl, rfl, rfl, rfl, rfl, rfl, rfl, rfl, rfl, rfl, rfl, rfl, rfl, rfl, rfl, rfl, rfl, fun _ => rfl⟩

@[simp] theorem updPerf_frame (s : State) (f : PerfSt → PerfSt) :
    (s.updPerf f).pending = s.pending ∧ (s.updPerf f).ticks = s.ticks ∧ (s.updPerf f).free = s.free ∧
    (s.updPerf f).draws = s.draws ∧ (s.updPerf f).out = s.out ∧ (s.updPerf f).objs = s.objs ∧
    (s.updPerf f).mcState = s.mcState ∧ (s.updPerf f).failReason = s.failReason ∧ (s.updPerf f).svc = s.svc ∧
    (s.updPerf f).fns = s.fns ∧ (s.updPerf f).ev = s.ev ∧ (s.updPerf f).pwr = s.pwr ∧ (s.updPerf f).host = s.host ∧
    (s.updPerf f).line = s.line ∧ (s.updPerf f).otn = s.otn ∧ (s.updPerf f).pk = s.pk ∧ (s.updPerf f).fwd = s.fwd ∧
    (s.updPerf f).asc = s.asc ∧ (s.updPerf f).prot = s.prot ∧ (s.updPerf f).buf = s.buf ∧ (s.updPerf f).bpm = s.bpm ∧
    (s.updPerf f).lt = s.lt ∧ (s.updPerf f).swc = s.swc ∧ (s.updPerf f).sched = s.sched ∧ (s.updPerf f).pol = s.pol ∧
    (s.updPerf f).fab = s.fab ∧ (s.updPerf f).hbm = s.hbm ∧ (s.updPerf f).qdr = s.qdr ∧ (s.updPerf f).tap = s.tap ∧
    (s.updPerf f).fw = s.fw ∧ (∀ j, (s.updPerf f).rd j = s.rd j) := by
  refine ⟨rfl, rfl, rfl, rfl, rfl, rfl, rfl, rfl, rfl, rfl, rfl, rfl, rfl, rfl, rfl, rfl, rfl, rfl, rfl, rfl, rfl, rfl, rfl, rfl, rfl, rfl, rfl, rfl, rfl, rfl, fun _ => rfl⟩

@[simp] theorem updPwr_frame (s : State) (f : Power → Power) :
    (s.updPwr f).pending = s.pending ∧ (s.updPwr f).ticks = s.ticks ∧ (s.updPwr f).free = s.free ∧
    (s.updPwr f).draws = s.draws ∧ (s.updPwr f).out = s.out ∧ (s.updPwr f).objs = s.objs ∧ (s.updPwr f).mcState = s.mcState ∧
    (s.updPwr f).failReason = s.failReason ∧ (s.updPwr f).svc = s.svc ∧ (s.updPwr f).fns = s.fns ∧ (s.updPwr f).ev = s.ev ∧
    (s.updPwr f).host = s.host ∧ (s.updPwr f).line = s.line ∧ (s.updPwr f).otn = s.otn ∧ (s.updPwr f).pk = s.pk ∧
    (s.updPwr f).fwd = s.fwd ∧ (s.updPwr f).asc = s.asc ∧ (s.updPwr f).perf = s.perf ∧ (s.updPwr f).prot = s.prot ∧
    (s.updPwr f).buf = s.buf ∧ (s.updPwr f).bpm = s.bpm ∧ (s.updPwr f).lt = s.lt ∧ (s.updPwr f).swc = s.swc ∧
    (s.updPwr f).sched = s.sched ∧ (s.updPwr f).pol = s.pol ∧ (s.updPwr f).fab = s.fab ∧ (s.updPwr f).hbm = s.hbm ∧
    (s.updPwr f).qdr = s.qdr ∧ (s.updPwr f).tap = s.tap ∧ (s.updPwr f).fw = s.fw ∧ (∀ j, (s.updPwr f).rd j = s.rd j) := by
  refine ⟨rfl, rfl, rfl, rfl, rfl, rfl, rfl, rfl, rfl, rfl, rfl, rfl, rfl, rfl, rfl, rfl, rfl, rfl, rfl, rfl, rfl, rfl, rfl, rfl, rfl, rfl, rfl, rfl, rfl, rfl, fun _ => rfl⟩

@[simp] theorem askReset_frame (s : State) (l : ResetLevel) :
    (s.askReset l).pending = s.pending ∧ (s.askReset l).ticks = s.ticks ∧ (s.askReset l).free = s.free ∧
    (s.askReset l).draws = s.draws ∧ (s.askReset l).out = s.out ∧ (s.askReset l).objs = s.objs ∧
    (s.askReset l).mcState = s.mcState ∧ (s.askReset l).failReason = s.failReason ∧ (s.askReset l).fns = s.fns ∧
    (s.askReset l).ev = s.ev ∧ (s.askReset l).pwr = s.pwr ∧ (s.askReset l).host = s.host ∧ (s.askReset l).line = s.line ∧
    (s.askReset l).otn = s.otn ∧ (s.askReset l).pk = s.pk ∧ (s.askReset l).fwd = s.fwd ∧ (s.askReset l).asc = s.asc ∧
    (s.askReset l).perf = s.perf ∧ (s.askReset l).prot = s.prot ∧ (s.askReset l).buf = s.buf ∧ (s.askReset l).bpm = s.bpm ∧
    (s.askReset l).lt = s.lt ∧ (s.askReset l).swc = s.swc ∧ (s.askReset l).sched = s.sched ∧ (s.askReset l).pol = s.pol ∧
    (s.askReset l).fab = s.fab ∧ (s.askReset l).hbm = s.hbm ∧ (s.askReset l).qdr = s.qdr ∧ (s.askReset l).tap = s.tap ∧
    (s.askReset l).fw = s.fw ∧ (∀ j, (s.askReset l).rd j = s.rd j) := by
  refine ⟨rfl, rfl, rfl, rfl, rfl, rfl, rfl, rfl, rfl, rfl, rfl, rfl, rfl, rfl, rfl, rfl, rfl, rfl, rfl, rfl, rfl, rfl, rfl, rfl, rfl, rfl, rfl, rfl, rfl, rfl, fun _ => rfl⟩

@[simp] theorem updFw_frame (s : State) (f : FwSt → FwSt) :
    (s.updFw f).pending = s.pending ∧ (s.updFw f).ticks = s.ticks ∧ (s.updFw f).free = s.free ∧ (s.updFw f).draws = s.draws ∧
    (s.updFw f).out = s.out ∧ (s.updFw f).objs = s.objs ∧ (s.updFw f).mcState = s.mcState ∧
    (s.updFw f).failReason = s.failReason ∧ (s.updFw f).svc = s.svc ∧ (s.updFw f).fns = s.fns ∧ (s.updFw f).ev = s.ev ∧
    (s.updFw f).pwr = s.pwr ∧ (s.updFw f).host = s.host ∧ (s.updFw f).line = s.line ∧ (s.updFw f).otn = s.otn ∧
    (s.updFw f).pk = s.pk ∧ (s.updFw f).fwd = s.fwd ∧ (s.updFw f).asc = s.asc ∧ (s.updFw f).perf = s.perf ∧
    (s.updFw f).prot = s.prot ∧ (s.updFw f).buf = s.buf ∧ (s.updFw f).bpm = s.bpm ∧ (s.updFw f).lt = s.lt ∧
    (s.updFw f).swc = s.swc ∧ (s.updFw f).sched = s.sched ∧ (s.updFw f).pol = s.pol ∧ (s.updFw f).fab = s.fab ∧
    (s.updFw f).hbm = s.hbm ∧ (s.updFw f).qdr = s.qdr ∧ (s.updFw f).tap = s.tap ∧ (∀ j, (s.updFw f).rd j = s.rd j) := by
  refine ⟨rfl, rfl, rfl, rfl, rfl, rfl, rfl, rfl, rfl, rfl, rfl, rfl, rfl, rfl, rfl, rfl, rfl, rfl, rfl, rfl, rfl, rfl, rfl, rfl, rfl, rfl, rfl, rfl, rfl, rfl, fun _ => rfl⟩

@[simp] theorem updHbm_frame (s : State) (f : HbmSt → HbmSt) :
    (s.updHbm f).pending = s.pending ∧ (s.updHbm f).ticks = s.ticks ∧ (s.updHbm f).free = s.free ∧
    (s.updHbm f).draws = s.draws ∧ (s.updHbm f).out = s.out ∧ (s.updHbm f).objs = s.objs ∧ (s.updHbm f).mcState = s.mcState ∧
    (s.updHbm f).failReason = s.failReason ∧ (s.updHbm f).svc = s.svc ∧ (s.updHbm f).fns = s.fns ∧ (s.updHbm f).ev = s.ev ∧
    (s.updHbm f).pwr = s.pwr ∧ (s.updHbm f).host = s.host ∧ (s.updHbm f).line = s.line ∧ (s.updHbm f).otn = s.otn ∧
    (s.updHbm f).pk = s.pk ∧ (s.updHbm f).fwd = s.fwd ∧ (s.updHbm f).asc = s.asc ∧ (s.updHbm f).perf = s.perf ∧
    (s.updHbm f).prot = s.prot ∧ (s.updHbm f).buf = s.buf ∧ (s.updHbm f).bpm = s.bpm ∧ (s.updHbm f).lt = s.lt ∧
    (s.updHbm f).swc = s.swc ∧ (s.updHbm f).sched = s.sched ∧ (s.updHbm f).pol = s.pol ∧ (s.updHbm f).fab = s.fab ∧
    (s.updHbm f).qdr = s.qdr ∧ (s.updHbm f).tap = s.tap ∧ (s.updHbm f).fw = s.fw ∧ (∀ j, (s.updHbm f).rd j = s.rd j) := by
  refine ⟨rfl, rfl, rfl, rfl, rfl, rfl, rfl, rfl, rfl, rfl, rfl, rfl, rfl, rfl, rfl, rfl, rfl, rfl, rfl, rfl, rfl, rfl, rfl, rfl, rfl, rfl, rfl, rfl, rfl, rfl, fun _ => rfl⟩

@[simp] theorem dropStaging_frame (s : State) (k : Nat) :
    (s.dropStaging k).pending = s.pending ∧ (s.dropStaging k).ticks = s.ticks ∧ (s.dropStaging k).free = s.free ∧
    (s.dropStaging k).draws = s.draws ∧ (s.dropStaging k).out = s.out ∧ (s.dropStaging k).objs = s.objs ∧
    (s.dropStaging k).mcState = s.mcState ∧ (s.dropStaging k).failReason = s.failReason ∧ (s.dropStaging k).fns = s.fns ∧
    (s.dropStaging k).ev = s.ev ∧ (s.dropStaging k).pwr = s.pwr ∧ (s.dropStaging k).host = s.host ∧
    (s.dropStaging k).line = s.line ∧ (s.dropStaging k).otn = s.otn ∧ (s.dropStaging k).pk = s.pk ∧
    (s.dropStaging k).fwd = s.fwd ∧ (s.dropStaging k).asc = s.asc ∧ (s.dropStaging k).perf = s.perf ∧
    (s.dropStaging k).prot = s.prot ∧ (s.dropStaging k).buf = s.buf ∧ (s.dropStaging k).bpm = s.bpm ∧
    (s.dropStaging k).lt = s.lt ∧ (s.dropStaging k).swc = s.swc ∧ (s.dropStaging k).sched = s.sched ∧
    (s.dropStaging k).pol = s.pol ∧ (s.dropStaging k).fab = s.fab ∧ (s.dropStaging k).hbm = s.hbm ∧
    (s.dropStaging k).qdr = s.qdr ∧ (s.dropStaging k).tap = s.tap ∧ (s.dropStaging k).fw = s.fw ∧
    (∀ j, (s.dropStaging k).rd j = s.rd j) := by
  refine ⟨rfl, rfl, rfl, rfl, rfl, rfl, rfl, rfl, rfl, rfl, rfl, rfl, rfl, rfl, rfl, rfl, rfl, rfl, rfl, rfl, rfl, rfl, rfl, rfl, rfl, rfl, rfl, rfl, rfl, rfl, fun _ => rfl⟩

@[simp] theorem open__frame (s : State) :
    s.open_.2.pending = s.pending ∧ s.open_.2.ticks = s.ticks ∧ s.open_.2.draws = s.draws ∧ s.open_.2.out = s.out ∧
    s.open_.2.objs = s.objs ∧ s.open_.2.mcState = s.mcState ∧ s.open_.2.failReason = s.failReason ∧ s.open_.2.svc = s.svc ∧
    s.open_.2.fns = s.fns ∧ s.open_.2.ev = s.ev ∧ s.open_.2.pwr = s.pwr ∧ s.open_.2.host = s.host ∧ s.open_.2.line = s.line ∧
    s.open_.2.otn = s.otn ∧ s.open_.2.pk = s.pk ∧ s.open_.2.fwd = s.fwd ∧ s.open_.2.asc = s.asc ∧ s.open_.2.perf = s.perf ∧
    s.open_.2.prot = s.prot ∧ s.open_.2.buf = s.buf ∧ s.open_.2.bpm = s.bpm ∧ s.open_.2.lt = s.lt ∧ s.open_.2.swc = s.swc ∧
    s.open_.2.sched = s.sched ∧ s.open_.2.pol = s.pol ∧ s.open_.2.fab = s.fab ∧ s.open_.2.hbm = s.hbm ∧
    s.open_.2.qdr = s.qdr ∧ s.open_.2.tap = s.tap ∧ s.open_.2.fw = s.fw ∧ (∀ j, s.open_.2.rd j = s.rd j) := by
  refine ⟨rfl, rfl, rfl, rfl, rfl, rfl, rfl, rfl, rfl, rfl, rfl, rfl, rfl, rfl, rfl, rfl, rfl, rfl, rfl, rfl, rfl, rfl, rfl, rfl, rfl, rfl, rfl, rfl, rfl, rfl, fun _ => rfl⟩

/-- What a write puts into the objects. -/
theorem wr_objs (s : State) (k v : Nat) : (s.wr k v).objs = mset s.objs (dfltOf k) k v := rfl

@[simp] theorem emit_out (s : State) (o : Out) : (s.emit o).out = o :: s.out := rfl

@[simp] theorem updPwr_pwr (s : State) (f : Power → Power) : (s.updPwr f).pwr = f s.pwr := rfl

@[simp] theorem updProt_prot (s : State) (f : ProtSt → ProtSt) : (s.updProt f).prot = f s.prot := rfl

@[simp] theorem updFw_fw (s : State) (f : FwSt → FwSt) : (s.updFw f).fw = f s.fw := rfl

@[simp] theorem updFwd_fwd (s : State) (f : FwdSt → FwdSt) : (s.updFwd f).fwd = f s.fwd := rfl

@[simp] theorem upk_pk (s : State) (f : PacketSt → PacketSt) : (s.upk f).pk = f s.pk := rfl

@[simp] theorem updFab_fab (s : State) (f : FabSt → FabSt) : (s.updFab f).fab = f s.fab := rfl

@[simp] theorem updHbm_hbm (s : State) (f : HbmSt → HbmSt) : (s.updHbm f).hbm = f s.hbm := rfl

@[simp] theorem updPerf_perf (s : State) (f : PerfSt → PerfSt) : (s.updPerf f).perf = f s.perf := rfl

@[simp] theorem updSwc_swc (s : State) (f : SwcSt → SwcSt) : (s.updSwc f).swc = f s.swc := rfl

end Sys2Proof.Machine
end

