-- ==== Sys2Proof/Laws/Ops.lean ====
section
/-!
SUPPORT. What the shared operations leave alone: an object that is not one of the block's reports (reportKey) reads as before after an
access, a record or a message was reported; what the reports change is the objects, the host's rings and vectors, what was sent, the
free values and the dictionary service.
-/

namespace Sys2Proof.Machine

/-! ### Objects -/

@[simp] theorem rd_wr_self (s : State) (k v : Nat) : (s.wr k v).rd k = v := by simp [State.rd, State.wr]

theorem rd_wr_ne (s : State) {k j : Nat} (v : Nat) (h : k ≠ j) : (s.wr k v).rd j = s.rd j := mget_mset_ne s.objs _ _ v h

theorem rd_wr (s : State) (k j v : Nat) : (s.wr k v).rd j = if k = j then v else s.rd j := by
  split
  · rename_i h
    subst h
    simp
  · rename_i h
    exact rd_wr_ne s v h

@[simp] theorem rd_wrSt_self (s : State) (k : Nat) (st : Status) : (s.wrSt k st).rd k = st.code := rd_wr_self s k _

theorem rd_wrSt_ne (s : State) {k j : Nat} (st : Status) (h : k ≠ j) : (s.wrSt k st).rd j = s.rd j := rd_wr_ne s _ h

theorem rd_add_ne (s : State) {k j : Nat} (n : Nat) (h : k ≠ j) : (s.add k n).rd j = s.rd j := rd_wr_ne s _ h

@[simp] theorem rd_add_self (s : State) (k n : Nat) : (s.add k n).rd k = counted (tyOf k) (s.rd k) n := rd_wr_self s k _

theorem rd_inc_ne (s : State) {k j : Nat} (h : k ≠ j) : (s.inc k).rd j = s.rd j := rd_wr_ne s _ h

@[simp] theorem rd_inc_self (s : State) (k : Nat) : (s.inc k).rd k = counted (tyOf k) (s.rd k) 1 := rd_wr_self s k _

theorem rd_setFn_ne (s : State) {f : Fn} {j : Nat} (v : Nat) (h : O.state f ≠ j) : (s.setFn f v).rd j = s.rd j := rd_wr_ne s _ h

@[simp] theorem rd_setFn_self (s : State) (f : Fn) (v : Nat) : (s.setFn f v).rd (O.state f) = v := rd_wr_self s _ v

theorem rd_foldl {α : Type} (l : List α) (f : State → α → State) (k : Nat) (h : ∀ s a, (f s a).rd k = s.rd k) (s : State) :
    (l.foldl f s).rd k = s.rd k := by
  induction l generalizing s with
  | nil => rfl
  | cons a t ih => exact (ih _).trans (h s a)

/-! ### Reports leave other objects alone -/

/-- A record key in words. -/
theorem recordKey_true {k : Nat} (h : k = O.atsHits ∨ k = O.atsMisses ∨ k = O.outstandingNp
      ∨ (0x1200 ≤ k / 256 ∧ k / 256 < 0x1300 ∧ (k % 256 = 3 ∨ k % 256 = 6))
      ∨ (0x3200 ≤ k / 256 ∧ k / 256 < 0x3240 ∧ k % 256 = 3)
      ∨ (0xB010 ≤ k / 256 ∧ k / 256 < 0xB070 ∧ k % 256 = 7)) : recordKey k = true := by
  rcases h with h | h | h | ⟨h1, h2, h | h⟩ | ⟨h1, h2, h⟩ | ⟨h1, h2, h⟩ <;> simp [recordKey, *]

/-- An index that holds no report: enough for the keys of one unit. -/
theorem reportKey_index {k : Nat} (h1 : k / 256 < 0x1200 ∨ 0x1300 ≤ k / 256) (h2 : k / 256 < 0x3000 ∨ 0x3240 ≤ k / 256)
    (h3 : k / 256 < 0xB010 ∨ 0xB070 ≤ k / 256) : reportKey k = false := by
  have a : k / 256 ≠ 0x3010 := by omega
  have b : k ≠ O.mbxState ∧ k ≠ O.mbxStatus ∧ k ≠ O.atsHits ∧ k ≠ O.atsMisses ∧ k ≠ O.outstandingNp := by
    refine ⟨fun e => ?_, fun e => ?_, fun e => ?_, fun e => ?_, fun e => ?_⟩ <;> (subst e; exact absurd h2 (by decide))
  have c : (decide (0x1200 ≤ k / 256) && decide (k / 256 < 0x1300)) = false := by simp; omega
  have d : (decide (0x3200 ≤ k / 256) && decide (k / 256 < 0x3240)) = false := by simp; omega
  have e : (decide (0xB010 ≤ k / 256) && decide (k / 256 < 0xB070)) = false := by simp; omega
  simp [reportKey, recordKey, a, b, c, d, e]

/-- Changes within a smaller set of objects. -/
theorem Changes.mono {K L : Nat → Bool} {s t : State} (hK : ∀ k, L k = false → K k = false) (h : Changes K s t) : Changes L s t :=
  { h with rd := fun k hk => h.rd k (hK k hk) }

/-- One change after another. -/
theorem Changes.trans {K : Nat → Bool} {s t u : State} (h : Changes K s t) (g : Changes K t u) : Changes K s u where
  rd k hk := (g.rd k hk).trans (h.rd k hk)
  host := by rw [g.host, h.host]
  svc := by rw [g.svc, h.svc]
  pending := g.pending.trans h.pending
  ticks := g.ticks.trans h.ticks
  draws := g.draws.trans h.draws
  mcState := g.mcState.trans h.mcState
  failReason := g.failReason.trans h.failReason
  fns := g.fns.trans h.fns
  ev n := by
    rcases g.ev n with a | ⟨hn, a⟩ <;> rcases h.ev n with b | ⟨hm, b⟩
    · exact .inl (a.trans b)
    · exact .inr ⟨hm, a.trans b⟩
    · exact .inr ⟨hn, by rw [a, b]⟩
    · exact .inr ⟨hn, by rw [a, b]⟩
  pwr := g.pwr.trans h.pwr
  line := g.line.trans h.line
  otn := g.otn.trans h.otn
  pk := g.pk.trans h.pk
  fwd := g.fwd.trans h.fwd
  asc := g.asc.trans h.asc
  perf := g.perf.trans h.perf
  prot := g.prot.trans h.prot
  buf := g.buf.trans h.buf
  bpm := g.bpm.trans h.bpm
  lt := g.lt.trans h.lt
  swc := g.swc.trans h.swc
  sched := g.sched.trans h.sched
  pol := g.pol.trans h.pol
  fab := g.fab.trans h.fab
  hbm := g.hbm.trans h.hbm
  qdr := g.qdr.trans h.qdr
  tap := g.tap.trans h.tap
  fw := g.fw.trans h.fw

/-- What changes by records changes by reports. -/
theorem Changes.reports {s t : State} (h : Changes recordKey s t) : Reports s t :=
  h.mono fun k hk => by
    simp only [reportKey, Bool.or_eq_false_iff] at hk
    exact hk.1.1.1

theorem Changes.refl (K : Nat → Bool) (s : State) : Changes K s s := by
  constructor <;> first | rfl | exact fun _ _ => rfl | exact fun _ => .inl rfl

theorem changes_wr {K : Nat → Bool} {s0 s : State} {k v : Nat} (hk : K k = true) (h : Changes K s0 s) : Changes K s0 (s.wr k v) := by
  refine { h with rd := fun j hj => ?_ }
  rw [rd_wr_ne _ _ (fun e => by rw [e, hj] at hk; exact absurd hk (by decide)), h.rd j hj]

theorem changes_out {K : Nat → Bool} {s0 s : State} {l : List Out} (h : Changes K s0 s) : Changes K s0 { s with out := l } :=
  { h with rd := h.rd }

theorem changes_free {K : Nat → Bool} {s0 s : State} {n : Nat} (h : Changes K s0 s) : Changes K s0 { s with free := n } :=
  { h with rd := h.rd }

theorem changes_emit {K : Nat → Bool} {s0 s : State} {o : Out} (h : Changes K s0 s) : Changes K s0 (s.emit o) := changes_out h

theorem changes_open_ {K : Nat → Bool} {s0 s : State} (h : Changes K s0 s) : Changes K s0 s.open_.2 := changes_free h

theorem changes_updVec {K : Nat → Bool} {s0 s : State} {v f} (h : Changes K s0 s) : Changes K s0 (s.updVec v f) :=
  { h with rd := h.rd, host := by rw [State.updVec, h.host] }

theorem changes_updRing {K : Nat → Bool} {s0 s : State} {v f} (h : Changes K s0 s) : Changes K s0 (s.updRing v f) :=
  { h with rd := h.rd, host := by rw [State.updRing, h.host] }

theorem changes_foldl {α : Type} {K : Nat → Bool} {s0 s : State} {f : State → α → State} {l : List α}
    (hf : ∀ a ∈ l, ∀ t, Changes K s0 t → Changes K s0 (f t a)) (h : Changes K s0 s) : Changes K s0 (l.foldl f s) := by
  induction l generalizing s with
  | nil => exact h
  | cons a t ih => exact ih (fun b hb => hf b (List.mem_cons_of_mem _ hb)) (hf a (List.mem_cons_self ..) s h)

theorem changes_add {K : Nat → Bool} {s0 s : State} {k n : Nat} (hk : K k = true) (h : Changes K s0 s) : Changes K s0 (s.add k n) :=
  changes_wr hk h

theorem changes_inc {K : Nat → Bool} {s0 s : State} {k : Nat} (hk : K k = true) (h : Changes K s0 s) : Changes K s0 (s.inc k) :=
  changes_wr hk h

theorem changes_wrSt {K : Nat → Bool} {s0 s : State} {k : Nat} {st : Status} (hk : K k = true) (h : Changes K s0 s) :
    Changes K s0 (s.wrSt k st) := changes_wr hk h

theorem records_perfEvent {s0 s : State} {t : Bool} {code num : Nat} {o : Occurrence} (h : Changes recordKey s0 s) :
    Changes recordKey s0 (s.perfEvent t code num o) := by
  unfold State.perfEvent
  split
  · exact h
  · refine changes_foldl (fun i hi t' ht => ?_) h
    have hi := List.mem_range.mp hi
    dsimp only
    have hn : (if t = true then i + 48 else i) < 96 := by split <;> omega
    revert hn
    generalize (if t = true then i + 48 else i) = n
    intro hn
    split
    · exact changes_add (recordKey_true (by simp only [O.pcValue, key]; omega)) ht
    · exact ht

theorem records_perfRange {s0 s : State} {t : Bool} {code addr len : Nat} {o : Occurrence} (h : Changes recordKey s0 s) :
    Changes recordKey s0 (s.perfRange t code addr len o) := by
  unfold State.perfRange
  split
  · exact h
  · refine changes_foldl (fun i hi t' ht => ?_) h
    have hi := List.mem_range.mp hi
    dsimp only
    have hn : (if t = true then i + 48 else i) < 96 := by split <;> omega
    revert hn
    generalize (if t = true then i + 48 else i) = n
    intro hn
    split
    · exact changes_add (recordKey_true (by simp only [O.pcValue, key]; omega)) ht
    · exact ht

theorem records_perfOpen {s0 s : State} {t : Bool} {code : Nat} {o : Occurrence} (h : Changes recordKey s0 s) :
    Changes recordKey s0 (s.perfOpen t code o) := by
  unfold State.perfOpen
  generalize (s.running Fn.perf && (List.range 48).any fun i => s.rd (O.pcEvent (if t then i + 48 else i)) == code) = c
  cases c
  · exact h
  · exact records_perfEvent (changes_open_ (changes_open_ h))

theorem records_sendVector {s0 s : State} {v : Nat} (hv : v < 64) (h : Changes recordKey s0 s) : Changes recordKey s0 (s.sendVector v) := by
  unfold State.sendVector
  split
  · exact changes_updVec h
  · exact changes_emit (changes_inc (recordKey_true (by simp only [O.msixSent, key]; omega)) (changes_updVec h))

theorem records_signal {s0 s : State} {v : Nat} {now : Bool} (hv : v < 64) (h : Changes recordKey s0 s) : Changes recordKey s0 (s.signal v now) := by
  unfold State.signal
  dsimp only
  split
  · exact records_sendVector hv (changes_updVec h)
  · exact changes_updVec h

theorem records_sendPending {s0 s : State} (h : Changes recordKey s0 s) : Changes recordKey s0 s.sendPending := by
  unfold State.sendPending
  refine changes_foldl (fun v hv t ht => ?_) h
  split
  · exact records_sendVector (List.mem_range.mp hv) ht
  · exact ht

theorem records_dropRecord {s0 s : State} {r : Nat} (hr : r < 64) (h : Changes recordKey s0 s) : Changes recordKey s0 (s.dropRecord r) :=
  changes_updRing (changes_inc (recordKey_true (by simp only [O.ringLost, key]; omega)) h)

theorem records_writeRecord {s0 s : State} {e : EvRec} (hr : e.ring < 64) (h : Changes recordKey s0 s) : Changes recordKey s0 (s.writeRecord e) := by
  unfold State.writeRecord
  dsimp only
  exact records_signal hr (changes_updRing (changes_wr (recordKey_true (by simp only [O.ringHead, key]; omega))
    (records_perfRange (changes_emit h))))

theorem changes_events {K : Nat → Bool} {s0 s : State} {q : Nat} (h : Changes K s0 s) :
    Changes K s0 { s with svc := { s.svc with eventSeq := q } } :=
  { h with rd := h.rd, svc := by rw [h.svc] }

theorem records_forward {s0 s : State} {e : EvRec} (h : Changes recordKey s0 s) : Changes recordKey s0 (s.forward e) := by
  unfold State.forward
  split
  · split
    · dsimp only
      refine changes_events ?_
      exact changes_emit (changes_open_ h)
    · exact h
  · exact h

theorem changes_updReads {K : Nat → Bool} {s0 s : State} {f} (h : Changes K s0 s) : Changes K s0 (s.updReads f) :=
  { h with rd := h.rd, host := by rw [State.updReads, h.host] }

theorem changes_cache {K : Nat → Bool} {s0 s : State} {l : List AtsEntry} (h : Changes K s0 s) :
    Changes K s0 { s with host := { s.host with cache := l } } :=
  { h with rd := h.rd, host := by rw [h.host] }

theorem records_requestPage {s0 s : State} {r page : Nat} (h : Changes recordKey s0 s) : Changes recordKey s0 (s.requestPage r page) := by
  unfold State.requestPage
  split
  · exact changes_emit (changes_wr (by decide) (changes_updReads (changes_inc (by decide) h)))
  · exact h

theorem records_hitPage {s0 s : State} {page : Nat} (h : Changes recordKey s0 s) : Changes recordKey s0 (s.hitPage page) := by
  unfold State.hitPage
  split
  · have g : Changes recordKey s0 (s.inc O.atsHits) := changes_inc (by decide) h
    exact changes_cache g
  · exact h

/-- Records of one ring go or are dropped. -/
theorem records_sendRecords {r : Nat} (hr : r < 64) (l : List EvRec) (hl : ∀ e ∈ l, e.ring < 64) {s0 s : State}
    (h : Changes recordKey s0 s) : Changes recordKey s0 (State.sendRecords r l s) := by
  induction l generalizing s with
  | nil => exact h
  | cons e t ih =>
    have ht : ∀ x ∈ t, x.ring < 64 := fun x hx => hl x (List.mem_cons_of_mem _ hx)
    unfold State.sendRecords
    split
    · split
      · exact records_requestPage (changes_updRing h)
      · exact ih ht (records_writeRecord (hl e (List.mem_cons_self ..)) (records_hitPage h))
    · exact ih ht (records_dropRecord hr h)

theorem records_raiseNow {s0 s : State} {r type func sev a0 a1 a2 : Nat} (hr : r < 64) (h : Changes recordKey s0 s) :
    Changes recordKey s0 (s.raiseNow r type func sev a0 a1 a2) := by
  unfold State.raiseNow
  split
  · exact h
  · extract_lets x e s1 s2
    have h2 : Changes recordKey s0 s2 := records_forward (changes_updRing h)
    clear_value s2
    split
    · split
      · exact records_sendRecords hr [e] (fun y hy => by cases List.mem_singleton.mp hy; exact hr) h2
      · exact changes_updRing h2
    · exact records_dropRecord hr h2

/-- A control channel's count of failed replays is a report. -/
theorem changes_carried {K : Nat → Bool} {s0 s : State} {n : Nat} (hn : 16 ≤ n) (h : Changes K s0 s) : Changes K s0 (s.carried n) := by
  unfold State.carried
  split
  · exact h
  · refine { h with rd := h.rd, ev := fun m => ?_ }
    by_cases e : n = m
    · subst e
      have g : (s.updChan n fun c => { c with failedReplays := 0 }).chan n = { s.chan n with failedReplays := 0 } := by
        simp [State.chan, State.updChan]
      refine .inr ⟨hn, g.trans ?_⟩
      rcases h.ev n with b | ⟨-, b⟩ <;> rw [b]
    · have g : (s.updChan n fun c => { c with failedReplays := 0 }).chan m = s.chan m := by
        simp [State.chan, State.updChan, mupd, mget_mset_ne _ _ _ _ e]
      rcases h.ev m with b | ⟨hm, b⟩
      · exact .inl (g.trans b)
      · exact .inr ⟨hm, g.trans b⟩

/-- Raising an event record leaves everything but the reports alone. -/
theorem records_raise {s0 s : State} {r type func sev a0 a1 a2 : Nat} (hr : r < 64) (h : Changes recordKey s0 s) :
    Changes recordKey s0 (s.raise r type func sev a0 a1 a2) := by
  unfold State.raise
  split
  · exact { h with rd := h.rd, host := by rw [h.host] }
  · split
    · exact h
    · refine records_raiseNow hr ?_
      split
      · exact changes_carried (by decide) h
      · exact h

theorem records_raiseLimited {s0 s : State} {id gap r type func sev a0 a1 a2 : Nat} (hr : r < 64) (h : Changes recordKey s0 s) :
    Changes recordKey s0 (s.raiseLimited id gap r type func sev a0 a1 a2) := by
  have hl : Changes recordKey s0 { s with host := { s.host with limits := mput s.host.limits id s.pclk } } :=
    { h with rd := h.rd, host := by rw [h.host] }
  unfold State.raiseLimited
  split
  · split
    · exact h
    · exact records_raise hr hl
  · exact records_raise hr hl

theorem reports_countAccess {s0 s : State} {p : Path} {k : Nat} (h : Reports s0 s) : Reports s0 (s.countAccess p k) :=
  h.trans (records_perfEvent (.refl _ s)).reports

theorem reports_windowWrote {s0 s : State} {k : Nat} {st : Status} (h : Reports s0 s) : Reports s0 (s.windowWrote k st) := by
  unfold State.windowWrote
  split
  · exact h
  · have h1 : Reports s0 ((s.wrSt O.winWriteStatus st).wr O.winWriteObject k) :=
      changes_wr (by decide) (changes_wrSt (by decide) h)
    dsimp only
    split
    · exact h1
    · exact changes_inc (by decide) h1

theorem reports_mailboxDone {s0 s : State} {object bytes : Nat} {st : Status} (h : Reports s0 s) :
    Reports s0 (s.mailboxDone object bytes st) :=
  (changes_wrSt (by decide) (changes_wr (by decide) h)).trans (records_raise (r := 0) (by decide) (.refl _ _)).reports

/-- The end of an access leaves everything but the reports alone. -/
theorem reports_finish {s0 s : State} {p : Path} {k bytes : Nat} {st : Status} (h : Reports s0 s) :
    Reports s0 (s.finish p k bytes st) := by
  have h1 : Reports s0 (s.countAccess p k) := reports_countAccess h
  unfold State.finish
  dsimp only
  split
  · exact changes_emit (reports_windowWrote h1)
  · exact changes_emit (reports_mailboxDone { h1 with rd := h1.rd, svc := by rw [h1.svc] })
  · exact changes_emit h1

/-- The end of an access is the newest thing sent. -/
theorem ended_finish (s : State) (p : Path) (k bytes : Nat) (st : Status) : (s.finish p k bytes st).ended p k st := by
  cases p <;> rfl

theorem reports_dropHalves {s0 s : State} (h : Reports s0 s) : Reports s0 s.dropHalves := by
  unfold State.dropHalves
  dsimp only
  split
  · have h1 : Reports s0 (s.inc O.winRefused) := changes_inc (by decide) h
    exact { h1 with rd := h1.rd, svc := by rw [h1.svc] }
  · exact { h with rd := h.rd, svc := by rw [h.svc] }

/-- What the way to an object looks at is no report. -/
theorem reach_reports {s t : State} (h : Reports s t) (k : Nat) : t.reach k = s.reach k := by
  have v : t.evradGate = s.evradGate := by
    unfold State.evradGate
    rw [h.rd (O.evradState 16) (by decide), h.rd (O.evradState 17) (by decide)]
  have l : t.settingsLinked = s.settingsLinked := by
    unfold State.settingsLinked State.settingsEntries State.setStore State.saveStore State.storeInForce State.rdB
    rw [h.rd O.settingsList (by decide), h.rd O.bootState (by decide), h.fw]
  unfold State.reach State.alive
  rw [v, l, h.pwr, h.mcState]

/-- What carries an access over the control channels is a report. -/
theorem reports_linked {s0 s : State} {k : Nat} (h : Reports s0 s) : Reports s0 (s.linked k) := by
  unfold State.linked
  split
  · exact changes_carried (by decide) (changes_carried (by decide) h)
  · exact h

/-- An access that the gates let pass runs its command on the state with the window's staged and captured halves dropped, and with the control
channels having carried it. -/
theorem access_pass {p : Path} {k : Nat} {d : List Byte} {f : State → State × Status} {s : State} (hg : s.gate p k = .pass) :
    ∃ t, Reports s t ∧ access p k d f s = (f t).1.finish p k d.length (f t).2 := by
  refine ⟨(if p = .window then s.dropHalves else s).linked k, reports_linked ?_, ?_⟩
  · split
    · exact reports_dropHalves (.refl _ s)
    · exact .refl _ s
  · unfold access
    dsimp only
    rw [hg]

theorem reports_mailboxBusy {s0 s : State} {k : Nat} {st : Status} (h : Reports s0 s) : Reports s0 (s.mailboxBusy k st) :=
  changes_emit (reports_windowWrote h)

/-- An access that the gates refuse ends with the status they give and changes nothing but the reports, unless it failed authentication. -/
theorem access_refuse {p : Path} {k : Nat} {d : List Byte} {f : State → State × Status} {s : State} {st : Status}
    (hg : s.gate p k = .refuse st) (ha : st ≠ .authFail) :
    Reports s (access p k d f s) ∧ (access p k d f s).ended p k st := by
  have r : Reports s (if p = .window then s.dropHalves else s) := by
    split
    · exact reports_dropHalves (.refl _ s)
    · exact .refl _ s
  unfold access
  dsimp only
  rw [hg]
  dsimp only
  generalize (if p = .window then s.dropHalves else s) = t at r
  unfold State.accessRefused
  split
  · rename_i hm
    simp only [Bool.and_eq_true, decide_eq_true_eq] at hm
    obtain ⟨rfl, -⟩ := hm
    exact ⟨reports_mailboxBusy r, rfl⟩
  · split
    · rename_i hm
      simp at hm
      exact absurd hm.2 ha
    · exact ⟨reports_finish r, ended_finish _ p k _ st⟩

/-- Records change nothing of the mailbox. -/
theorem rd_raise {s : State} {r type func sev a0 a1 a2 k : Nat} (hr : r < 64) (hk : recordKey k = false) :
    (s.raise r type func sev a0 a1 a2).rd k = s.rd k := (records_raise hr (.refl _ s)).rd k hk

/-- An access that does not come through the mailbox changes nothing of the mailbox. -/
theorem rd_finish_mailbox {s : State} {p : Path} {k bytes : Nat} {st : Status} {j : Nat} (hp : p ≠ .mailbox)
    (hj : recordKey j = false) (hw : j / 256 ≠ 0x3010) : (s.finish p k bytes st).rd j = s.rd j := by
  have h1 : (s.countAccess p k).rd j = s.rd j := (records_perfEvent (.refl _ s)).rd j hj
  have hn : ∀ i, i / 256 = 0x3010 → i ≠ j := fun i hi e => hw (e ▸ hi)
  cases p
  · show ((s.countAccess .window k).windowWrote k st).rd j = _
    unfold State.windowWrote
    split
    · exact h1
    · dsimp only
      split
      · rw [rd_wr_ne _ _ (hn _ (by decide)), rd_wrSt_ne _ _ (hn _ (by decide)), h1]
      · rw [rd_inc_ne _ (hn _ (by decide)), rd_wr_ne _ _ (hn _ (by decide)), rd_wrSt_ne _ _ (hn _ (by decide)), h1]
  · exact absurd rfl hp
  · exact h1

/-- A command of the dictionary completes: its effect `f` runs on a state that only reports tell from `s`, and what follows only reports and
says how the access ended. -/
theorem completes_access {c : Instr} {p : Path} {k : Nat} {d : List Byte} {f : State → State × Status} {s : State} {P : State → Prop}
    (he : exec c s = .next (access p k d f s)) (hg : s.gate p k = .pass)
    (hP : ∀ t, Reports s t → ∀ u, Reports (f t).1 u → u.ended p k (f t).2 → P u) : Completes c s P := by
  obtain ⟨t, ht, e⟩ := access_pass (d := d) (f := f) hg
  exact ⟨_, he, e ▸ hP t ht _ (reports_finish (.refl _ _)) (ended_finish _ p k _ _)⟩

end Sys2Proof.Machine
end

