-- ==== Sys2Proof/Laws/Pool.lean ====
section
/-!
SUPPORT. The laws of the buffer-pool region: its operations keep the canonical form, a byte that is stored is read back, and a store
leaves every other byte as it was.
-/

namespace Sys2Proof.Machine

theorem region_reset : RegionCanonical State.reset.bpm.mem = true := by decide

theorem region_mset {m : NMap Byte} (k : Nat) (v : Byte) (h : RegionCanonical m = true) : RegionCanonical (mset m 0 k v) = true := by
  simp only [RegionCanonical, Bool.and_eq_true, List.all_eq_true, bne_iff_ne, ne_eq] at h ⊢
  refine ⟨rising_mset m _ k v h.1, fun e he => ?_⟩
  unfold mset at he
  split at he
  · exact h.2 e (List.mem_filter.mp he).1
  · rcases mem_mput m k v e he with rfl | he
    · assumption
    · exact h.2 e he

theorem region_storeBytes (d : List Byte) {m : NMap Byte} (k : Nat) (h : RegionCanonical m = true) :
    RegionCanonical (storeBytes m k d) = true := by
  induction d generalizing m k with
  | nil => exact h
  | cons b t ih => exact ih _ (region_mset k b h)

/-- A store leaves every byte outside it as it was. -/
theorem mget_storeBytes_ne (d : List Byte) (m : NMap Byte) {k j : Nat} (h : j < k ∨ k + d.length ≤ j) :
    mget (storeBytes m k d) 0 j = mget m 0 j := by
  induction d generalizing m k with
  | nil => rfl
  | cons b t ih =>
    simp only [List.length_cons] at h
    rw [storeBytes, ih _ (by omega), mget_mset_ne _ _ _ _ (by omega)]

/-- A byte that is stored is read back. -/
theorem mget_storeBytes (d : List Byte) (m : NMap Byte) (k i : Nat) (h : i < d.length) :
    mget (storeBytes m k d) 0 (k + i) = d[i] := by
  induction d generalizing m k i with
  | nil => simp at h
  | cons b t ih =>
    cases i with
    | zero => rw [storeBytes, mget_storeBytes_ne _ _ (by omega)]; simp
    | succ i =>
      have e := ih (mset m 0 k b) (k + 1) i (by simpa using h)
      rw [Nat.add_right_comm] at e
      simpa [storeBytes, Nat.add_assoc] using e

/-- Reporting a reject leaves the pools alone (R336, R353). -/
theorem bpm_bpmReject (s : State) (h kind client : Nat) : (s.bpmReject h kind client).bpm = s.bpm := by
  unfold State.bpmReject State.raiseCounted
  extract_lets s' n due
  split
  · exact (records_raise (s0 := { s' with host := _ }) (by decide) (.refl _ _)).bpm
  · rfl

/-- A write through a handle either stores bytes at one place of the region or only reports the reject (R336). -/
theorem poolWrite_bpm (s : State) (h offset client : Nat) (d : List Byte) :
    (s.poolWrite h offset d client).1.bpm = s.bpm ∨
      ∃ k t, (s.poolWrite h offset d client).1.bpm = { s.bpm with mem := storeBytes s.bpm.mem k t } := by
  unfold State.poolWrite
  split
  · exact .inr ⟨_, _, rfl⟩
  · exact .inl (bpm_bpmReject s _ _ _)

/-- Every write through a handle keeps the canonical form of the region. -/
theorem region_poolWrite {s : State} {h offset client : Nat} {d : List Byte} (hc : RegionCanonical s.bpm.mem = true) :
    RegionCanonical (s.poolWrite h offset d client).1.bpm.mem = true := by
  rcases poolWrite_bpm s h offset client d with e | ⟨k, t, e⟩ <;> rw [e]
  · exact hc
  · exact region_storeBytes t k hc

end Sys2Proof.Machine
end

