-- ==== Sys2Proof/WellFormed.lean ====
section
/-!
DEFINITION. Well-formed commands: the operands whose type admits more than the wires or the manual can carry are within their bounds,
an index fits 16 bits, a byte string has its field's length, the target of a power-state command is the one its row names.
-/

namespace Sys2Proof

/-- An index and subindex of the dictionary (R33). -/
def inDict (index sub : Nat) : Bool := decide (index < 65536) && decide (sub < 256)

/-- Is every number of a list below a bound? -/
def inAll (n : Nat) (l : List Nat) : Bool := l.all fun x => decide (x < n)

/-- Is a command within the bounds of its operands? Log entry 80 (DEDUCED). -/
def Instr.wellFormed (i : Instr) : Bool :=
  match i with
  | .objectWrite _ index sub offset data => inDict index sub && decide (offset ≤ 4095) && decide (data.length ≤ 4096)
  | .rcRead _ index sub => inDict index sub
  | .windowHalfWrite _ index sub _ => inDict index sub
  | .windowHalfRead _ index sub => inDict index sub
  | .stagingCopyTimeout index sub => inDict index sub
  | .kdpRequest source port _ => decide (source < 2 ^ 128) && decide (port < 65536)
  | .kdpKeyWrite _ _ key => key.length == 32
  | .evradFlitCrcFail _ wire _ => decide (wire < 128)
  | .evradWireFault _ wire => decide (wire < 128)
  | .evradTrainingEnd bad => bad.all fun e => decide (e.2 < 128)
  | .railExcursionEnd _ mv d => decide (mv < 65536) && decide (d < 2 ^ 32)
  | .supplySample vin dw mv ma => decide (vin < 65536) && decide (dw < 65536) && mv.length == 9 && ma.length == 9 && inAll 65536 mv && inAll (2 ^ 32) ma
  | .pstateToP0 _ arg => arg == 0
  | .pstateToP1 _ arg => arg == 1
  | .pstateToP2 _ arg => arg == 2
  | .pcieLinkUp _ width _ => [1, 2, 4, 8, 16].contains width
  | .unsupportedRequest _ header => decide (header < 2 ^ 128)
  | .poisonedWrite header => decide (header < 2 ^ 128)
  | .doeRequest vendor type payload => decide (vendor < 65536) && decide (type < 256) && inAll (2 ^ 32) payload
  | .descriptorFetch _ d =>
    decide (d.bufAddr < 2 ^ 64) && decide (d.bufLength < 2 ^ 32) && decide (d.opcode < 65536) && decide (d.flags < 256)
      && decide (d.reserved < 256) && decide (d.arg < 2 ^ 64)
  | .completionReceived tag _ data _ => decide (tag < 16384) && decide (data.length ≤ 4096)
  | .completionTimeout tag => decide (tag < 16384)
  | .unexpectedCpl tag => decide (tag < 16384)
  | .quarantineExpiry tag => decide (tag < 16384)
  | .translationCompletion _ page size _ => decide (page < 2 ^ 52) && decide (size ≤ 52)
  | .invalidateRequest itag page size => decide (itag < 32) && decide (page < 2 ^ 52) && decide (size ≤ 52)
  | .invalidateComplete itag => decide (itag < 32)
  | .laneLocked _ taps snr => taps.length == 6 && decide (snr < 65536)
  | .laneTrainFailed _ snr => decide (snr < 65536)
  | .frameReceived _ _ frame _ _ => !frame.isEmpty
  | .assocSearch _ _ key _ _ _ => decide (key < 2 ^ 640)
  | .sweepVisit _ key _ _ => decide (key < 2 ^ 164)
  | .scrubRow _ row _ _ _ => decide (row < 16384)
  | .segmentWriteIssue q => decide (q < 1048576)
  | .segmentWriteDone q seg => decide (q < 1048576) && decide (seg < 67108864)
  | .segmentReadIssue q => decide (q < 1048576)
  | .segmentReadDone q seg _ _ => decide (q < 1048576) && decide (seg < 67108864)
  | .fairWindowExpiry q => decide (q < 1048576)
  | .policerWalk visit => decide (visit.policer < 4194304)
  | .cellReceived _ _ payload => payload.length == 256
  | .switchoverActive _ gap => decide (gap < 2 ^ 32)
  | .channelTrained _ swept refined =>
    swept.length == 16 && swept.all (inAll 128) && refined.length == 16 && refined.all (inAll 128)
  | .hbmTrack _ tests => tests.length == 8
  | .patternDone errors delays eyes => errors.length == 1024 && delays.length == 16 && eyes.length == 16
  | .mbxRead .. | .mbxWrite .. | .kdpKeyRevoke .. | .ringEnable .. | .enable ..
  | .enableDone .. | .start .. | .startDone .. | .startFailed .. | .stop ..
  | .stopDone .. | .stopTimeout .. | .disable .. | .disableDone .. | .evradRetrainEnd ..
  | .trimLoadDone .. | .regPowerGood .. | .domainStable .. | .domainRelease .. | .clkStableTimeout ..
  | .wakeStepTimeout .. | .supplyFault .. | .railExcursionStart .. | .thermalSample .. | .thermalTrip ..
  | .sysReset .. | .coreReset .. | .monExcursion .. | .phyPllLocked .. | .phyPllUnlock ..
  | .smbusResetCauseWrite .. | .wakeRetry .. | .smbusSysReset .. | .p2Exit .. | .arm ..
  | .halt .. | .reset .. | .ringHalted .. | .doorbell .. | .descriptorComplete ..
  | .coalTimeExpiry .. | .msixUnmask .. | .pairApply .. | .adminUp .. | .loopback ..
  | .prbsMode .. | .laneTrainRetry .. | .laneSignalLoss .. | .pcsAligned .. | .alignmentLoss ..
  | .faultReceived .. | .linkDownHoldExpiry .. | .fecWindowEnd .. | .bind .. | .unbind ..
  | .subportRead .. | .todCapture .. | .todSetNow .. | .todSetArm .. | .todSetCancel ..
  | .todStep .. | .synceHoldoffExpiry .. | .dispatch .. | .passEnd .. | .cycleOverrun ..
  | .residenceOverrun .. | .reorderRelease .. | .reorderTimeout .. | .chainCopy .. | .chainSwap ..
  | .chainClear .. | .injectPort .. | .injectQueue .. | .egressSliceInput .. | .frameTransmit ..
  | .profileWrite .. | .profileRead .. | .profileClear .. | .profileHoldEnd .. | .profileRingWrite ..
  | .clusterRepairDone .. | .load .. | .mcodeLoaded .. | .switch .. | .clusterSwitch ..
  | .abort .. | .tblInsert .. | .tblDelete .. | .tblSearch .. | .tblNext ..
  | .flushPort .. | .flushDone .. | .retire .. | .tableRingRecords .. | .learnPerform ..
  | .sweepStart .. | .ascInsert .. | .ascDelete .. | .ascSearch .. | .ascRead ..
  | .ascNext .. | .rowWrite .. | .assocRingRecords .. | .qbufWrite .. | .qbufRead ..
  | .qbufRingRecords .. | .meter .. | .trimDone .. | .bpmAlloc .. | .bpmFree ..
  | .bpmCheck .. | .schedulerPick .. | .cellCloseTimeout .. | .coreCellSend .. | .coreOutputRelease ..
  | .reseqTimeout .. | .ltFlushTimeExpiry .. | .nodeWrite .. | .nodeRead .. | .nodeRingRecords ..
  | .shapeWrite .. | .shapeRead .. | .polWrite .. | .polRead .. | .polRingRecords ..
  | .pprofWrite .. | .pprofRead .. | .framingReceived .. | .fabReseqTimeout .. | .reassemblyRelease ..
  | .fabCellCloseTimeout .. | .fabCellSend .. | .sidebandBeacon .. | .beaconMiss .. | .removalWindowEnd ..
  | .wtrExpiry .. | .joinComplete .. | .planeAdmin .. | .keepGrantChange .. | .relinquishSet ..
  | .relinquishClear .. | .roleActivate .. | .roleStandby .. | .protMode .. | .chDrain ..
  | .chReleaseService .. | .chReleaseOut .. | .chRetrain .. | .stackTempSample .. | .hbmScrub ..
  | .hbmCommandParity .. | .patternRun .. | .qdrAddressParity .. | .fwBegin .. | .fwWrite ..
  | .fwVerify .. | .verifyDone .. | .fwActivate .. | .fwConfirm .. | .fwAbort ..
  | .fwRevert .. | .bootSelect .. | .keyRevoke .. | .settingsSave .. | .settingsApply ..
  | .freeze .. | .unfreeze .. | .snapshot .. | .snapPin .. | .statRead ..
  | .statReadClear .. | .statWrite .. | .exportPeriod .. | .exportPairRead .. | .prbsCheckerSync ..
  | .otucFramePeriod .. | .integratedDefectTimer .. | .smDegSecond .. | .tsiWrite .. | .tsiRead ..
  | .tsiCopy .. | .tsiClear .. | .tsiSwap .. | .tsiRingRecords .. | .mailboxAccessEnd ..
  | .kdpResponse .. | .vinGood .. | .aonReady .. | .refclkPresent .. | .rootLock ..
  | .railOff .. | .wakeRetryTimer .. | .aonLoss .. | .porstN .. | .srstN ..
  | .commandedResetStart .. | .coreResetRelease .. | .mcWdt .. | .rootClockLost .. | .biasUpdate ..
  | .pstateTransitionEnd .. | .pciePllLocked .. | .pciePllUnlock .. | .mgmtPllUnlock .. | .linkDown ..
  | .bmeClear .. | .functionLevelReset .. | .flrDone .. | .d3hot .. | .aspmL1Entry ..
  | .ppsOutPulse .. | .ppsOutEnd .. | .ppsInEdge .. | .ppsInLost .. | .trapDeliver ..
  | .chainSwapDone .. | .epochAdvance .. | .beaconSend .. | .protWtrExpiry .. | .eraseDone ..
  | .eraseTimeout .. | .blockProgrammed .. | .confirmWindowExpiry .. | .mgmtPllLocked .. | .busMasterEnableSet ..
  | .returnToD0 .. | .atsEnableClear .. | .tsiSwapped .. | .keepGrantGlitch .. | .smbusTimeout .. => true

end Sys2Proof
end

