-- ==== Sys2Proof/Tests/Slice0.lean ====
section
/-!
SUPPORT. Tests: for every statement of Certificates/Slice0/Obligations.lean a state and operands that meet its hypotheses, with what
the manual says of the result at boundary values; and an ill-formed term for each check of WellFormed. Every expected value is computed by
hand from the rules that the statement cites.
-/

namespace Sys2Proof.Tests
open Sys2Proof Sys2Proof.Machine

set_option Elab.async false

/-- A state with objects given values. -/
def given (s : State) (l : List (Nat × Nat)) : State := l.foldl (fun s e => s.wr e.1 e.2) s

/-- After reset, with the controller running, the management port and the Evrad control channels up, a KDP key in slot 0 and the objects
given values. -/
def up (l : List (Nat × Nat)) : State := given { State.reset with mcState := 1, svc := { mgmtPll := true, key0 := some (zeros 32) } } ((O.state .mgmt, RUNNING) :: (O.evradState 16, 1) :: (O.evradState 17, 1) :: l)

/-- `up` with the given functions RUNNING beside MGMT. -/
def on (fs : List Fn) (l : List (Nat × Nat)) : State := up (fs.map (fun f => (O.state f, RUNNING)) ++ l)

/-- The state that a command leaves. -/
def after (c : Instr) (s : State) : State :=
  match exec c s with
  | .next t => t
  | _ => s

/-- The newest thing sent. -/
def sent (s : State) : Option Out := s.out.head?

/-- The access of a command ended with the status. -/
def endsWith (c : Instr) (p : Path) (k : Nat) (st : Status) (s : State) : Bool := sent (after c s) == some (.access p k st)

/-- A property of the row of an object. -/
def rowHas (k : Nat) (f : Row → Bool) : Bool := (rowOf k).any f

/-- Every listed object that is neither a report nor one of `ks` reads as before. -/
def objectsKept (ks : List Nat) (s t : State) : Bool :=
  (s.objs ++ t.objs).all fun e => reportKey e.1 || ks.contains e.1 || t.rd e.1 == s.rd e.1

/-- `objectsKept`, and the state beside the objects is as before. -/
def only (ks : List Nat) (s t : State) : Bool :=
  objectsKept ks s t && t == { s with
    objs := t.objs, out := t.out, free := t.free,
    host := { s.host with rings := t.host.rings, vectors := t.host.vectors, limits := t.host.limits, late := t.host.late, reads := t.host.reads, cache := t.host.cache },
    svc := { s.svc with eventSeq := t.svc.eventSeq, mbx := t.svc.mbx, stage := t.svc.stage, capture := t.svc.capture } }

/-- The command is refused with the status and changes only reports. -/
def refused (c : Instr) (p : Path) (k : Nat) (st : Status) (s : State) : Bool := endsWith c p k st s && only [] s (after c s)

/-- The functions RUNNING, the host link up and Bus Master Enable set. -/
def linked (fs : List Fn) (l : List (Nat × Nat)) : State :=
  let s := on (.host :: fs) ((O.pcieLinkState, 2) :: (O.pciePllLock, 1) :: l)
  { s with host := { s.host with bme := true } }

/-- A good descriptor of `n` bytes. -/
def desc (n op arg : Nat) : Desc := { bufAddr := 0x1000, bufLength := n, opcode := op, flags := 0, reserved := 0, arg := arg }

/-- Ring `n` (0 to 47) of a kind and target, ARMED, with `tail` slots posted. -/
def armedRing (n kind target tail : Nat) : List (Nat × Nat) :=
  [(O.dringState n, RING_ARMED), (O.dringKind n, kind), (O.dringTarget n, target), (O.dringTail n, tail)]

/-- The state with descriptors in flight on a ring. -/
def inFlight (n : Nat) (l : List Flight) (s : State) : State :=
  { s with host := { s.host with drings := [(n, { fetched := l.length, flight := l })] } }

/-- Ring 0 of kind 1 with a target, ARMED, and a descriptor on it whose `data` has arrived. -/
def loaded (fs : List Fn) (target : Nat) (data : List Byte) (l : List (Nat × Nat)) : State :=
  inFlight 0 [{ slot := 0, desc := desc data.length 1 0, data := data, issued := data.length, arrived := data.length }]
    (linked fs (armedRing 0 1 target 1 ++ l))

/-- The descriptor on ring 0 took effect with a status, length and result. -/
def took (st : Status) (len result : Nat) (s : State) : Bool :=
  (s.dring 0).flight.map (fun f => (f.effect, f.status, f.length, f.result)) == [(true, st.code, len, result)]

/-- Witness of Obligations.PlainWritesStore. -/
theorem test_witness_PlainWritesStore_whole : let s := up []; let k := O.kdpEventPort; let d := leBytes 2 0xBEEF; let j := objKey 0x6103 3; let e := leBytes 8 0x123456789
    rowHas k (fun r => r.acc == .rw && r.ty == .u16 && r.ty.octetsLen.isNone && r.ty.holdsValue (leNat d) && r.chk.ok (leNat d)) = true ∧
    rowHas j (fun r => r.acc == .rw && r.ty == .octets 8 && r.ty.holdsValue (leNat e) && r.chk.ok (leNat e)) = true ∧
    plainIndex (k / 256) = true ∧ plainIndex (j / 256) = true ∧ s.gate .kdp k = .pass ∧ s.gate .kdp j = .pass ∧ s.gate .window j = .pass ∧
    (after (.objectWrite .kdp 0x3420 2 0 d) s).rd k = 0xBEEF ∧ (after (.objectWrite .window 0x6103 3 0 e) s).rd j = 0x123456789 ∧
    (after (.objectWrite .window 0x3420 2 0 (d ++ zeros 2)) s).rd k = 0xBEEF ∧
    endsWith (.objectWrite .mailbox 0x6103 3 0 e) .mailbox j .ok s := by decide +kernel

/-- Witness of Obligations.PlainWritesStore. -/
theorem test_witness_PlainWritesStore_ranges : let s := up []; let k := O.kdpEventDest; let t := after (.objectWrite .mailbox 0x3420 1 0 (List.replicate 12 7)) s
    rowHas k (fun r => r.acc == .rw && r.ty.octetsLen == some 16 && r.chk.ok (leNat (List.replicate 16 7))) = true ∧ plainIndex (k / 256) = true ∧
    s.gate .mailbox k = .pass ∧ mfind t.svc.staging k = some (List.replicate 12 7) ∧ t.gate .mailbox k = .pass ∧
    (after (.objectWrite .mailbox 0x3420 1 12 (List.replicate 4 7)) t).rd k = leNat (List.replicate 16 7) := by decide +kernel

/-- Witness of Obligations.PlainWritesStore. -/
theorem test_witness_PlainWritesStore_halves : let s := up []; let k := objKey 0x6103 3; let t := after (.windowHalfWrite false 0x6103 3 0xFFFFFFFF) s
    s.svc.stage = none ∧ t.svc.stage = some (k, 0xFFFFFFFF) ∧ t.gate .window k = .pass ∧
    (after (.windowHalfWrite true 0x6103 3 0x1) t).rd k = 0x1FFFFFFFF := by decide +kernel

/-- Witness of Obligations.ReadsAnswer. -/
theorem test_witness_ReadsAnswer : let s := up [(O.stopDiscards 4, 7)]; let k := O.stopDiscards 4; let t := after (.windowHalfRead false 0x6103 3) s
    rowHas k (fun r => r.acc == .rc && r.ty.size == 4) = true ∧ plainIndex (k / 256) = true ∧ s.gate .kdp k = .pass ∧ s.gate .window k = .pass ∧
    (after (.rcRead .kdp 0x1104 5) s).rd k = 0 ∧ s.restartsAt k = 0 ∧
    (let b := O.reorderPeak 7; let u := up [(b, 9)]; rowHas b (fun r => r.acc == .rc) = true ∧ plainIndex (b / 256) = true ∧ u.restartsAt b = 0 ∧ (after (.rcRead .kdp (b / 256) (b % 256)) u).rd b = 0) ∧
    (after (.rcRead .kdp 0x1104 5) s).out.take 2 = [.access .kdp k .ok, .dataOut .kdp k (leBytes 4 7)] ∧
    s.svc.capture = none ∧ t.svc.capture = some (objKey 0x6103 3, 0) ∧ t.gate .window (objKey 0x6103 3) = .pass ∧
    (after (.windowHalfRead true 0x6103 3) t).svc.capture = none := by decide +kernel

/-- A mailbox access of two bytes is in progress. -/
def busyMbx (write : Bool) : State :=
  { up [(O.mbxState, 1), (O.mbxData 0, 0xBEEF)] with
    svc := { (up []).svc with mbx := some { write := write, object := O.kdpEventPort, offset := 0, length := 2 } } }

/-- Witness of Obligations.MailboxCompletes. -/
theorem test_witness_MailboxCompletes : let s := up []
    s.gate .kdp O.mbxCmd = .pass ∧ s.gate .mailbox O.mbxCmd = .pass ∧ s.rd O.mbxState = 0 ∧
    (after (.mbxRead .kdp 0) s).rd O.mbxState = 1 ∧ (after (.mbxWrite .window 0) s).rd O.mbxState = 1 ∧
    rowHas O.kdpEventPort (fun r => r.ty.size == 2 && r.acc == .rw && r.ty.holdsValue 0xBEEF) = true ∧
    leNat ((busyMbx true).buffer 2) = 0xBEEF ∧ (busyMbx true).reach O.kdpEventPort = .pass ∧ (busyMbx true).svc.held = [] ∧ (busyMbx true).alive = true ∧
    refused (.objectWrite .mailbox 0x3420 2 0 [1, 1]) .mailbox O.kdpEventPort .busy (busyMbx true) ∧ (after (.rcRead .mailbox 0x3420 2) (busyMbx true)).rd O.mbxState = 1 ∧
    (after .mailboxAccessEnd (busyMbx true)).rd O.kdpEventPort = 0xBEEF ∧ (after .mailboxAccessEnd (busyMbx true)).rd O.mbxState = 2 ∧
    (after .mailboxAccessEnd (busyMbx false)).rd O.mbxStatus = Status.ok.code := by decide +kernel

/-- A KDP request: a header with GEN and SEQ in `gs`, key slot `slot`, one record, target 0, and an HMAC of zeros. -/
def request (gs slot : Nat) (record : List Byte) : List Byte :=
  beBytes 2 0x4B44 ++ beBytes 2 0x0101 ++ beBytes 4 gs ++ beBytes 1 slot ++ beBytes 1 1 ++ beBytes 2 record.length ++ zeros 12 ++ record ++ zeros 32

/-- A READ of VENDOR_ID. -/
def readId : List Byte := beBytes 2 0x0100 ++ beBytes 2 0x1000 ++ beBytes 2 0x0100 ++ beBytes 2 2 ++ zeros 4

/-- Witness of Obligations.KdpRequestsAreQueuedOrCounted. -/
theorem test_witness_KdpRequests : let keyed := up []; let d := request 1 0 readId; let s : State := { keyed with svc := { keyed.svc with key0 := none } }; let l := (kdpChecked d).getD []
    s.kdpUp = true ∧ kdpChecked [] = none ∧ (after (.kdpRequest 9 9 []) s).rd O.kdpMalformed = 1 ∧
    (kdpChecked d).isSome = true ∧ targetGood d l = true ∧ s.authentic d l = true ∧ s.kdpAdmit (s.streamFor 9 0) 0 1 = .take ∧
    (after (.kdpRequest 9 9 d) s).svc.kdpQueue.length = 1 ∧ (after (.kdpRequest 9 9 d) s).rd O.kdpRequests = 1 ∧
    keyed.kdpUp = true ∧ keyed.authentic (request 1 5 readId) l = false ∧ (after (.kdpRequest 9 9 (request 1 5 readId)) keyed).rd O.kdpAuthFails = 1 := by decide +kernel

/-- Witness of Obligations.KdpRequestsAreQueuedOrCounted. -/
theorem test_witness_KdpRequests_refused : let s : State := { up [] with svc := { (up []).svc with key0 := none, streams := [{ source := 9, gen := 3, maxSeq := some 5, recent := [5], responses := [] }] } }; let d := request (2 * 2 ^ 28 + 1) 0 readId
    s.kdpUp = true ∧ s.authentic d ((kdpChecked d).getD []) = true ∧ s.kdpAdmit (s.streamFor 9 2) 2 1 = .refuse ∧
    (after (.kdpRequest 9 9 d) s).rd O.kdpSeqErrors = 1 := by decide +kernel

/-- Witness of Obligations.KdpAnswersAndKeys. -/
theorem test_witness_KdpAnswersAndKeys : let s : State := { up [] with svc := { (up []).svc with kdpQueue := [{ source := 9, port := 8, bytes := request 1 0 readId, key := none, again := [7] }] } }; let key : List Byte := List.replicate 32 5; let k := (after (.kdpKeyWrite .kdp 1 key) s).kdpKey
    s.alive = true ∧ s.mcState = 1 ∧ s.svc.mgmtPll = true ∧ s.running .mgmt = true ∧ identityOnly ((kdpChecked (request 1 0 readId)).getD []) = true ∧
    s.kdpWaits { source := 9, port := 8, bytes := request 1 0 readId, key := none, again := [7] } = false ∧ (after .kdpResponse s).svc.kdpQueue = [] ∧
    s.gate .kdp (keyObject 0) = .pass ∧ s.gate .window (keyObject 1) = .pass ∧ s.rd O.bootState ≠ 1 ∧ s.gate .kdp O.kdpKeyRevoke = .pass ∧
    k 1 = some key ∧ k 0 = some (zeros 32) ∧ refused (.kdpKeyWrite .mailbox 0 []) .mailbox (keyObject 0) .range s ∧ refused (.kdpKeyRevoke .kdp 2) .kdp O.kdpKeyRevoke .range s ∧
    refused (.kdpKeyRevoke .kdp 1) .kdp O.kdpKeyRevoke .busy (s.wr O.bootState 1) ∧
    endsWith (.kdpKeyWrite .window 1 key) .window (keyObject 1) .typeMismatch s ∧
    (after (.kdpKeyRevoke .mailbox 1) (after (.kdpKeyWrite .kdp 1 key) s)).kdpKey 1 = none := by decide +kernel

/-- Witness of Obligations.HostAndMgmtRefuseTheirOwnPaths. -/
theorem test_witness_HostAndMgmtRefuseTheirOwnPaths : let s := up []
    s.gate .window (O.fnCommand Fn.host.code) = .pass ∧ s.gate .mailbox (O.fnCommand Fn.host.code) = .pass ∧
    s.gate .kdp (O.fnCommand Fn.mgmt.code) = .pass ∧
    endsWith (.enable .window .host 0) .window (O.fnCommand 1) .accessDenied s ∧ endsWith (.start .mailbox .host 0) .mailbox (O.fnCommand 1) .accessDenied s ∧
    endsWith (.stop .kdp .mgmt 0) .kdp (O.fnCommand 2) .accessDenied s ∧ endsWith (.disable .kdp .mgmt 0) .kdp (O.fnCommand 2) .accessDenied s := by decide +kernel

/-- Witness of Obligations.FunctionCommandsAreRefusedByState. -/
theorem test_witness_FunctionCommandsAreRefused : let at_ := fun (f : Fn) (v : Nat) => up [(O.state f, v)]; let k := O.fnCommand Fn.clk.code
    (at_ .clk STOPPING).gate .kdp k = .pass ∧ (at_ .clk STOPPING).fnRefusal .kdp .clk CMD_ENABLE = none ∧
    (at_ .clk STOPPING).fnRefusal .kdp .clk CMD_STOP = none ∧
    endsWith (.enable .kdp .clk 0) .kdp k .busyStopping (at_ .clk STOPPING) ∧
    endsWith (.start .kdp .clk 0) .kdp k .functionDisabled (at_ .clk DISABLED) ∧
    endsWith (.start .kdp .clk 0) .kdp k .busyStopping (at_ .clk STOPPING) ∧
    (at_ .fab STOPPED).startBlocked .fab = true ∧ (at_ .line STOPPED).startBlocked .line = true ∧
    endsWith (.start .kdp .line 0) .kdp (O.fnCommand Fn.line.code) .functionDisabled (at_ .line STOPPED) ∧
    endsWith (.stop .kdp .clk 0) .kdp k .functionDisabled (at_ .clk DISABLED) ∧ endsWith (.stop .kdp .clk 0) .kdp k .busy (at_ .clk STARTING) ∧
    needsClk.any (on [.clk, .line] []).active = true ∧ endsWith (.stop .kdp .clk 0) .kdp k .busy (on [.clk, .line] []) ∧
    endsWith (.disable .kdp .clk 0) .kdp k .notStopped (at_ .clk RUNNING) ∧
    endsWith (.stop .kdp .clk 0) .kdp k .busy (after (.enable .kdp .clk 0) (at_ .clk DISABLED)) ∧
    ((after (.enable .kdp .clk 0) (at_ .clk DISABLED)).fn .clk).enabling = true := by decide +kernel

/-- Witness of Obligations.FunctionCommandsStartTransitions. -/
theorem test_witness_FunctionCommandsStart : let at_ := fun (f : Fn) (v : Nat) => up [(O.state f, v)]; let k := O.fnCommand Fn.clk.code
    (at_ .clk DISABLED).gate .kdp k = .pass ∧ (at_ .clk DISABLED).fnRefusal .kdp .clk CMD_ENABLE = none ∧ (at_ .clk DISABLED).domainHeld .clk = false ∧
    (at_ .clk STOPPED).fnRefusal .kdp .clk CMD_START = none ∧ (at_ .clk STOPPED).startBlocked .clk = false ∧
    (after (.start .kdp .clk 0) (at_ .clk STOPPED)).fnState .clk = STARTING ∧
    needsClk.any (at_ .clk RUNNING).active = false ∧ (after (.stop .kdp .clk 0) (at_ .clk RUNNING)).fnState .clk = STOPPING ∧
    (after (.disable .kdp .clk 0) (at_ .clk STOPPED)).fn .clk = { disabling := true } ∧
    (up []).gate .kdp (O.ringEnable 10) = .pass ∧ (up []).rd (O.ringEnable 10) = 0 ∧
    (after (.ringEnable .kdp 10) (up [(O.ringTail 10, 3)])).rd (O.ringTail 10) = 0 := by decide +kernel

/-- A function in a transition. -/
def moving (f : Fn) (v : Nat) (x : FnSt) : State := { up [(O.state f, v)] with fns := [(f.code, x)] }

/-- Witness of Obligations.FunctionTransitionsEnd. -/
theorem test_witness_FunctionTransitionsEnd : let verdict := moving .swc STARTING { verdict := some .internal }
    (moving .swc DISABLED { enabling := true }).alive = true ∧
    (after (.enableDone .swc) (moving .swc DISABLED { enabling := true })).fnState .swc = STOPPED ∧
    (verdict.fn .swc).verdict = some .internal ∧ (after (.startDone .swc []) verdict).fnState .swc = STOPPED ∧
    (after (.startFailed .swc .range) verdict).rd (O.lastStatus Fn.swc.code) = Status.internal.code ∧
    (after (.startDone .swc []) (moving .swc STARTING {})).fnState .swc = RUNNING ∧
    (up [(O.state .clk, STARTING), (O.phyPllEnable, 1)]).rd O.phyPllEnable &&& (up [(O.phyPllEnable, 1)]).rd O.phyPllLock ≠ 1 ∧
    (after (.startFailed .clk .internal) (up [(O.state .clk, STARTING), (O.phyPllEnable, 1)])).fnState .clk = STOPPED ∧
    (moving .swc STOPPING {}).heldWork .swc = 0 ∧ (after (.stopDone .swc) (moving .swc STOPPING {})).fnState .swc = STOPPED ∧
    (after (.stopTimeout .swc) (moving .swc STOPPING {})).rd (O.lastStatus Fn.swc.code) = Status.busy.code ∧
    (moving .assoc STOPPING {}).assocForced.2 = 0 ∧ (after (.stopTimeout .assoc) (moving .assoc STOPPING {})).rd (O.stopDiscards Fn.assoc.code) = 0 ∧
    (after (.disableDone .swc) (moving .swc STOPPED { disabling := true })).fnState .swc = DISABLED := by decide +kernel

/-- Witness of Obligations.FunctionTransitionsEnd. -/
theorem test_witness_startCanEnd : (let s := up [(O.phyPllEnable, 1), (O.phyPllLock, 1)]; s.rd O.phyPllEnable &&& s.rd O.phyPllLock = s.rd O.phyPllEnable) ∧
    { up [] with hbm := { (up []).hbm with trained := true } }.hbmOutcome = some .ok ∧ (up []).qdrBadEye [] = none := by decide +kernel

/-- Witness of Obligations.EvradChannelsRetrainAndFail. -/
theorem test_witness_EvradChannels : let s := up [(O.evradState 17, 1)]; let late : State := { s with ev := [(17, { failedReplays := 15 })] }; let bare := given late [(O.evradSpares 17, 0)]; let spare := (O.evradSpares 17); let crc := Instr.evradFlitCrcFail 17 4 true
    s.rd (O.evradState 17) = 1 ∧ (after (.evradFlitCrcFail 17 4 false) s).rd (O.evradReplays 17) = 1 ∧
    (after crc s).chan 17 = { failedReplays := 1 } ∧ late.rd spare = 2 ∧ bare.rd spare = 0 ∧
    (after crc late).rd (O.evradState 17) = 2 ∧ (after crc bare).rd (O.evradState 17) = 3 ∧
    bit ((after crc bare).rd O.faultSources) 3 = true ∧ (after (.evradWireFault 17 4) bare).rd (O.evradState 17) = 3 ∧
    after (.evradWireFault 17 4) s = s ∧
    only [O.evradReplays 17] { s with ev := [] } (after (.evradFlitCrcFail 17 4 false) { s with ev := [] }) = true ∧
    (after (.evradRetrainEnd 17 9) (after crc late)).rd spare = 1 ∧ (after (.evradRetrainEnd 17 9) (after crc late)).rd (O.evradState 17) = 1 := by decide +kernel

/-- Witness of Obligations.EvradChannelsRetrainAndFail. -/
theorem test_witness_EvradTraining : let s := up [(O.evradState 0, 0)]; let bad := Instr.evradTrainingEnd [(0, 1), (0, 2), (0, 3)]; let two : State := { given s [(O.evradState 0, 2)] with ev := [(0, { failing := [1, 2, 3] })] }
    s.rd (O.evradState 0) = 0 ∧ bit s.pwr.released 2 = true ∧ (after (.evradTrainingEnd [(0, 1)]) s).rd (O.evradState 0) = 1 ∧
    (after bad s).rd (O.evradState 0) = 3 ∧ ((after (.evradWireFault 0 7) s).chan 0).failing = [7] ∧
    two.rd (O.evradState 0) = 2 ∧ (after (.evradRetrainEnd 0 5) two).rd (O.evradState 0) = 3 := by decide +kernel

/-- A device in the power state given, with the objects given. -/
def powered (x : Power) (l : List (Nat × Nat)) : State := { up l with pwr := x }

/-- Witness of Obligations.WakeUpStepsFollowEachOther. -/
theorem test_witness_WakeUpSteps : let at_ := fun (n : Nat) => powered { step := n, regsOn := 0, released := 0 } []; let on9 := powered { step := 4, regulator := 8, released := 0 } []
    (after .vinGood (at_ 1)).pwr.step = 2 ∧ (after .aonReady (at_ 2)).pwr.step = 3 ∧ (after (.trimLoadDone true) (at_ 3)).pwr.regsOn = 1 ∧
    (after (.trimLoadDone true) (powered { step := 3, released := 0 } [])).pwr.step = 5 ∧
    (after (.regPowerGood 0) (powered { step := 4, regsOn := 1, released := 0 } [])).pwr.regulator = 1 ∧ (after (.regPowerGood 8) on9).pwr.step = 5 ∧
    (after .vinGood (powered { dark := true, vinGood := false, released := 0 } [])).pwr.dark = false ∧ (after (.regPowerGood 8) (powered { step := 4, regulator := 8, released := 0, regsFirst := true } [])).pwr.trimValid = false ∧
    (after .refclkPresent (at_ 5)).rd O.rootState = 1 ∧ (after .rootLock (at_ 6)).rd O.rootState = 2 ∧
    (after .vinGood (powered { thermalHold := true, vinGood := false, released := 0 } [])).pwr.step = 1 ∧
    (after (.wakeStepTimeout false) (at_ 2)).pwr.dark = true := by decide +kernel

/-- Witness of Obligations.WakeUpStepsFollowEachOther. -/
theorem test_witness_WakeUpFailures : let at_ := fun (n on_ : Nat) => powered { step := n, regsOn := on_, released := 0 } []; let d := fun (code : Option Nat) (again : Bool) => powered { down := some 0, regsOn := 0, failCode := code, retried := again, released := 0 } []
    (at_ 5 3).highestOn = some 1 ∧ (after (.wakeStepTimeout true) (at_ 5 3)).pwr.failCode = some 5 ∧ (at_ 3 0).highestOn = none ∧
    (after (.wakeStepTimeout true) (at_ 3 0)).pwr.retryFrom = some 3 ∧ (after (.wakeStepTimeout true) (at_ 2 0)).pwr.retryFrom = some 2 ∧
    (after .railOff (powered { down := some 2, regsOn := 3, released := 0 } [])).pwr.regsOn = 1 ∧ (after .railOff (d none false)).pwr.step = 1 ∧
    (after .railOff (d (some 6) false)).pwr.retryFrom = some 3 ∧ (after .railOff (d (some 6) true)).pwr.latched = some 3 ∧
    (after .wakeRetryTimer (powered { retryFrom := some 3, released := 0 } [])).pwr.step = 3 := by decide +kernel

/-- Witness of Obligations.DomainsAreReleasedInOrder. -/
theorem test_witness_DomainsAreReleased : let at_ := fun (rel stable unst : Nat) => powered { step := 7, released := rel } [(O.domainStable, stable), (O.clkUnstable, unst)]
    (after (.domainStable .pclk) (at_ 0 0 0)).rd O.domainStable = 8 ∧ domBit .pclk = 3 ∧ domBit .eng = 0 ∧
    bit (0 ||| 0) 3 = false ∧ (after (.domainRelease .xclk) (at_ 8 12 0)).pwr.released = 12 ∧ (after (.domainRelease .xclk) (at_ 8 12 0)).pwr.step = 8 ∧
    (after (.domainRelease .eng) (at_ 14 15 0)).pwr.step = 0 ∧ (after (.clkStableTimeout .eng) (at_ 14 14 0)).rd O.clkUnstable = 1 ∧
    objectsKept [O.clkUnstable, O.faultSources, O.wakeAttempts, O.state .host] (at_ 14 14 0) (after (.clkStableTimeout .eng) (at_ 14 14 0)) = true := by decide +kernel

/-- Witness of Obligations.FaultsAndPinsResetTheDevice. -/
theorem test_witness_FaultsAndPins : let s := up [(objKey 0x6103 3, 5), (O.resetCause, 0x80)]; let held := powered { latched := some 3, released := 0 } []; let hot := powered { thermalHold := true, diodeF := 12600, released := 0, regsOn := 0 } []
    s.watched 9 = true ∧ s.heldDown = false ∧ (after (.supplyFault 9) s).alive = false ∧ held.heldDown = true ∧ held.watched 9 = true ∧
    objectsKept [O.lastSupplyFault, O.resetCause] held (after (.supplyFault 9) held) = true ∧
    (let f : State := { s with pwr := { s.pwr with down := some 8 } }; f.heldDown = false ∧ f.pwr.failCode = none ∧ f.watched 0 = true ∧ (after (.supplyFault 0) f).pwr.down = some 8 ∧
      bit ((after (.supplyFault 0) f).rd O.resetCause) 1 = true ∧ objectsKept [O.lastSupplyFault, O.resetCause] f (after (.supplyFault 0) f) = true) ∧
    (after .aonLoss s).rd (objKey 0x6103 3) = 0 ∧ (after .aonLoss s).pwr.step = 1 ∧ (after (.thermalTrip 15800 0) s).pwr.thermalHold = true ∧
    s.pwr.dark = false ∧ s.pwr.down = none ∧ s.pwr.aonUp = true ∧ (after .porstN s).pwr.resetting = some .por ∧ bit ((after .porstN s).rd O.resetCause) 0 = true ∧
    only [O.resetCause] hot (after .porstN hot) = true ∧ (after .srstN s).pwr.resetting = some .sys ∧ only [O.resetCause] held (after .srstN held) = true ∧
    (after .mcWdt s).alive = false ∧ s.deviceRuns = true ∧ (after .rootClockLost s).rd O.rootState = 3 ∧
    (after .rootClockLost s).alive = false := by decide +kernel

/-- Witness of Obligations.CommandedResets. -/
theorem test_witness_CommandedResets : let s := up []; let asked := fun (l : ResetLevel) => { s with svc := { s.svc with reset := some l } }
    s.gate .kdp O.sysReset = .pass ∧ s.gate .window O.sysReset = .pass ∧ s.gate .kdp O.coreReset = .pass ∧ s.pwr.resetting = none ∧
    refused (.sysReset .kdp 1) .kdp O.sysReset .range s ∧ refused (.coreReset .window 1) .window O.coreReset .range s ∧
    (after (.sysReset .kdp 0x5359) s).svc.reset = some .sys ∧ (after (.sysReset .window 0x5359) s).alive = false ∧
    (after (.coreReset .mailbox 0x434F) s).svc.reset = some .core ∧ (after (.coreReset .window 0x434F) s).pwr.released = 8 ∧
    (after .commandedResetStart (asked .sys)).pwr.resetting = some .sys ∧ (after .commandedResetStart (asked .core)).pwr.resetting = some .core ∧
    s.heldDown = false ∧ (let h : State := { asked .core with pwr := { latched := some 3 } }; h.heldDown = true ∧ h.alive = true ∧ after .commandedResetStart h = h.withReset none) ∧
    (after .coreResetRelease (after .commandedResetStart (asked .core))).pwr.released = 15 ∧
    (let d : State := { s with pwr := { s.pwr with resetting := some .core, hostDue := true, hostState := 3 } }; (after .coreResetRelease d).fnState .host = 3 ∧ (after .coreResetRelease d).pwr.hostDue = false) := by decide +kernel

/-- Witness of Obligations.SamplesAndMonitorsReport. -/
theorem test_witness_SamplesAndMonitors : let s := up []; let ex := { s with pwr := { s.pwr with excursion := 0x200 } }; let locked := on [.clk] [(O.phyPllLock, 1)]
    s.alive = true ∧ s.rd O.pstate = 0 ∧ bit s.pwr.crossed 2 = false ∧ s.rdS O.tjCrit ≤ 15500 ∧
    bit ((after (.thermalSample 15500 0 1 1 0 0) s).rd O.thermalFlags) 2 = true ∧
    (after (.supplySample 12000 70000 [900] []) s).rd O.inputPower = 0xFFFF ∧ (after .biasUpdate s).rd O.biasFMv = ofS32 (biasStep (s.rdS O.biasFMv) (biasTarget 0)) ∧
    s.watched 9 = true ∧ bit s.pwr.excursion 9 = false ∧ (after (.railExcursionStart 9) s).rd O.supplyFlags = 0x200 ∧
    (after (.railExcursionStart 0) s).rd (O.railWarnings 0) = 1 ∧ (after (.railExcursionEnd 9 1 1) ex).pwr.excursion = 0 ∧
    objectsKept [] ex (after (.railExcursionEnd 9 1 1) ex) = true ∧
    bit s.pwr.released (domBit .eng) = true ∧ (after (.monExcursion .eng) s).rd O.monExcursions = 1 ∧ only [O.monExcursions] s (after (.monExcursion .eng) s) = true ∧
    (after (.phyPllLocked 23) { s with pwr := { s.pwr with plls := 2 ^ 23 } }).rd O.phyPllLock = 2 ^ 23 ∧
    (after (.phyPllUnlock 0) locked).rd O.phyPllUnlocks = 1 ∧ only [O.phyPllLock, O.phyPllUnlocks] locked (after (.phyPllUnlock 0) locked) = true := by decide +kernel

/-- Witness of Obligations.PowerStatesChange. -/
theorem test_witness_PowerStates : let s := up []; let tr := fun (a b : Nat) => { up [(O.pstate, 0x0F)] with pwr := { trans := some ⟨a, b⟩ } }; let p2 := powered { released := 8, regsOn := 0x10 } [(O.pstate, 2)]; let busy := up [(O.pstate, 0x0F)]
    s.gate .kdp O.pstateCmd = .pass ∧ s.stoppedBut p1Free = true ∧ s.stoppedBut p2Free = true ∧ s.pwr.returnFailed = false ∧
    (after (.pstateToP1 .kdp 1) s).rd O.pstate = 0x0F ∧ (after (.pstateToP2 .kdp 2) s).pwr.trans = some ⟨0, 2⟩ ∧
    (after (.pstateToP0 .kdp 0) (up [(O.pstate, 1)])).pwr.trans = some ⟨1, 0⟩ ∧ p2.gate .kdp O.pstateCmd = .pass ∧
    (after (.pstateToP0 .kdp 0) p2).pwr.regsOn = 0x11 ∧ refused (.pstateToP0 .kdp 0) .kdp O.pstateCmd .busy busy ∧
    (on [.eng] []).stoppedBut p1Free = false ∧ refused (.pstateToP1 .kdp 1) .kdp O.pstateCmd .notStopped (on [.eng] []) ∧
    refused (.pstateToP2 .kdp 2) .kdp O.pstateCmd .notStopped (on [.eng] []) ∧
    (after .pstateTransitionEnd (tr 0 1)).rd O.pstate = 1 ∧ (after .pstateTransitionEnd (tr 1 0)).rd O.pstate = 0 ∧
    (after .pstateTransitionEnd (tr 0 2)).pwr.released = 8 ∧ (after .pstateTransitionEnd { tr 0 2 with objs := (on [] [(O.state .host, STOPPED)]).objs }).pwr.hostState = STOPPED := by decide +kernel

/-- Witness of Obligations.PowerStatesChange. -/
theorem test_witness_P2Return : let s : State := { up ((O.pstate, 0x0F) :: (List.range 18).map fun n => (O.evradState n, 1)) with pwr := { trans := some ⟨2, 0⟩, returning := true, step := 0 } }
    s.returned = true ∧ s.pwr.trans = some ⟨2, 0⟩ ∧ s.pwr.returnFailed = false := by decide +kernel

/-- The TAP in a state of its controller with an instruction and a data register. -/
def tapped (c : TapCtl) (i : Config.TapInstr) (dr : List Bool) : State := { up [] with tap := { ctl := c, instr := i, dr := dr } }

/-- Witness of Obligations.SmbusWrites. -/
theorem test_witness_SmbusTap : (tapped .captureDr .instrument []).smbusUp = true ∧ (tapped .captureDr .idcode []).tap.instr = .idcode ∧
    ((tapped .captureDr .instrument []).tckRise false false).tap.ctl = .shiftDr ∧ (tapped .shiftDr .bypass [true]).tap.tdo = some true ∧
    ((tapped .shiftDr .bypass [true]).tckRise true false).tap.dr = [false] ∧ (up []).tap = {} := by decide +kernel

/-- Witness of Obligations.SmbusWrites. -/
theorem test_witness_SmbusWrites : let s := up [(O.resetCause, 0xFF)]; let held := powered { latched := some 3, released := 0 } []; let hot := powered { thermalHold := true, released := 0, regsOn := 0 } [(O.faultSources, 0x10)]; let p2 := powered { released := 8, regsOn := 0x10 } [(O.pstate, 2)]
    s.smbusUp = true ∧ (after (.smbusResetCauseWrite ⟨0x0F, true⟩) s).rd O.resetCause = 0xF0 ∧ after (.smbusResetCauseWrite ⟨0x0F, false⟩) s = s.emit (.smbus false) ∧ s.smbusRead 1 = some [0xFF, 0] ∧ s.smbusRead 9 = none ∧ s.alertResponse = none ∧ (given s [(O.supplyFlags, 1)]).alertResponse = some 0x4A ∧ s.retryApplies = false ∧
    after (.wakeRetry 0xA5 true) s = s.emit (.smbus false) ∧ after (.smbusSysReset 0x5A false) s = s.emit (.smbus false) ∧
    after (.p2Exit 0xC3 true) s = s.emit (.smbus false) ∧ held.smbusUp = true ∧ (after (.wakeRetry 0xA5 true) held).pwr.step = 3 ∧
    hot.smbusUp = true ∧ (after (.wakeRetry 0xA5 true) hot).pwr.step = 1 ∧ s.heldDown = false ∧ (after (.smbusSysReset 0x5A true) s).alive = false ∧
    p2.smbusUp = true ∧ p2.alive = true ∧ (after (.p2Exit 0xC3 true) p2).pwr.returning = true ∧ after .smbusTimeout s = s := by decide +kernel

/-- Witness of Obligations.HostLinkTrainsAndFalls. -/
theorem test_witness_HostLink : let s := up [(O.pciePllLock, 1), (O.targetSpeed, 6)]; let l := linked [] (armedRing 47 3 0 1); let p : State := { up [] with pwr := { released := 0xF } }
    p.hostPowered = true ∧ (after .pciePllLocked p).rd O.pcieLinkState = 1 ∧ only [O.pciePllLock, O.pcieLinkState] p (after .pciePllLocked p) = true ∧
    s.linkFits 6 8 true = true ∧ (after (.pcieLinkUp 6 8 true) s).rd O.pcieLinkState = 2 ∧ (after (.pcieLinkUp 6 8 true) s).rd O.linkSpeed = 6 ∧
    after (.pcieLinkUp 6 8 true) (given s [(O.targetSpeed, 5)]) = given s [(O.targetSpeed, 5)] ∧ after (.pcieLinkUp 5 3 true) s = s ∧
    l.live 47 = true ∧ (after .linkDown l).rd (O.dringHaltCause 47) = 0x0B ∧ (after .linkDown l).rd O.pcieLinkDowns = 1 ∧
    only [O.pcieLinkState] (given s [(O.pcieLinkState, 1)]) (after .linkDown (given s [(O.pcieLinkState, 1)])) = true ∧
    (after .pciePllUnlock l).rd O.pciePllLock = 0 ∧ (after .pciePllUnlock l).rd O.pcieLinkState = 0 ∧ (after .mgmtPllUnlock s).mgmtUp = false ∧
    (after .mgmtPllLocked (after .mgmtPllUnlock p)).mgmtUp = true := by decide +kernel

/-- Witness of Obligations.EndpointControls. -/
theorem test_witness_EndpointControls : let l := linked [] (armedRing 0 3 0 1); let q : ReadReq := { ring := 0, slot := 0, addr := 0, offset := 0, length := 8, left := 8 }; let r : State := { l with host := { l.host with reads := [(5, q)] } }
    (after .bmeClear r).rd (O.dringState 0) = RING_HALTED ∧ (after .bmeClear r).rd (O.dringHaltCause 0) = 2 ∧ (after .bmeClear r).host.reads = [(5, { q with orphan := true })] ∧
    (after .busMasterEnableSet (up [])).host.bme = true ∧
    objectsKept [] l (after .busMasterEnableSet l) = true ∧ (after .functionLevelReset l).rd (O.dringState 0) = RING_OFF ∧
    (after .functionLevelReset l).rd (O.dringHaltCause 0) = 0x0A ∧ (after .d3hot l).host.d3hot = true ∧ (after .returnToD0 (after .d3hot l)).host.d3hot = false ∧
    (after .flrDone (after .functionLevelReset l)).host.flr = false ∧ (after .atsEnableClear { l with host := { l.host with atsEnable := true } }).host.atsEnable = false ∧
    (after .aspmL1Entry l).rd O.l1Entries = 1 ∧ only [O.l1Entries] l (after .aspmL1Entry l) = true ∧ after .aspmL1Entry r = r ∧
    sent (after (.unsupportedRequest false 7) l) = some (.unsupported 7) ∧ sent (after (.unsupportedRequest true 7) l) = some (.aer "Unsupported Request" 7) ∧
    only [O.urReceived] l (after (.unsupportedRequest false 7) l) = true ∧ (after (.poisonedWrite 7) l).rd O.poisonedReceived = 1 ∧
    after (.doeRequest 0x1F4C 0 []) l = l ∧
    (let f := after .functionLevelReset l; f.host.flr = true ∧
      ([Instr.bmeClear, .busMasterEnableSet, .functionLevelReset, .d3hot, .returnToD0, .atsEnableClear, .doeRequest 0x1F4C 1 []].all fun c =>
        after c f == f.emit .retry) = true) := by decide +kernel

/-- Witness of Obligations.EndpointControls. -/
theorem test_witness_ConfigSpace : let s := up [(O.userAccess, 1), (O.pcValue 0, 9)]
    s.memOpen = true ∧ s.bar2Read 0x3F008 4 = some (zeros 4) ∧ s.memSupported .bar2 0x40000 4 true = false ∧ s.bar4Word 0 = 9 ∧ s.bar4Word 0x200 = 0 ∧
    (⟨0x34, 0, 8, 0x40⟩ : ConfigField) ∈ s.configFields := by decide +kernel

theorem test_doe_answers_the_description_table : (after (.doeRequest 0x1F4C 1 []) (up [])).out.length = 1 := by decide +kernel

/-- Witness of Obligations.RingsAndDoorbells. -/
theorem test_witness_Rings : let off := linked [] [(O.dringKind 47, 3)]; let ar := linked [] (armedRing 47 3 0 1); let st := fun (v : Nat) => given off [(O.dringState 47, v)]; let k := O.dringCmd 47
    let owed := fun (b : Bool) => { st RING_HALTED with host := { (st RING_HALTED).host with drings := [(47, { fetched := 1, flight := [{ slot := 0, desc := desc 256 1 0 }], owed := b })] } }
    off.gate .kdp k = .pass ∧ off.armBlocked = false ∧ off.armedInClass 47 = 0 ∧ (after (.arm .kdp 47 0) off).rd (O.dringState 47) = RING_ARMED ∧
    (after (.arm .kdp 47 0) (owed false)).rd (O.dringHead 47) = 0 ∧ (after (.arm .kdp 47 0) (owed true)).rd (O.dringHead 47) = 1 ∧
    (let o := owed true; let a := { o with host := { o.host with atsEnable := true } }; let f : Flight := { slot := 0, desc := desc 256 1 0 }; let t := after (.arm .kdp 47 0) a;
      a.missingPage (a.statusAddr 47 0) 8 = some (a.statusAddr 47 0 / 4096) ∧ a.freeTag.isSome = true ∧ t.rd (O.dringHead 47) = 0 ∧
      t.dring 47 = { fetched := 1, owing := [f], owed := (t.dring 47).owed, waitPage := some ⟨a.statusAddr 47 0 / 4096, 0⟩ }) ∧
    refused (.arm .kdp 47 0) .kdp k .range (given off [(O.dringKind 47, 0)]) ∧ refused (.arm .kdp 47 0) .kdp k .busy (up [(O.dringKind 47, 3), (O.dringState 47, RING_HALTED)]) ∧
    refused (.arm .kdp 47 0) .kdp k .busy (st RING_HALTING) ∧ refused (.arm .kdp 47 0) .kdp k .range (given off [(O.dringTarget 47, 1)]) ∧
    refused (.arm .kdp 47 0) .kdp k .noResource (given off ([(O.dringKind 47, 1)] ++ armedRing 0 1 0 0)) ∧
    (after (.halt .kdp 47 0) ar).rd (O.dringState 47) = RING_HALTING ∧ objectsKept [O.dringState 47] ar (after (.halt .kdp 47 0) ar) = true ∧
    endsWith (.halt .kdp 47 0) .kdp k .ok off ∧
    (after (.reset .kdp 47 0) (st RING_HALTED)).rd (O.dringState 47) = RING_OFF ∧ refused (.reset .kdp 47 0) .kdp k .notStopped ar ∧
    refused (.reset .kdp 47 0) .kdp k .notStopped (st RING_HALTING) ∧
    (st RING_HALTING).dring 47 = {} ∧ (after (.ringHalted 47) (st RING_HALTING)).rd (O.dringHaltCause 47) = 1 ∧
    only [O.dringState 47, O.dringHaltCause 47] (st RING_HALTING) (after (.ringHalted 47) (st RING_HALTING)) = true := by decide +kernel

/-- Witness of Obligations.RingsAndDoorbells. -/
theorem test_witness_Doorbells : let s := linked [] (armedRing 47 3 0 0); let v := fun (x : Vector) => { s with host := { s.host with vectors := [(63, x)] } }; let shut := { s with host := { s.host with memSpace := false } }; let w := fun (o : Fin 1024) (d : List Byte) => Instr.msixUnmask ⟨o, d⟩
    s.alive = true ∧ s.memOpen = true ∧ (after (.doorbell 10 1023) s).rd (O.ringTail 10) = 1023 ∧ s.rd (O.ringSizeLog2 10) = 10 ∧ (after (.doorbell 11 0) s).rd O.doorbellErrors = 1 ∧
    (after (.doorbell 10 1024) s).rd O.doorbellErrors = 1 ∧ (after (.doorbell 62 0) s).rd O.doorbellErrors = 1 ∧
    (after (.doorbell 15 0) s).rd O.doorbellErrors = 1 ∧ s.dsize 47 = 1024 ∧ (after (.doorbell 63 1023) s).rd (O.dringTail 47) = 1023 ∧
    objectsKept [O.dringTail 47] s (after (.doorbell 63 1023) s) = true ∧ (after (.doorbell 63 1024) s).rd (O.dringHaltCause 47) = 9 ∧
    objectsKept [O.urReceived] shut (after (.doorbell 63 0) shut) = true ∧ (after (.doorbell 63 0) shut).rd O.urReceived = 1 ∧ (let d := { s with pwr := { s.pwr with released := 0 } }; d.alive = false ∧ after (.doorbell 63 1) d = d) ∧
    s.canSend = true ∧ sent (after (.coalTimeExpiry 63) (given (v { masked := false, unsent := 1, addr := 8, data := 9 }) [(O.coalTime 63, 5)])) = some (.msix 63 8 9) ∧
    ((after (.coalTimeExpiry 63) (given (v { unsent := 1 }) [(O.coalTime 63, 5)])).vec 63).pending = true ∧
    sent (after (w 1020 (zeros 4)) (v { pending := true })) = some (.msix 63 0 0) ∧ ((after (w 1020 (zeros 4)) (v {})).vec 63).masked = false ∧
    ((after (w 1020 (leBytes 4 1)) (v { pending := true, masked := false })).vec 63).masked = true ∧
    (after (w 1008 (leBytes 8 0xFEE00000)) (v {})).vec 63 = { addr := 0xFEE00000 } ∧
    (after (w 1008 (leBytes 8 0xFEE00000)) s).objs = s.objs ∧
    ((after (w 1020 (zeros 4)) shut).vec 63).masked = true ∧ (after (w 1020 (zeros 4)) shut).rd O.urReceived = 1 ∧
    inMsixTable (0xFF0000 + 2) 4 = false ∧ (after (w 2 (zeros 4)) s).rd O.urReceived = 1 ∧
    (let d := { s with pwr := { s.pwr with released := 0 } }; after (.msixUnmask ⟨1020, zeros 4⟩) d = d) := by decide +kernel

/-- Witness of Obligations.DescriptorsReadsAndTranslations. -/
theorem test_witness_Descriptors : let s := linked [] (armedRing 0 3 0 3); let f : Flight := { slot := 0, desc := desc 256 1 0, effect := true }; let one := fun (f : Flight) => inFlight 0 [f] s
    s.takes 0 = true ∧ s.mayFetch 0 = true ∧ s.host.atsEnable = false ∧ s.freeTag.isSome = true ∧ toHost 3 = true ∧ s.descGood 0 (desc 256 1 0) = true ∧ s.descGood 0 (desc 255 1 0) = false ∧
    (after (.descriptorFetch 0 (desc 256 1 0)) s).dring 0 = { fetched := 1, flight := [{ slot := 0, desc := desc 256 1 0 }] } ∧
    ((after (.descriptorFetch 0 (desc 256 1 0)) s).fetchRead 0).isSome = true ∧
    ((after (.descriptorFetch 0 (desc 255 1 0)) s).dring 0).flight.map (·.halt) = [6] ∧ after (.descriptorFetch 1 (desc 256 1 0)) s = s ∧
    (one f).live 0 = true ∧ (one f).linkOpen = true ∧ (one f).missingPage ((one f).statusAddr 0 0) 8 = none ∧ (after (.descriptorComplete 0) (one f)).rd (O.dringHead 0) = 1 ∧
    (after (.descriptorComplete 0) (one { f with halt := 6 })).rd (O.dringHaltCause 0) = 6 ∧ after (.descriptorComplete 0) (one { f with effect := false }) = one { f with effect := false } := by decide +kernel

/-- Witness of Obligations.DescriptorsReadsAndTranslations. -/
theorem test_witness_Completions : let s := linked [] (armedRing 0 4 0 1); let q : ReadReq := { ring := 0, slot := 0, addr := 0, offset := 0, length := 8, left := 8 }; let w := fun (q : ReadReq) => inFlight 0 [{ slot := 0, desc := desc 8 1 0, issued := 8, data := zeros 8 }] { s with host := { s.host with reads := [(5, q)] } }; let r := w q; let m := fun (t : State) (g : Nat) => mfind t.host.reads g
    (after (.completionReceived 5 .success [] true) s).rd O.unexpectedCpls = 1 ∧ m r 5 = some q ∧
    m (after (.completionReceived 5 .success (zeros 4) false) r) 5 = some { q with left := 4 } ∧
    ((after (.completionReceived 5 .success [1#8, 2#8] false) r).dring 0).flight.map (fun f => (f.arrived, f.data)) = [(2, [1#8, 2#8] ++ zeros 6)] ∧
    r.live 0 = true ∧ r.missingPage (r.statusAddr 0 0) 8 = none ∧ (after (.completionReceived 5 .unsupported [] true) r).rd (O.dringHaltCause 0) = 7 ∧
    m (after (.completionReceived 5 .success [] true) (w { q with orphan := true })) 5 = none ∧
    (after (.completionTimeout 5) r).host.quarantine = [5] ∧ m (after (.completionTimeout 5) r) 5 = none ∧ (after (.unexpectedCpl 5) s).rd O.unexpectedCpls = 1 ∧
    (after (.quarantineExpiry 5) (given { s with host := { s.host with quarantine := [5] } } [(O.quarantinedTags, 1)])).rd O.quarantinedTags = 0 := by decide +kernel

/-- Witness of Obligations.DescriptorsReadsAndTranslations. -/
theorem test_witness_Translations : let s := linked [] (armedRing 0 3 0 1 ++ [(O.ringEnable 10, 1)]); let q : ReadReq := { kind := .translate, ring := 10, slot := 0, addr := 7 * 4096, offset := 0, length := 0, left := 0 }
    let a : State := { s with host := { s.host with atsEnable := true, reads := [(5, q), (6, { q with ring := 16 })], rings := [(10, { waiting := [{ type := 0, func := 0, severity := 0, overflow := false, seq := 0, time := 0, arg0 := 0, arg1 := 0, arg2 := 0, ring := 10, phase := true }] })], drings := [(0, { waitPage := some ⟨7, 0⟩, flight := [{ slot := 0, desc := desc 256 1 0 }] })] } }; let i : State := { s with host := { s.host with invalidates := [(3, [])] } }
    (a.translateRead 10 7).map (·.1) = some 5 ∧ (a.translateRead 16 7).map (·.1) = some 6 ∧
    (after (.translationCompletion 10 7 20 true) a).host.cache = [⟨7, 18⟩] ∧ (after (.translationCompletion 16 7 0 true) a).rd O.atsCacheUsed = 1 ∧
    (after (.translationCompletion 10 7 0 false) a).rd (O.ringLost 10) = 1 ∧ (after (.translationCompletion 16 7 0 false) a).rd (O.dringHaltCause 0) = 8 ∧
    after (.translationCompletion 9 7 0 false) a = a ∧ (after (.invalidateRequest 3 7 0) (after (.translationCompletion 10 7 0 true) a)).host.cache = [] ∧
    i.host.invalidates.find? (fun e => e.1 == 3) = some (3, []) ∧ sent (after (.invalidateComplete 3) i) = some (.invalidateDone 3) ∧
    objectsKept [O.atsInvalidations] i (after (.invalidateComplete 3) i) = true ∧
    (let u := (s.updD 0 fun d => { d with waitPage := some ⟨7, 0⟩, owing := [{ slot := 0, desc := desc 256 1 0 }] }).pageEnded 16 false;
      (u.dring 0).owing = [] ∧ (u.dring 0).owed = true ∧ u.rd (O.dringState 0) = RING_HALTED ∧ u.rd (O.dringHaltCause 0) = 8) := by decide +kernel

/-- Pair 0 in 100GbE ports of 4 lanes (mode 3), with port 0 up to a link state. -/
def portUp (link : Nat) (l : List (Nat × Nat)) : State :=
  up ((O.pairMode 0, 3) :: (O.adminUp 0, 1) :: (O.portLinkState 0, link) :: ((List.range 24).map fun i => (O.laneState i, 2)) ++ l)

/-- Witness of Obligations.PairAndPortCommands. -/
theorem test_witness_PairAndPorts : let s := up [(O.pairModeNext 3, 3)]; let d := up [(O.pairMode 3, 3)]; let u := portUp 3 []
    s.gate .kdp (O.pairApply 3) = .pass ∧ s.pairCheck 3 true (s.otnElsewhere 3) = .ok ∧ (after (.pairApply .kdp 3 0) s).rd (O.pairMode 3) = 3 ∧
    u.pairCheck 0 true (u.otnElsewhere 0) = .notStopped ∧ refused (.pairApply .kdp 0 0) .kdp (O.pairApply 0) .notStopped u ∧
    d.gate .kdp (O.adminUp 72) = .pass ∧ d.portExists 72 = true ∧ (after (.adminUp .kdp 72 true) d).rd (O.laneState 72) = 1 ∧
    (up []).portExists 95 = false ∧ refused (.adminUp .kdp 95 true) .kdp (O.adminUp 95) .range (up []) ∧
    u.rd (O.linkDownHold 0) = 0 ∧ (after (.adminUp .kdp 0 false) u).rd (O.lastDownCause 0) = 1 ∧ (after (.adminUp .kdp 0 false) u).rd (O.laneState 0) = 0 ∧
    u.gate .kdp (O.loopback 0) = .pass ∧ (after (.loopback .kdp 0 2) u).rd (O.loopback 0) = 2 ∧ refused (.loopback .kdp 0 3) .kdp (O.loopback 0) .range u ∧
    u.gate .kdp (O.prbsMode 239) = .pass ∧ (after (.prbsMode .kdp 239 3) u).rd (O.prbsMode 239) = 3 ∧ refused (.prbsMode .kdp 239 4) .kdp (O.prbsMode 239) .range u := by decide +kernel

/-- Witness of Obligations.LanesAndPortsFollowTheLine. -/
theorem test_witness_Lanes : let s := fun (v : Nat) => up [(O.laneState 239, v), (O.prbsMode 239, 1)]
    (after (.laneLocked 239 [1] 70000) (s 1)).rd (O.rxSnr 239) = 0xFFFF ∧ (after (.laneLocked 239 [1] 5) (s 1)).rd (O.laneState 239) = 2 ∧
    (after (.laneTrainFailed 239 5) (s 1)).rd (O.laneState 239) = 3 ∧ (after (.laneTrainRetry 239) (s 3)).rd (O.laneState 239) = 0 ∧ (after (.laneTrainRetry 239) (up [(O.laneState 239, 3)])).rd (O.laneState 239) = 1 ∧
    (after (.laneSignalLoss 239 true) (s 2)).rd (O.lockLosses 239) = 1 ∧ (after (.prbsCheckerSync 239 true) (s 2)).rd (O.prbsLock 239) = 1 := by decide +kernel

/-- Witness of Obligations.LanesAndPortsFollowTheLine. -/
theorem test_witness_Ports : let a := portUp 2 []; let u := portUp 3 []; let w := fun (c b x : Nat) => after (.fecWindowEnd 0 c b x) u; let so := on [.clk] [(O.pairMode 0, 3), (O.laneState 0, 2), (O.synceSrc 0, 0), (O.synceDiv 0, 65535), (O.synceState 0, 2)]
    a.diagnostic 0 = false ∧ a.isOtn 0 = false ∧ a.outOfService 0 = false ∧ (after (.pcsAligned 0) a).rd (O.portLinkState 0) = 3 ∧
    objectsKept [O.portLinkState 0] a (after (.pcsAligned 0) a) = true ∧
    (after (.alignmentLoss 0 true) u).rd (O.lastDownCause 0) = 5 ∧ (after (.alignmentLoss 0 false) u).rd (O.lastDownCause 0) = 4 ∧
    objectsKept [O.portLinkState 0, O.lastDownCause 0, O.portLinkDowns 0] u (after (.alignmentLoss 0 true) u) = true ∧
    (after (.faultReceived 0 .localFault) u).rd (O.portLinkState 0) = 4 ∧ (after (.faultReceived 0 .remoteFault) u).rd (O.portLinkState 0) = 5 ∧
    (after (.faultReceived 0 .none) (portUp 5 [])).rd (O.portLinkState 0) = 3 ∧
    (after (.linkDownHoldExpiry 0) { a with line := { a.line with held := [(0, 4)] } }).rd (O.lastDownCause 0) = 4 ∧
    (w 1 2 4000).rd (O.fecDegraded 0) = 1 ∧ (w 1 2 3999).rd (O.cwUncorrectable 0) = 2 ∧ u.receivesCodewords 0 = true ∧ (w 1 2 3999).rd (O.cwCorrected 0) = 1 ∧ (after (.fecWindowEnd 0 1 2 3) (given u [(O.fecMode 0, 1)])).rd (O.cwCorrected 0) = 0 ∧
    after (.fecWindowEnd 0 1 2 3) a = a ∧ (after (.laneSignalLoss 0 true) u).rd (O.lastDownCause 0) = 2 ∧ only [O.cwTotal 0, O.cwCorrected 0, O.cwUncorrectable 0, O.symbolsCorrected 0, O.fecDegraded 0] u (w 1 2 4000) = true ∧
    so.synceCauses 0 = 0 ∧ (after (.synceHoldoffExpiry 0) so).rd (O.synceState 0) = 1 := by decide +kernel

/-- Witness of Obligations.SubportsAndTimeOfDay. -/
theorem test_witness_Subports : let s := up [(O.pairMode 3, 3), (O.subportData, 72)]; let b := after (.bind .kdp 511) s
    s.gate .kdp O.subportCmd = .pass ∧ s.portExists 72 = true ∧ mfind b.line.subports 511 = some 72 ∧ objectsKept [O.subportResult] s b = true ∧
    mfind (after (.unbind .kdp 511) b).line.subports 511 = none ∧ (after (.unbind .kdp 95) s).rd O.subportResult = Status.accessDenied.code ∧
    only [O.subportResult] s (after (.unbind .kdp 95) s) = true ∧ b.subportPort 511 = some 72 ∧ (after (.subportRead .kdp 511) b).rd O.subportData = 200 := by decide +kernel

/-- Witness of Obligations.SubportsAndTimeOfDay. -/
theorem test_witness_TimeOfDay : let s := on [.clk] [(O.todSetSec, 9), (O.todSetNs, 7), (O.ppsOutEnable, 1), (O.ppsInEnable, 1)]; let hi : State := { s with line := { s.line with ppsHigh := true, ppsSeen := true, armed := some (2 ^ 48 - 1, 999999999) } }
    s.gate .kdp O.todCapture = .pass ∧ s.gate .kdp O.todSet = .pass ∧ s.gate .kdp O.todStep = .pass ∧
    (after (.todSetNow .kdp 0) s).todSeconds = 9 ∧ (after (.todSetNow .kdp 0) s).todNanos = 7 ∧ (after (.todCapture .kdp 0) (after (.todSetNow .kdp 0) s)).rd O.todSec = 9 ∧
    (after (.todSetArm .kdp 0) s).rd O.todSetPending = 1 ∧ (after (.todSetCancel .kdp 0) s).line.armed = none ∧
    (after (.todStep .kdp 5) s).todNanos = 5 ∧ (after (.todStep .kdp 0xFFFFFF) (after (.todStep .kdp 5) s)).todNanos = 4 ∧
    (after .ppsOutPulse s).line.ppsHigh = true ∧ (after .ppsOutEnd hi).line.ppsHigh = false ∧ (after .ppsInEdge hi).line.tod = ((2 ^ 48 - 1) * todSec + 999999999 * todNs) % todWrap ∧
    (after .ppsInEdge s).rd O.ppsInEdges = 1 ∧ (after .ppsInLost hi).line.ppsSeen = false ∧ objectsKept [] hi (after .ppsInLost hi) = true := by decide +kernel

/-- Group 11 of 16 slices in force, with its slices as given. -/
def group (y : OtnSlice) (errored badSecs : Nat) (l : List (Nat × Nat)) : State :=
  { on [.otn, .line] ((O.groupN 11, 16) :: l) with
    otn := { groups := [(11, { inForce := true, los := false, slices := [(15, y)], errored := errored, badSecs := badSecs })] } }

/-- A clean frame period. -/
def clean : OtucObs :=
  { fas := [], fas32 := true, markers := true, mfas := 3, smBip := 2, smBei := 1, smBdi := true, pmBip := 4, pmBei := 1, pmBdi := false, tti := none }

/-- Witness of Obligations.OtnFramesAreAligned. -/
theorem test_witness_OtnFrames : let h := group {} 0 0 []; let f := group { hunting := false, misses := 4, inMulti := true } 9 6 [(O.degThreshold 11, 8)]; let go := fun (o : OtucObs) (s : State) => after (.otucFramePeriod 11 15 o []) s; let y := fun (s : State) => (s.grp 11).slice 15
    h.grpRuns 11 = true ∧ 15 < h.groupN 11 ∧ (h.grp 11).los = false ∧ h.running .line = true ∧ (y h).hunting = true ∧ (y (go clean h)).age = 1 ∧
    (y f).hunting = false ∧ (y (go { clean with markers := false } f)).hunting = true ∧ (go { clean with fas32 := false } f).rd (O.oofEvents 11) = 1 ∧
    (y (go clean f)).misses = 0 ∧ (go clean f).rd (O.smBipErrors 11) = 2 ∧ (go clean f).rd (O.pmBipErrors 11) = 4 ∧
    (y (after (.integratedDefectTimer 11 15 false) h)).lof = true ∧ (y (after (.integratedDefectTimer 11 15 true) f)).lom = false ∧
    (f.grp 11).rows = [] ∧ f.groupN 11 = 16 ∧ ((after (.otucFramePeriod 11 15 clean []) { f with otn := { groups := [(11, { (f.grp 11) with rows := List.range 15 })] } }).grp 11).rows = [] ∧
    ((after (.otucFramePeriod 11 15 clean []) f).grp 11).rows = [15] ∧ (after (.smDegSecond 11) h).rd (O.degThreshold 11) = 0 ∧ ((after (.smDegSecond 11) f).grp 11).smDeg = true ∧ f.rd (O.degSeconds 11) = 7 ∧
    (let q := given f [(O.state .line, STOPPED)]; (y (go { clean with fas32 := false } q)).misses = 4 ∧ (go { clean with fas32 := false } q).rd (O.oofEvents 11) = 0) := by decide +kernel

/-- Witness of Obligations.TributarySlotsAreInterchanged. -/
theorem test_witness_Tsi : let s := on [.otn] [(O.tsiKey, 65536), (O.tsiData, 2 ^ 29 + 5)]; let page : State := { s with otn := { s.otn with standby := [(65536, 7)], active := [(0, 1)] } }; let pend := given page [(O.tsiSwapState, 1)]
    s.gate .kdp O.tsiCmd = .pass ∧ s.tsiPending = false ∧ (up []).fnState .otn = DISABLED ∧ (after (.tsiWrite .kdp 0) (up [])).rd O.tsiResult = Status.functionDisabled.code ∧
    tsiKeyGood 65536 = true ∧ tsiDataGood 65536 (2 ^ 29 + 5) = true ∧ (after (.tsiWrite .kdp 0) s).otn.standby = [(65536, 2 ^ 29 + 5)] ∧
    (after (.tsiSwap .kdp 0) (up [(O.state .otn, STOPPED)])).rd O.tsiResult = Status.functionDisabled.code ∧ (after (.tsiCopy .kdp 0) page).otn.standby = [(0, 1)] ∧ (after (.tsiClear .kdp 0) page).otn.standby = [] ∧
    s.tsiFirstBad s.otn.standby s.inForceNow = none ∧ (after (.tsiSwap .kdp 0) s).rd O.tsiSwapState = 1 ∧
    page.tsiFirstBad page.otn.standby page.inForceNow = some 65536 ∧ (after (.tsiSwap .kdp 0) page).rd O.tsiErrorKey = 65536 ∧
    (after (.tsiRead .kdp false 0) page).rd O.tsiData = 7 ∧ pend.tsiPending = true ∧ (after .tsiSwapped pend).otn.active = [(65536, 7)] ∧
    (after .tsiSwapped pend).rd O.tsiSwaps = 1 := by decide +kernel

/-- Witness of Obligations.TributarySlotsAreInterchanged. -/
theorem test_witness_TsiRecords : let recs := leBytes 4 65536 ++ leBytes 4 (2 ^ 29); let s := loaded [.otn] 0x00050001 recs []; let b := loaded [.otn] 0x00050001 (recs ++ leBytes 4 320 ++ leBytes 4 0) []
    (s.ringRecords 0 0x00050001 8).isSome = true ∧ s.tsiPending = false ∧ (after (.tsiRingRecords 0) s).otn.standby = [(65536, 2 ^ 29)] ∧
    took .ok 8 0 (after (.tsiRingRecords 0) s) = true ∧ took .range 0 1 (after (.tsiRingRecords 0) b) = true ∧ (after (.tsiRingRecords 0) b).otn.standby = [] := by decide +kernel

/-- Port 0 of pair 0 UP, with the functions of the packet path RUNNING. -/
def ether (fs : List Fn) (l : List (Nat × Nat)) : State :=
  on (.line :: .parse :: .eng :: fs) ([(O.pairMode 0, 3), (O.adminUp 0, 1), (O.portLinkState 0, 3), (O.evradState 0, 1)] ++ l)

/-- A packet of port 0 with place `seq` in its order, in a slice. -/
def packet (id seq slice : Nat) : Pkt := { id := id, md := 0, frame := zeros 60, slice := slice, port := 0, seq := seq }

/-- Witness of Obligations.FramesEnterTheSlices. -/
theorem test_witness_FramesEnter : let s := ether [] []; let go := fun (n : Nat) (good : Bool) (s : State) => after (.frameReceived 0 none (zeros n) ⟨good, false⟩ []) s; let noParse := given s [(O.state .parse, STOPPED)]
    s.isOtn 0 = false ∧ s.running .line = true ∧ go 60 true (given s [(O.loopback 0, 1)]) = given s [(O.loopback 0, 1)] ∧ (go 60 true (given s [(O.loopback 0, 2)])).rd (O.rxBytes 0) = 64 ∧
    (after (.frameReceived 0 none (zeros 60) ⟨true, true⟩ []) (given s [(O.fecMode 0, 1)])).rd (O.rxFcsErrors 0) = 1 ∧ (s.clientFrames 0 511 = false) ∧ (given s [(O.portRole 0, 1)]).isOtn 0 = true ∧ (go 60 false s).rd (O.rxFcsErrors 0) = 1 ∧ only [O.rxFcsErrors 0] s (go 60 false s) = true ∧
    (go 59 true s).rd (O.rxUndersize 0) = 1 ∧ (go 61 true (given s [(O.maxFrame 0, 64)])).rd (O.rxOversize 0) = 1 ∧
    (go 60 true (given s [(O.protRole 0, 1)])).rd (O.stbyRxFrames 0) = 1 ∧ (go 60 true noParse).rd (O.storeFullDrops 0) = 1 ∧
    only [O.rxOverrun 0, O.storeFullDrops 0] noParse (go 60 true noParse) = true ∧ s.storeFull (s.steer 0) 60 = false ∧ s.dispatchRoom 0 = true ∧
    (go 60 true s).rd (O.rxFrames 0) = 1 ∧ (go 60 true s).rd (O.rxBytes 0) = 64 ∧ (mget (go 60 true s).pk.dispatch [] 0).length = 1 := by decide +kernel

/-- Ring 0 of kind 4 with an injected packet of 60 bytes that has arrived. -/
def injecting (op arg : Nat) (l : List (Nat × Nat)) : State :=
  inFlight 0 [{ slot := 0, desc := desc 60 op arg, data := zeros 60, issued := 60, arrived := 60 }]
    (linked [.parse, .line] (armedRing 0 4 0 1 ++ [(O.pairMode 0, 3), (O.evradState 0, 1)] ++ l))

/-- Witness of Obligations.FramesEnterTheSlices. -/
theorem test_witness_Injection : let p := injecting 1 0 []; let q := injecting 2 7 []; let off := [(O.state .parse, STOPPED)]
    (p.injection 0 1).isSome = true ∧ p.storeFull 0 60 = false ∧ p.portExists 0 = true ∧ (after (.injectPort 0 []) p).rd (O.hostInjected 0) = 1 ∧
    took .functionDisabled 60 0 (after (.injectPort 0 []) (given p off)) = true ∧ (q.injection 0 2).isSome = true ∧
    (mget (after (.injectQueue 0) q).pk.chanIn [] 0).length = 1 ∧ took .functionDisabled 60 0 (after (.injectQueue 0) (given q off)) = true := by decide +kernel

/-- Witness of Obligations.PacketsRunAndKeepTheirOrder. -/
theorem test_witness_EgressSlice : let s : State := { ether [] [] with pk := { chanEg := [(7, [{ hdr := 0, frame := zeros 60, port := 0, seq := 3 }])] } }
    s.storeFull 15 60 = false ∧ s.dispatchRoom 15 = true ∧ mget (after (.egressSliceInput 7 []) s).pk.chanEg [] 7 = [] ∧
    (mget (after (.egressSliceInput 7 []) s).pk.dispatch [] 15).map (·.seq) = [3] := by decide +kernel

/-- A pass of a packet in cluster 47. -/
def pass (p : Pkt) : Pass := { pkt := p, cluster := 47, engine := 0, bank := 0, entry := List.replicate 64 1, start := 0 }

/-- A pass that ended as it should. -/
def endOk : PassResult :=
  { words := 0, frame := zeros 60, exc := none, bankError := false, issue := 4, residence := 9, reads := [], stat := { read := ⟨false, .clean, 0⟩, held := 0 }, requests := [] }

/-- Passes in hand on top of `ether`. -/
def passing (l : List Pass) : State := { ether [.trap] [(O.clusterState 47, 1)] with pk := { passes := l } }

/-- Witness of Obligations.PacketsRunAndKeepTheirOrder. -/
theorem test_witness_Passes : let s : State := { ether [] [(O.clusterState 47, 1)] with pk := { dispatch := [(15, [packet 1 0 15])] } }; let e := packet 5 0 0; let drop := { e with md := mdSet 0 9 1 1 1 }; let prof := { e with md := mdSet 0 9 15 4 9 }; let y := passing [pass e]
    s.nextCluster 15 = some 47 ∧ s.accepts 15 47 = true ∧ after (.dispatch 14 []) s = s ∧ (after (.dispatch 15 []) s).pk.passes.map (·.pkt.id) = [1] ∧ y.passOf 47 5 = some (pass e) ∧ e.profile = 0 ∧
    dropOf e.md = false ∧ (after (.passEnd 47 5 endOk) y).pk.passes = [] ∧ (after (.passEnd 47 5 endOk) y).rd (O.clusterPasses 47) = 1 ∧
    ((after (.passEnd 47 5 endOk) y).order (reorderKey 0 0)).waiting.map (·.pkt.id) = [5] ∧
    dropOf drop.md = true ∧ (after (.passEnd 47 5 endOk) (passing [pass drop])).rd (O.engineDrops 0) = 1 ∧
    (after (.residenceOverrun 47 5 ⟨3, ⟨⟨false, .clean, 0⟩, 0⟩⟩) y).rd (O.excCount 2) = 1 ∧ prof.profile = 9 ∧ y.rd O.residenceLimit = 3000 ∧
    (after (.passEnd 47 5 { endOk with residence := 3001 }) y).rd (O.excCount 2) = 1 ∧ (pass prof).misfit = false ∧ (after (.passEnd 47 5 { endOk with issue := 258 }) (passing [pass prof])).rd (O.excCount 1) = 1 ∧
    { pass prof with entry := [] }.misfit = true ∧ (after (.passEnd 47 5 endOk) (passing [{ pass prof with entry := [] }])).rd (O.excCount 5) = 1 ∧ (after (.cycleOverrun 47 5 ⟨3, ⟨⟨false, .clean, 0⟩, 0⟩⟩) (passing [pass prof])).rd (O.excCount 1) = 1 := by decide +kernel

/-- Witness of Obligations.PacketsRunAndKeepTheirOrder. -/
theorem test_witness_Reorder : let w := fun (p : Pkt) (trap : Bool) => { passing [] with pk := { reorder := [(0, { expected := 3, waiting := [{ pkt := p, trap := trap }] })] } }; let late := passing [pass (packet 5 0 0)]
    (w (packet 5 3 0) false).channelFull { pkt := packet 5 3 0, trap := false } = false ∧
    (mget (after (.reorderRelease 0 0) (w (packet 5 3 0) false)).pk.chanIn [] 0).length = 1 ∧ ((after (.reorderRelease 0 0) (w (packet 5 3 0) false)).order 0).expected = 4 ∧
    (after (.reorderRelease 0 0) (w (packet 5 3 0) true)).pk.trap.length = 1 ∧
    ((after (.reorderTimeout 0 0) late).order 0).expected = 1 ∧ (after (.reorderTimeout 0 0) late).rd (O.reorderTimeouts 0) = 1 := by decide +kernel

/-- Witness of Obligations.FramesLeave. -/
theorem test_witness_FramesLeave : let f : TxFrame := { frame := zeros 60, subport := 0, ts := {}, rxSec := 0, rxNs := 0, bytes := 60, owner := 0 }; let s := fun (l : List (Nat × Nat)) => { ether [] l with pk := { mac := [(0, [f])] } }; let go := fun (s : State) => after (.frameTransmit 0) s
    (s []).macOf 0 = [f] ∧ (s []).nextTx 0 = some (f, []) ∧ after (.frameTransmit 1) (s []) = s [] ∧ (go (s [(O.portRole 0, 1)])).rd O.subportDrops = 1 ∧ (go (s [(O.protRole 0, 1)])).rd (O.stbyTxDiscards 0) = 1 ∧ (go (s [(O.portLinkState 0, 2)])).rd (O.txDiscards 0) = 1 ∧
    objectsKept [O.txDiscards 0] (s [(O.portLinkState 0, 2)]) (go (s [(O.portLinkState 0, 2)])) = true ∧
    (s []).rd (O.loopback 0) = 0 ∧ sent (go (s [])) = some (.frame 0 (zeros 60) false) ∧ (go (s [])).rd (O.txBytes 0) = 64 ∧ (go (s [])).macOf 0 = [] := by decide +kernel

/-- Witness of Obligations.FramesLeave. -/
theorem test_witness_Trap : let k : Trapped := { pkt := packet 5 0 0, egress := false }; let s := { ether [] [] with pk := { trap := [k] } }; let r : State := { inFlight 0 [{ slot := 0, desc := desc 256 1 0 }] (linked [.trap] (armedRing 0 3 0 1 ++ [(O.trapRing 0, 16)])) with pk := { trap := [k] } }
    s.armedKind (s.rd (O.trapRing 0)) 3 = false ∧ (after .trapDeliver s).rd (O.trapDrops 0) = 1 ∧ objectsKept [O.trapDrops 0] s (after .trapDeliver s) = true ∧
    r.armedKind (r.rd (O.trapRing 0)) 3 = true ∧ (r.dring 0).flight.all (fun f => !f.fence) = true ∧ r.host.atsEnable = false ∧ r.rd (O.trapRate 0) = 0 ∧ r.rd (O.trapTruncate 0) = 0 ∧ r.canSend = true ∧
    (cutItem (r.buffers 0) (trapHeader k.pkt k.egress false ++ k.pkt.frame)).isSome = true ∧ (after .trapDeliver r).rd (O.trapPackets 0) = 1 := by decide +kernel

/-- Witness of Obligations.ChainBanksAreSwapped. -/
theorem test_witness_Chain : let s := on [.parse] []; let bad := given s [(O.stageKind 27, 1)]; let pend : State := { s with pk := { s.pk with swapAt := some 0 } }
    s.gate .kdp O.chainCmd = .pass ∧ s.pk.swapAt = none ∧ (after (.chainCopy .kdp 0) s).rd O.chainResult = 0 ∧ (after (.chainClear .kdp 0) bad).rd (O.stageKind 27) = 0 ∧
    (after (.chainSwap .kdp 1) s).rd O.chainResult = Status.range.code ∧ chainStages.find? (fun st => s.stageBad st) = none ∧ (after (.chainSwap .kdp 0) s).rd O.chainSwapState = 1 ∧
    chainStages.find? (fun st => bad.stageBad st) = some 27 ∧ (after (.chainSwap .kdp 0) bad).rd O.chainErrorStage = 139 ∧
    (after (.chainCopy .kdp 0) pend).rd O.chainResult = Status.busy.code ∧ (after .chainSwapDone pend).rd O.chainSwaps = 1 ∧ (after .chainSwapDone pend).rd O.chainActiveBank = 1 := by decide +kernel

/-- A bundle whose catalogue holds one behaviour, 1, for both passes and no parameter. -/
def bundle : Bundle := { version := 2, catalogue := 1 + 3 * 2 ^ 16 }

/-- A profile entry of behaviour 1 for the first pass. -/
def goodEntry : List Byte := leBytes 2 1 ++ [1, 0] ++ leBytes 2 16 ++ zeros 58

/-- ENG RUNNING with the bundle active. -/
def coded (l : List (Nat × Nat)) : State := { on [.eng] l with pk := { active := some bundle } }

/-- Witness of Obligations.ProfilesAreWrittenInPairs. -/
theorem test_witness_Profiles : let s := coded [(O.profData, leNat goodEntry)]; let heldP : State := { s with pk := { s.pk with profiles := [(4095, { entry := goodEntry, hold := true, passes := 3 })] } }
    s.gate .kdp O.profCmd = .pass ∧ (after (.profileWrite .kdp 0) s).rd O.profResult = Status.range.code ∧ (after (.profileWrite .kdp 4096) s).rd O.profResult = Status.range.code ∧
    s.mcodeBusy = false ∧ (s.profile 4095).hold = false ∧ profileGood s.pk.active (s.rdB O.profData 64) = true ∧
    (after (.profileWrite .kdp 4095) s).profile 4095 = { entry := goodEntry, hold := true, gen := 1 } ∧ (after (.profileClear .kdp 1) s).profile 1 = { hold := true, gen := 1 } ∧
    (after (.profileWrite .kdp 4095) heldP).rd O.profResult = Status.busy.code ∧ (after (.profileRead .kdp 4095) heldP).rd O.profPasses = 3 ∧
    (after (.profileHoldEnd 4095) heldP).profile 4095 = { entry := goodEntry, passes := 3 } := by decide +kernel

/-- Witness of Obligations.ProfilesAreWrittenInPairs. -/
theorem test_witness_ProfileRing : let rec_ := leBytes 2 9 ++ leBytes 2 0 ++ goodEntry; let s := fun (d : List Byte) => { loaded [.eng] 0x00070001 d [] with pk := { active := some bundle } }; let go := fun (d : List Byte) => after (.profileRingWrite 0) (s d)
    (s rec_).isTableRing 0 0x00070001 = true ∧ ((s rec_).nextEffect 0).isSome = true ∧ (s rec_).profRecordGood (profRecord rec_ 0) = true ∧
    ((s rec_).nextEffect 0).map (·.record) = some 0 ∧ (go rec_).profile 9 = { entry := goodEntry, hold := true, gen := 1 } ∧ took .ok 68 0 (go rec_) = true ∧ took .range 67 0 (go (rec_.take 67)) = true := by decide +kernel

/-- Witness of Obligations.MicrocodeIsLoadedAndSwitched. -/
theorem test_witness_Microcode : let s := fun (v : Nat) => { coded [(O.mcodeState, v), (O.clusterState 0, 1)] with pk := { active := some bundle, staged := some bundle, idle := some bundle } }; let k := O.mcodeCmd
    (s 1).gate .kdp k = .pass ∧ (after (.load .kdp 0) (s 3)).rd O.mcodeState = 2 ∧ refused (.load .kdp 0) .kdp k .busy (s 4) ∧ refused (.switch .kdp 0) .kdp k .busy (s 2) ∧
    (s 3).badProfile (s 3).pk.idle = none ∧ (after (.switch .kdp 0) (s 3)).rd (O.clusterState 0) = 2 ∧ (after (.abort .kdp 0) (s 2)).rd O.mcodeState = 1 ∧
    (after (.mcodeLoaded none) (s 2)).rd O.mcodeState = 3 ∧ (after (.mcodeLoaded (some 47)) (s 2)).rd O.mcodeResult = Status.integrity.code := by decide +kernel

/-- Witness of Obligations.MicrocodeIsLoadedAndSwitched. -/
theorem test_witness_ClusterSwitch : let s : State := { coded [(O.mcodeState, 4), (O.clusterState 47, 2)] with pk := { active := some bundle, idle := none, turn := 47 } }; let r := fun (out : Bool) => { coded [(O.mcodeState, 1), (O.clusterState 47, 3)] with pk := { clusters := [(47, { parity := some 0, out := out })] } }
    s.clusterPasses 47 = [] ∧ (after (.clusterSwitch 47 5) s).rd O.mcodeSwitches = 1 ∧ (after (.clusterSwitch 47 5) s).rd (O.clusterBank 47) = 1 ∧
    (after (.clusterSwitch 47 5) s).pk.idle = some bundle ∧ (after (.clusterRepairDone 47) (r false)).rd (O.parityRepairs 47) = 1 ∧
    (after (.clusterRepairDone 47) (r true)).rd (O.clusterState 47) = 4 := by decide +kernel

/-- FWD RUNNING, with a key and data in the command objects of table `x`, and tables as given. -/
def table (x key data : Nat) (f : FwdSt) (l : List (Nat × Nat)) : State :=
  { on [.fwd] ((O.tblKey x, leNat (beBytes (tblKeyLen x) key)) :: (O.tblData x, leNat (beBytes (tblDataLen x) data)) :: l) with fwd := f }

/-- A word of table `tid` read with bad parity in the entry `key`. -/
def badRow (tid key : Nat) : BadRead := { stage := none, tid := tid, key := key, word := 0, keyBad := false, len := 0, tagBad := false, prioBad := false }

/-- Witness of Obligations.TableInsertsStore. -/
theorem test_witness_Inserts_prefix : let s := table 1 0xFFFFFFFFFFFF 1048575 {} [(O.tblLen 1, 32)]; let s6 := table 2 0 5 {} [(O.tblLen 2, 128)]; let go := fun (t : Fin 8) (s : State) => after (.tblInsert .kdp t ⟨0, []⟩) s
    s.gate .kdp (O.tblCmd 1) = .pass ∧ tblArg 1 0 32 = some { len := 32 } ∧ tblArg 1 1 32 = none ∧ endsWith (.tblInsert .kdp 0 ⟨1, []⟩) .kdp (O.tblCmd 1) .range s = true ∧
    endsWith (.tblInsert .kdp 0 ⟨0, []⟩) .kdp (O.tblCmd 1) .functionDisabled (up []) = true ∧ lpmOk 32 0xFFFFFFFFFFFF 32 = true ∧ routeOk 1048575 = true ∧
    (go 0 s).fwd.v4 = [(0xFFFFFFFFFFFF * 64 + 32, 1048575)] ∧ (go 0 s).rd (O.tblUsed 1) = 1 ∧
    only [O.tblStatus 1, O.tblFound 1, O.tblUsed 1] { s with fwd := (go 0 s).fwd } (go 0 s) = true ∧
    lpmOk 128 0 128 = true ∧ (go 1 s6).fwd.v6 = [(128, 5)] := by decide +kernel

/-- Witness of Obligations.TableInsertsStore. -/
theorem test_witness_Inserts_others : let x := table 3 (7 * 2 ^ 96) 5 {} [(O.keyWidth 15, 64)]; let b := table 4 9 (2 ^ 43 - 1) {} []; let i := table 8 (tblIndexes 8 - 1) 5 {} []; let r := { i with fwd := { index := [(idxKey 8 (tblIndexes 8 - 1), { state := 2, data := 0 })] } }
    tblArg 3 31 0 = some { sub := 15, age := true } ∧ x.exactOk 15 (7 * 2 ^ 96) = true ∧ x.slotsUsed = 0 ∧
    (after (.tblInsert .kdp 2 ⟨31, []⟩) x).fwd.exact = [(exactKey 15 (7 * 2 ^ 96), { data := 5, age := true, hit := true, mark := false })] ∧
    tblArg 4 0x200 0 = some { halves := 2 } ∧ bridgeOk (2 ^ 43 - 1) = true ∧
    (after (.tblInsert .kdp 3 ⟨0x200, []⟩) b).fwd.half1 = [(9, { data := 2 ^ 43 - 1, hit := true, mark := false })] ∧ (after (.tblInsert .kdp 3 ⟨0x200, []⟩) b).fwd.half0 = [] ∧
    indexOk 8 5 = true ∧ (after (.tblInsert .kdp 7 ⟨0, []⟩) i).rd (O.tblIndexState 8) = 1 ∧ r.fwd.idxState 8 (tblIndexes 8 - 1) = 2 ∧
    endsWith (.tblInsert .kdp 7 ⟨0, []⟩) .kdp (O.tblCmd 8) .busy r = true := by decide +kernel

/-- Witness of Obligations.TableCommandsAnswer. -/
theorem test_witness_TableCommands : let s := table 1 0x0A000001 0 { v4 := [(key4 0 0x0A000000 8, 3), (key4 0 0x0A000001 32, 4)] } [(O.tblLen 1, 32)]; let miss := table 1 0x0A000002 0 { v4 := [(key4 0 0x0A000000 8, 3)] } [(O.tblLen 1, 32)]; let s6 := table 2 0 0 { v6 := [(key6 0 0 0, 9)] } []; let d := fun (x v : Nat) => leNat (beBytes (tblDataLen x) v)
    (after (.tblDelete .kdp 0 ⟨0, []⟩) s).fwd.v4 = [(key4 0 0x0A000000 8, 3)] ∧ (after (.tblDelete .kdp 1 ⟨0, []⟩) s6).fwd.v6 = [] ∧ (after (.tblSearch .kdp 0 ⟨0, []⟩) s).rd (O.tblData 1) = d 1 4 ∧
    (tblArg 1 0x400000 32).map (·.longest) = some true ∧ (after (.tblSearch .kdp 0 ⟨0x400000, []⟩) miss).rd (O.tblData 1) = d 1 3 ∧ (after (.tblSearch .kdp 0 ⟨0x400000, []⟩) miss).rd (O.tblLen 1) = 8 ∧
    (after (.tblSearch .kdp 1 ⟨0x400000, []⟩) s6).rd (O.tblData 2) = d 2 9 ∧ (tblArg 1 0x800000 32).map (·.fromStart) = some true ∧
    (after (.tblNext .kdp 0 ⟨0x800000, []⟩) s).rd (O.tblLen 1) = 8 ∧ (after (.tblNext .kdp 0 ⟨0, []⟩) (after (.tblNext .kdp 0 ⟨0x800000, []⟩) s)).rd (O.tblLen 1) = 32 ∧
    (after (.tblNext .kdp 0 ⟨0, []⟩) (given s [(O.tblCursor 1, leNat (beBytes 7 (2 ^ 56 - 1)))])).rd (O.tblFound 1) = 0 := by decide +kernel

/-- Witness of Obligations.TableCommandsAnswer. -/
theorem test_witness_TableCommands_others : let e : ExactEntry := { data := 1, age := false, hit := true, mark := false }; let x := table 3 0 0 { exact := [(exactKey 0 0, e)] } [(O.keyWidth 0, 160)]; let b := table 4 9 0 { half0 := [(9, { data := 6, hit := false, mark := false })] } []; let i := table 5 3 0 { index := [(idxKey 5 3, { state := 1, data := 8 })] } []; let go := fun (c : Instr) (s : State) => after c s
    x.exactOk 0 0 = true ∧ (go (.tblDelete .kdp 2 ⟨0, []⟩) x).fwd.exact = [] ∧ (go (.tblSearch .kdp 2 ⟨0, []⟩) { x with fwd := {} }).rd (O.tblFound 3) = 0 ∧
    badOf [badRow 3 0] 3 = [badRow 3 0] ∧ (go (.tblSearch .kdp 2 ⟨0, [badRow 3 0]⟩) x).fwd.exact = [] ∧ (go (.tblSearch .kdp 2 ⟨0, [badRow 3 0]⟩) x).rd (O.tblParityMisses 3) = 1 ∧
    (go (.tblDelete .kdp 3 ⟨0x100, []⟩) b).fwd.half0 = [] ∧ (go (.tblSearch .kdp 3 ⟨0x100, []⟩) b).rd (O.tblFound 4) = 1 ∧ endsWith (.tblDelete .kdp 4 ⟨0, []⟩) .kdp (O.tblCmd 5) .range i = true ∧
    (go (.tblSearch .kdp 4 ⟨0, []⟩) i).rd (O.tblIndexState 5) = 1 ∧ b.flushing = 0 ∧ (tblArg 4 (0x300 + 511 * 2048) 0).map (·.station) = some 511 ∧
    (go (.flushPort .kdp 3 (0x300 + 511 * 2048)) b).rd O.flushBusy = 3 ∧
    endsWith (.flushPort .kdp 3 0x100) .kdp (O.tblCmd 4) .busy (go (.flushPort .kdp 3 0x300) b) = true ∧
    (go (.retire .kdp 4 0) i).fwd.index = [(idxKey 5 3, { state := 2, data := 8, tag := 0 })] := by decide +kernel

/-- Witness of Obligations.TablesLearnAgeAndFlush. -/
theorem test_witness_Learning : let req : LearnReq := { key := 9, station := 511, move := false }; let s : State := { on [.fwd] [(O.learnMode 511, 1)] with fwd := { learn := [(1, [req])] } }; let h := fun (d : Nat) => { s with fwd := { s.fwd with half1 := [(9, { data := d, hit := false, mark := false })] } }; let go := fun (s : State) => after (.learnPerform ⟨1, []⟩) s
    s.fwd.requests 1 = [req] ∧ s.rd (O.learnMode 511) = 1 ∧ (go s).fwd.half1 = [(9, { data := s.learnedWord 511, hit := true, mark := false })] ∧ (go s).rd (O.halfLearns 1) = 1 ∧
    (after (.learnPerform ⟨1, [badRow 4 9]⟩) (h 0)).fwd.half1 = [(9, { data := s.learnedWord 511, hit := true, mark := false })] ∧
    agrees 0 511 = false ∧ staticOf 0 = false ∧ (go (h 0)).rd (O.halfMoves 1) = 1 ∧ staticOf (2 ^ 42) = true ∧ (go (h (2 ^ 42))).rd (O.learnSuperseded 1) = 1 ∧
    agrees (s.learnedWord 511) 511 = true ∧ (go (h (s.learnedWord 511))).rd (O.learnSuperseded 1) = 1 := by decide +kernel

/-- FWD runs, with sweeps of half 1 and of the exact-match table begun at cycle 0; the walks stand at the place of entry 9 of the sweeper's table. -/
def sweeping (w : Nat) : State :=
  { on [.fwd] [(O.exactAgePeriod, 60)] with ticks := 16 * sweepPlace w 9, fwd := { sweeps := [(1, { start := 0 }), (2, { start := 0 })] } }

/-- The walk stands at the entry. -/
theorem test_witness_SweepWalk (w : Nat) : sweepPlace w 9 = (sweeping w).sweepAt { start := 0 } ∧ (sweeping w).running .fwd = true := by
  have r : (on [.fwd] [(O.exactAgePeriod, 60)]).running .fwd = true := by decide +kernel
  have h : (sweeping w).pwr.pipeOff = 0 := rfl
  refine ⟨?_, r⟩
  simp only [State.sweepAt, State.pipe, h]
  simp only [sweeping]
  omega

/-- An entry that the walk stands at and has not visited is visited; any other is not. -/
theorem test_witness_SweepVisit (w : Fin 3) (key : Nat) (b kb : Bool) (s : State) (x : AgeSweep) (hm : mfind s.fwd.sweeps w.val = some x)
    (hr : s.running .fwd = true) :
    (sweepPlace w.val key = s.sweepAt x → x.seen.contains key = false → after (.sweepVisit w key b kb) s =
      (s.updFwd fun f => { f with sweeps := mput f.sweeps w.val { x with seen := key :: x.seen } }).sweepVisit w.val key b kb) ∧
    (sweepPlace w.val key ≠ s.sweepAt x ∨ x.seen.contains key = true → after (.sweepVisit w key b kb) s = s) := by
  refine ⟨fun hp hs => ?_, fun h => ?_⟩
  · have hk : key ∉ x.seen := by simpa using hs
    simp [after, exec, execSweepVisit, hm, hr, hp, hk]
  · have hk : sweepPlace w.val key ≠ s.sweepAt x ∨ key ∈ x.seen := by simpa using h
    simp [after, exec, execSweepVisit, hm, hr, hk]

/-- Witness of Obligations.TablesLearnAgeAndFlush. -/
theorem test_witness_Sweeps : let s := on [.fwd] [(O.exactAgePeriod, 60)]; let u := sweeping 1; let b := fun (d : Nat) (hit mark : Bool) => { u with fwd := { u.fwd with half1 := [(9, { data := d, hit := hit, mark := mark })] } }; let x := fun (hit mark : Bool) => { u with fwd := { u.fwd with exact := [(9, { data := 0, age := true, hit := hit, mark := mark })] } }; let v := fun (w : Nat) (s : State) => s.sweepVisit w 9 false false
    s.rd O.bridgeAgePeriod ≠ 0 ∧ s.rd O.exactAgePeriod ≠ 0 ∧ mfind (after (.sweepStart 0) s).fwd.sweeps 0 = some { start := 0 } ∧ mfind (after (.sweepStart 2) s).fwd.sweeps 2 = some { start := 0 } ∧
    ((b 0 true true).sweepVisit 1 9 true true).fwd.half1 = [] ∧
    (v 1 (b (2 ^ 42) true false)).fwd.half1 = (b (2 ^ 42) true false).fwd.half1 ∧ (v 1 (b 0 true true)).fwd.half1 = [(9, { data := 0, hit := false, mark := false })] ∧
    (v 1 (b 0 false false)).fwd.half1 = [(9, { data := 0, hit := false, mark := true })] ∧ (v 1 (b 0 false true)).fwd.half1 = [] ∧
    (v 2 (x true true)).fwd.exact = [(9, { data := 0, age := true, hit := false, mark := false })] ∧ (v 2 (x false true)).fwd.exact = [] := by decide +kernel

/-- Witness of Obligations.TablesLearnAgeAndFlush. -/
theorem test_witness_FlushAndEpoch : let d := (on [.fwd] []).learnedWord 7; let s : State := { on [.fwd] [] with fwd := { half0 := [(1, { data := d, hit := true, mark := false }), (3, { data := 0, hit := true, mark := false })], flushes := [{ halves := 1, station := 7, static := false }], index := [(idxKey 5 3, { state := 2, data := 8, tag := 0 })], epoch := 3 }, pwr := { State.reset.pwr with released := 15 } }; let full := { on [.fwd] [] with fwd := { epoch := 32767 }, pk := { passes := [pass (packet 0 0 0)] } }
    (after (.flushDone [] []) s).fwd.half0.map (·.1) = [3] ∧ (after (.flushDone [badRow 4 3] []) s).fwd.half0 = [] ∧ (after (.flushDone [] []) s).fwd.flushes = [] ∧
    s.flushAt { halves := 1, station := 7, static := false } = 0 ∧ full.fwd.epoch - full.oldest = 32767 ∧ after .epochAdvance full = full ∧
    bit s.pwr.released 1 = true ∧ (let u : State := { s with pwr := { s.pwr with released := 13 } }; after .epochAdvance u = u) ∧
    s.fwd.epoch - s.oldest ≠ 32767 ∧ (after .epochAdvance s).fwd.epoch = 4 ∧ (after .epochAdvance s).fwd.index = [] := by decide +kernel

/-- ASSOC RUNNING, with table 15 of one-slice rows holding entries, and an entry in the command objects. -/
def assoc (rows : NMap AscEntry) (value mask prio row : Nat) : State :=
  { on [.assoc] [(O.ascWidth 15, 1), (O.ascGroups 15, 1), (O.ascReplicas 15, 1), (O.holeInterval 15, 0), (O.ascEntries 15, rows.length),
      (O.ascValue, leNat (beBytes 80 (value * 2 ^ 480))), (O.ascMask, leNat (beBytes 80 (mask * 2 ^ 480))), (O.ascPriority, prio), (O.ascRow, row)] with
    asc := { tables := [(15, { rows := rows })] } }

/-- Witness of Obligations.AssociativeEntriesAreWritten. -/
theorem test_witness_AssocWrites : let e : AscEntry := { value := 1, mask := 3, prio := 5, tag := 0 }; let s := assoc [] 1 3 5 0; let t := assoc [(7, e)] 1 3 5 0; let bad := assoc [] 4 3 5 0; let full := given s [(O.ascEntries 15, 16384)]; let due := fun (c : Instr) (s : State) => ((after c s).ascTable 15).due
    s.gate .kdp O.ascCmd = .pass ∧ s.ascW 15 = 1 ∧ s.ascEntry 15 = some e ∧ entryOk e = true ∧ bad.ascEntry 15 = some { e with value := 4 } ∧ entryOk { e with value := 4 } = false ∧
    endsWith (.ascInsert .kdp 15) .kdp O.ascCmd .range bad = true ∧ identity (t.ascTable 15).rows e = some 7 ∧ due (.ascInsert .kdp 15) t = [.write 7 e false] ∧
    identity (s.ascTable 15).rows e = none ∧ s.capacityOf 15 = 16384 ∧ endsWith (.ascInsert .kdp 15) .kdp O.ascCmd .noResource full = true ∧
    s.rowsOf 15 = 16384 ∧ (due (.ascInsert .kdp 15) s).length = 1 ∧ due (.ascDelete .kdp 15) t = [.clear 7 false] ∧ due (.ascDelete .kdp 15) s = [] := by decide +kernel

/-- Witness of Obligations.AssociativeSearchesFindTheLowestRow. -/
theorem test_witness_AssocSearches : let e : AscEntry := { value := 1, mask := 3, prio := 5, tag := 9 }; let s := assoc [(7, e), (9, { e with tag := 8 })] 1 0 0 7; let miss := assoc [(7, e)] 2 0 0 16384; let r := fun (c : Instr) (s : State) (k : Nat) => (after c s).rd k
    s.running .assoc = true ∧ s.ascNum O.ascValue 15 = some 1 ∧ e.matches 1 = true ∧ r (.ascSearch .kdp ⟨15, false, false, false⟩) s O.ascRow = 7 ∧ r (.ascSearch .kdp ⟨15, false, false, false⟩) s O.ascTag = 9 ∧
    r (.ascSearch .kdp ⟨15, true, false, false⟩) s O.ascFound = 0 ∧ ((after (.ascSearch .kdp ⟨15, true, false, false⟩) s).ascTable 15).bad = [7] ∧
    miss.ascNum O.ascValue 15 = some 2 ∧ e.matches 2 = false ∧ r (.ascSearch .kdp ⟨15, false, false, false⟩) miss O.ascFound = 0 ∧ r (.ascRead .kdp 15) s O.ascTag = 9 ∧
    endsWith (.ascRead .kdp 15) .kdp O.ascCmd .range miss = true ∧ bit 0x80000F 23 = true ∧ r (.ascNext .kdp 0x80000F) s O.ascRow = 7 ∧ r (.ascNext .kdp 15) miss O.ascFound = 0 ∧
    sent (after (.assocSearch 15 ⟨0, 0⟩ 1 false false false) s) = some (.searchResult 15 (some (ascResult 7 9))) ∧
    sent (after (.assocSearch 15 ⟨0, 0⟩ 1 true false false) s) = some (.searchResult 15 none) ∧ ((after (.assocSearch 15 ⟨0, 0⟩ 1 true false false) s).ascTable 15).bad = [7] ∧
    sent (after (.assocSearch 15 ⟨0, 0⟩ 2 false false false) s) = some (.searchResult 15 none) := by decide +kernel

/-- Witness of Obligations.AssociativeEntriesAreWritten. -/
theorem test_witness_RowWrites : let e : AscEntry := { value := 1, mask := 3, prio := 5, tag := 9 }; let s := fun (t : AscTable) => { on [.assoc] [(O.sliceTable 23, 15), (O.ascWidth 15, 1), (O.ascGroups 15, 1), (O.ascReplicas 15, 1), (O.firstSlice 15, 23), (O.ascEntries 15, 1)] with asc := { tables := [(15, t)] } }; let rows := fun (c : Instr) (t : AscTable) => ((after c (s t)).ascTable 15).rows; let w := Instr.rowWrite 15 false false false
    rows w { rows := [(7, e)], bad := [7] } = [] ∧ rows w { due := [.write 7 e false] } = [(7, e)] ∧ rows w { rows := [(7, e)], due := [.copy 7 8 false] } = [(7, e), (8, e)] ∧
    rows (.rowWrite 15 true false false) { rows := [(7, e)], due := [.copy 7 8 false] } = [] ∧ (s { rows := [(7, e)] }).groupSlices 15 7 = [23] ∧
    rows (.scrubRow 23 7 false false false) { rows := [(7, e)] } = [(7, e)] ∧ ((after (.scrubRow 23 7 true false false) (s { rows := [(7, e)] })).ascTable 15).bad = [7] ∧
    ((s { rows := [(7, e)] }).ascTable 15).holds 7 = true ∧ (after (.scrubRow 23 7 true false false) (s { rows := [(7, e)] })).rd (O.parityRemoved 15) = 1 ∧
    mfind ((s {}).ascTable 15).rows ((s {}).rowOfSlice 15 23 8) = none ∧ (after (.scrubRow 23 8 false false false) (s {})).asc.tables = (s {}).asc.tables := by decide +kernel

/-- Witness of Obligations.RecordRingsTakeEffect. -/
theorem test_witness_TableRings : let rec_ := leBytes 4 0 ++ beBytes 4 1048575 ++ beBytes 16 0; let s := loaded [.fwd] 0x00080005 rec_ []; let off := given s [(O.state .fwd, DISABLED)]; let short := loaded [.fwd] 0x00080005 (rec_.take 23) []; let go := fun (s : State) => after (.tableRingRecords ⟨0, []⟩) s
    (s.nextEffect 0).isSome = true ∧ s.isTableRing 0 (0x00080001 + 4) = true ∧ took .functionDisabled 24 0 (go off) = true ∧ s.workRefused .fwd = none ∧ (let w := given s [(O.state .fwd, STARTING)]; w.between .fwd = true ∧ go w = w) ∧ took .range 23 0 (go short) = true ∧
    (recordOf 5 1 rec_).isSome = true ∧ indexOk 5 0 = true ∧ s.fwd.idxState 5 1048575 ≠ 2 ∧ took .ok 24 0 (go s) = true ∧ (go s).fwd.index = [(idxKey 5 1048575, { state := 1, data := 0 })] := by decide +kernel

/-- `loaded` with another opcode in its descriptor. -/
def opcode (op : Nat) (s : State) : State := { s with host := { s.host with drings := s.host.drings.map fun d => (d.1, { d.2 with flight := d.2.flight.map fun f => { f with desc := { f.desc with opcode := op } } }) } }

/-- Witness of Obligations.RecordRingsTakeEffect. -/
theorem test_witness_FlushAndAssocRings : let fl := opcode 5 (loaded [.fwd] 0x00080004 ([0, 1, 0, 0] ++ beBytes 2 511 ++ zeros 14) []); let ar := fun (pad : Nat) => { loaded [.assoc] 0x0009000F (beBytes 2 5 ++ beBytes 2 pad ++ beBytes 4 6 ++ beBytes 20 1 ++ beBytes 20 3) [(O.ascWidth 15, 1), (O.ascGroups 15, 1), (O.holeInterval 15, 0)] with asc := { tables := [(15, { rows := [(7, { value := 1, mask := 3, prio := 5, tag := 0 })] })] } }; let go := fun (s : State) => after (.assocRingRecords 0) s
    (after (.tableRingRecords ⟨0, []⟩) fl).fwd.flushes = [{ halves := 1, station := 511, static := false, ring := some (0, 0, 0) }] ∧ (ar 0).isTableRing 0 (0x00090000 + 15) = true ∧
    took .functionDisabled 48 0 (go (given (ar 0) [(O.state .assoc, DISABLED)])) = true ∧ took .range 48 0 (go (given (ar 0) [(O.ascWidth 15, 0)])) = true ∧ took .range 48 0 (go (ar 1)) = true ∧
    took .ok 48 0 (go (ar 0)) = true ∧ ((go (ar 0)).ascTable 15).rows = [(7, { value := 1, mask := 3, prio := 5, tag := 6 })] := by decide +kernel

/-- Witness of Obligations.RecordRingsTakeEffect. -/
theorem test_witness_OtherRings : let q := loaded [.buf] 0x000A0001 (leBytes 4 1048575 ++ leBytes 4 63) []; let q2 := loaded [.buf] 0x000A0001 (leBytes 4 5 ++ leBytes 4 63 ++ leBytes 8 1048576) []; let n := loaded [.sched] 0x000C0001 ([5, 0, 0, 0] ++ leBytes 4 7 ++ leBytes 8 0) []; let p := { loaded [.pol] 0x000D0001 (leBytes 4 2097151 ++ leBytes 4 9) [] with pol := { profiles := [(9, { mode := 0, aware := false, coupled := false, cir := 0, cbs := 20480, pir := 0, pbs := 20480, adj := 0, pass := false })] } }
    took .ok 8 0 (after (.qbufRingRecords 0) q) = true ∧ ((after (.qbufRingRecords 0) q).queue 1048575).attr = 63 ∧ took .range 16 1 (after (.qbufRingRecords 0) q2) = true ∧
    took .functionDisabled 8 0 (after (.qbufRingRecords 0) (given q [(O.state .buf, DISABLED)])) = true ∧ n.nodeCheck 5 7 0 = .ok ∧ took .ok 16 0 (after (.nodeRingRecords 0) n) = true ∧
    took .functionDisabled 16 0 (after (.nodeRingRecords 0) (given n [(O.state .sched, DISABLED)])) = true ∧ took .ok 8 0 (after (.polRingRecords 0) p) = true ∧
    ((after (.polRingRecords 0) p).policer 2097151).profile = 9 ∧ took .functionDisabled 8 0 (after (.polRingRecords 0) (given p [(O.state .pol, DISABLED)])) = true := by decide +kernel

/-- Witness of Obligations.QueueAttributesAndBufferHandles. -/
theorem test_witness_Qbuf : let s := on [.buf] [(O.qbufQueue, 1048575), (O.qbufData, 63 + 2 ^ 31)]; let bad := given s [(O.qbufData, 64)]; let w := Instr.qbufWrite .kdp 0
    s.gate .kdp O.qbufCmd = .pass ∧ endsWith w .kdp O.qbufCmd .functionDisabled (up []) = true ∧ endsWith w .kdp O.qbufCmd .range bad = true ∧ only [O.qbufResult] bad (after w bad) = true ∧
    bits (s.rd O.qbufData) 15 6 = 0 ∧ ((after w s).queue 1048575).attr = 63 + 2 ^ 31 ∧ (after (.qbufRead .kdp 0) (after w (given s []))).rd O.qbufData = 63 + 2 ^ 31 := by decide +kernel

/-- Witness of Obligations.QueueAttributesAndBufferHandles. -/
theorem test_witness_Bpm : let s := on [.bpm] []; let lent := { given s [(O.bpmHandle, 3 * 2 ^ 28)] with bpm := { s.bpm with bufs := [(0, { gen := 3, used := true })] } }; let h := fun (v : Nat) => given s [(O.bpmHandle, v)]; let none_ := { s with bpm := { s.bpm with layout := [0, 0, 0, 0, 0, 0, 0, 0] } }
    s.gate .kdp O.bpmCmd = .pass ∧ poolBytes 7 = 10240 ∧ poolBytes 6 = 4096 ∧ s.poolFreeOf 7 = 51 ∧ (s.poolBuf 7 50).used = false ∧ none_.poolFreeOf 7 = 0 ∧
    endsWith (.bpmAlloc .kdp 10240) .kdp O.bpmCmd .noResource none_ = true ∧ (after (.bpmAlloc .kdp 4097) none_).rd (O.allocFails 7) = 1 ∧
    endsWith (.bpmAlloc .kdp 0) .kdp O.bpmCmd .range s = true ∧ endsWith (.bpmAlloc .kdp 10241) .kdp O.bpmCmd .range s = true ∧
    lent.checkHandle (lent.rd O.bpmHandle) true = (0, 0, 0) ∧ (after (.bpmFree .kdp 0) lent).poolBuf 0 0 = { gen := 3, used := false } ∧ (after (.bpmCheck .kdp 0) lent).rd O.bpmResult = 0 ∧
    (h 0).checkHandle 0 true = (4, 0, 0) ∧ (h 1).checkHandle 1 true = (2, 0, 0) ∧ endsWith (.bpmFree .kdp 0) .kdp O.bpmCmd (rejectStatus 4) (h 0) = true ∧
    endsWith (.bpmCheck .kdp 0) .kdp O.bpmCmd (rejectStatus 2) (h 1) = true ∧ s.checkHandle (s.handleOf 7 50) true = (4, 7, 50) ∧ (s.poolBuf 7 50).gen < 16 := by decide +kernel

/-- BUF and HBM RUNNING, channel 0 IN_SERVICE, and queue 5 as given. -/
def queued (x : Queue) (l : List (Nat × Nat)) : State := { on [.buf, .hbm] ((O.chState 0, 2) :: l) with buf := { queues := [(5, x)] } }

/-- Witness of Obligations.SegmentsSpillAndRefill. -/
theorem test_witness_Spill : let s := queued { spilling := true, tail := 9, blocked := 1 } []; let off := given s [(O.state .hbm, STOPPED)]; let w := queued { segs := [{ id := 0, phase := .writing }] } []; let st := queued { segs := [{ id := 0, phase := .stored }] } []; let go := fun (c : Instr) (s : State) => (after c s).queue 5
    after (.segmentWriteIssue 5) w = w ∧ s.nextChannel = some 0 ∧ s.writeAllowed 5 = true ∧ mget s.buf.fresh 0 0 < 786432 ∧
    go (.segmentWriteIssue 5) s = { spilling := true, tail := 1, segs := [{ id := 0, phase := .writing }] } ∧ off.writeAllowed 5 = false ∧
    (go (.segmentWriteIssue 5) { off with buf := { queues := [(5, { spilling := true, tail := 16 })] } }).blocked = 2 ∧
    (go (.segmentWriteDone 5 0) w).segs = [{ id := 0, phase := .stored }] ∧ st.channelReads 0 = true ∧ st.rd (O.refillTarget 0) ≠ 0 ∧
    (go (.segmentReadIssue 5) st).segs = [{ id := 0, phase := .reading }] ∧ after (.segmentReadIssue 5) w = w := by decide +kernel

/-- An error report of zeros. -/
def noErr : HbmErr := ⟨0, 0, 0, 0, 0, 0, 0, 0⟩

/-- Witness of Obligations.SegmentsSpillAndRefill. -/
theorem test_witness_Refill : let s := queued { segs := [{ id := 0, phase := .reading }, { id := 7, phase := .stored }] } []; let t := queued { segs := [{ id := 7, phase := .reading }, { id := 0, phase := .reading }] } []; let f : Flight := { slot := 0, desc := desc 4096 1 0, length := 320 }; let lt := inFlight 0 [f] (linked [] (armedRing 0 5 0 1))
    (after (.segmentReadDone 5 0 .clean noErr) s).queue 5 = { segs := [{ id := 7, phase := .stored }], head := 8 } ∧ (after (.segmentReadDone 5 0 .clean noErr) s).buf.freed = [(0, [0])] ∧
    ((after (.segmentReadDone 5 0 .clean noErr) t).queue 5).segs = [{ id := 7, phase := .reading }, { id := 0, phase := .read }] ∧
    (after (.trimDone 63) { s with buf := { s.buf with trims := [(63, 2, 1)] } }).buf.trims = [] ∧ (lt.buffers 0).head? = some f ∧
    took .ok 320 2 (after (.ltFlushTimeExpiry 0) lt) = true ∧ after (.ltFlushTimeExpiry 0) (inFlight 0 [{ f with length := 0 }] lt) = inFlight 0 [{ f with length := 0 }] lt := by decide +kernel

/-- A record of an attached node of weight 1 with the parent given. -/
def attachedTo (parent : Nat) : Nat := parent * 2 ^ 44 + 2 ^ 29 + 1

/-- Queue 983040 below ingress scheduler 0, with a packet of one cell, and the T-die's functions RUNNING. -/
def scheduled (l : List QPkt) (o : List (Nat × Nat)) : State :=
  { on [.sched, .buf, .swc, .pol] o with
    buf := { queues := if l.isEmpty then [] else [(983040, { pkts := l, head := l.length })] }
    sched := { nodes := [(nodeKey 2 0, { record := attachedTo 0x80000 }), (nodeKey 3 0, { record := attachedTo 0 }),
                         (nodeKey 4 0, { record := attachedTo 0 }), (nodeKey 5 983040, { record := attachedTo 0 })] } }

/-- A queued packet. -/
def qpkt : QPkt := { hdr := 0, frame := zeros 60, cells := 1 }

/-- Witness of Obligations.PacketsCrossTheTDie. -/
theorem test_witness_SchedulerPick : let s := scheduled [qpkt] []; let d := State.descend 6 s.refreshNodes 0
    (s.pick 0).map (·.1) = some (nodeKey 2 0) ∧ s.schedHeld 0 = false ∧ (d.map fun x => (x.1.getLastD 0 % 2 ^ 20, (x.2.queue 983040).pkts == [qpkt])) = some (983040, true) ∧
    ((after (.schedulerPick ⟨0, 0, false⟩) s).queue 983040).pkts = [] ∧ (after (.schedulerPick ⟨0, 0, false⟩) s).rd (O.schedBytes 0) = 60 ∧
    (after (.schedulerPick ⟨0, 3, true⟩) s).rd O.eccCorrected = 3 ∧ (after (.schedulerPick ⟨0, 33, true⟩) s).rd O.eccCorrected = 32 ∧ (after (.schedulerPick ⟨0, 3, true⟩) s).rd O.eccDrops = 1 ∧ (after (.schedulerPick ⟨0, 3, true⟩) s).swc = s.swc ∧
    after (.schedulerPick ⟨0, 0, false⟩) (given s [(O.state .sched, STOPPED)]) = given s [(O.state .sched, STOPPED)] := by decide +kernel

/-- Witness of Obligations.PacketsCrossTheTDie. -/
theorem test_witness_Meter : let x : ChanPkt := { md := 0, frame := zeros 60 }; let s := { scheduled [] [] with pk := { chanIn := [(0, [x])] } }; let none_ := { s with sched := { s.sched with iqDevices := 0 } }; let off := given s [(O.state .buf, STOPPED)]; let go := fun (s : State) => after (.meter 0 .clean 0) s
    policerOf x.md = 0 ∧ (go none_).rd O.iqRangeDrops = 1 ∧ Rising s.buf.queues = true ∧ (s.node (nodeKey 5 983040)).attached = true ∧ (s.queue 983040).session = none ∧
    averaged (s.queue 983040) s.pipe (s.rd (O.ewmaWeight 0)) < s.rd (key 0x7500 3) * 256 ∧ 1 ≤ s.rd (O.queueLimit 0) ∧ 1 ≤ s.cellsFor 983040 ∧ hdrColour (s.buildHeader 0 (colourOf 0) (zeros 60)) = 0 ∧
    ((go s).queue 983040).pkts = [{ hdr := s.buildHeader 0 (colourOf 0) (zeros 60), frame := zeros 60, cells := 1 }] ∧ ((go s).queue 983040).head + ((go s).queue 983040).tail = 1 ∧
    (go off).rd O.stoppedDrops = 1 ∧ mget (go off).pk.chanIn [] 0 = [] := by decide +kernel

/-- A core cell from input 0 to an output. -/
def cell (o seq since : Nat) : CoreCell := { input := 0, output := o, seq := seq, frags := [{ id := 0, bytes := 92, tc := 0 }], order := 0, since := since }

/-- Witness of Obligations.PacketsCrossTheTDie. -/
theorem test_witness_CoreInputs : let s := fun (x : SwcSt) => { on [.swc] [] with swc := x }; let o : SwcSt := { staging := [(15, { open_ := [{ id := 0, bytes := 92, tc := 0 }], next := 1023 })] }; let c : SwcSt := { staging := [(15, { closed := [cell 15 0 0] })] }; let mid : State := { given (s { middles := [(1 * 16 + 2, [cell 2 0 0])] }) [(O.state .swc, STOPPING)] with ticks := 4 }
    after (.cellCloseTimeout 0 14) (s o) = s o ∧ (after (.cellCloseTimeout 0 15) (s o)).staging 0 15 = { closed := [{ cell 15 1023 0 with order := 0 }], next := 0 } ∧
    (after (.cellCloseTimeout 0 15) (s o)).rd (O.inFillBytes 0) = 164 ∧ (s c).voq 0 0 = [] ∧ (s c).cellToSend 0 0 = some (cell 15 0 0) ∧
    (after (.coreCellSend 0) (s c)).voq 0 15 = [cell 15 0 0] ∧ (after (.coreCellSend 0) (s c)).rd (O.inCells 0) = 1 ∧
    mid.pipe = 1 ∧ mid.voq 1 2 = [cell 2 0 0] ∧ (after (.coreCellSend 0) mid).voq 1 2 = [] ∧ ((after (.coreCellSend 0) mid).reseqOf 2 0).held = [cell 2 0 0] := by decide +kernel

/-- Witness of Obligations.PacketsCrossTheTDie. -/
theorem test_witness_CoreOutputs : let s := fun (o : Nat) (expected : Nat) => { on [.swc] [] with swc := { reseq := [(o * 16, { expected := expected, held := [cell o 1023 0] })] } }
    (s 7 1023).coreDrains = true ∧ (after (.coreOutputRelease 7 0) (s 7 1023)).swc.fifo = [(7, [cell 7 1023 0])] ∧ ((after (.coreOutputRelease 7 0) (s 7 1023)).reseqOf 7 0).expected = 0 ∧
    ((after (.coreOutputRelease 15 0) (s 15 1023)).reseqOf 15 0).held = [] ∧ (after (.coreOutputRelease 15 0) (s 15 1023)).rd (O.outCells 15) = 1 ∧
    (let w := { s 15 1022 with swc := { reseq := [(15 * 16, { expected := 1022, held := [cell 15 1023 0], cycles := (s 15 1022).rd O.reseqTimeout })] } }; w.missedLong (w.reseqOf 15 0) = true ∧
      (after (.reseqTimeout 15 0) w).rd O.coreCellsLost = 1 ∧ ((after (.reseqTimeout 15 0) w).reseqOf 15 0).expected = 1023) ∧
    (s 15 1022).missedLong ((s 15 1022).reseqOf 15 0) = false ∧ after (.reseqTimeout 15 0) (s 15 1022) = s 15 1022 := by decide +kernel

/-- Witness of Obligations.NodesAndShapersAreRecorded. -/
theorem test_witness_Nodes : let s := fun (n v : Nat) => { scheduled [] [(O.nodeNumber, n), (O.nodeData, v)] with buf := {} }; let w := fun (l : BitVec 24) (s : State) => after (.nodeWrite .kdp l) s; let r := fun (l : BitVec 24) (st : Status) (s : State) => refused (.nodeWrite .kdp l) .kdp O.nodeCmd st { s with objs := (w l s).objs }
    (s 0 0).gate .kdp O.nodeCmd = .pass ∧ endsWith (.nodeWrite .kdp 5) .kdp O.nodeCmd .functionDisabled (given (s 0 0) [(O.state .sched, DISABLED)]) = true ∧
    r 0 .range (s 0 0) = true ∧ r 6 .range (s 0 0) = true ∧ r 1 .range (s 512 0) = true ∧ r 1 .range (s 0 2) = true ∧ r 2 .range (s 0 (512 * 2 ^ 44)) = true ∧ r 1 .range (s 0 1) = true ∧ r 4 .range (s 0 512) = true ∧
    parentOk 5 9 = true ∧ ((s 7 0).node (nodeKey 4 9)).attached = false ∧ r 5 .range (s 7 (attachedTo 9)) = true ∧ (s 0 0).children (nodeKey 4 0) = [nodeKey 5 983040] ∧ r 4 .busy (s 0 0) = true ∧
    (s 983041 (attachedTo 0)).nodeCheck 5 983041 (attachedTo 0) = .ok ∧ ((w 5 (s 983041 (attachedTo 0))).node (nodeKey 5 983041)).record = attachedTo 0 ∧
    (after (.nodeRead .kdp 5) (s 983040 0)).rd O.nodeData = attachedTo 0 := by decide +kernel

/-- Witness of Obligations.NodesAndShapersAreRecorded. -/
theorem test_witness_Nodes_reserve : let v := attachedTo 0 + 2 ^ 9 * 15; let s := { scheduled [] [(O.nodeNumber, 983041), (O.nodeData, v)] with buf := {} }; let s := { s with sched := { s.sched with limit := 0 } }
    treeRule s.sched.iqBase s.sched.iqDevices 983041 (s.treeOf 6 5 (bits v 63 44)) = true ∧ s.sched.limit < s.reserved - (s.queue 983041).reserve + s.reserveFor s.sched.reserves 983041 v ∧
    endsWith (.nodeWrite .kdp 5) .kdp O.nodeCmd .noResource s = true := by decide +kernel

/-- Witness of Obligations.NodesAndShapersAreRecorded. -/
theorem test_witness_Shapes : let s := on [.sched] [(O.shapeCir, 10), (O.shapePir, 20), (O.shapeLenAdj, ofS32 (-4))]; let w := fun (a : BitVec 24) (s : State) => after (.shapeWrite .kdp a) s
    s.gate .kdp O.shapeCmd = .pass ∧ endsWith (.shapeWrite .kdp 65536) .kdp O.shapeCmd .range s = true ∧ endsWith (.shapeWrite .kdp 0) .kdp O.shapeCmd .range s = true ∧
    endsWith (.shapeWrite .kdp 5) .kdp O.shapeCmd .range (given s [(O.shapePir, 9)]) = true ∧ (w 65535 s).shape 65535 = { cir := 10, pir := 20, adj := -4 } ∧
    (after (.shapeRead .kdp 65535) (given (w 65535 s) [(O.shapeCir, 0)])).rd O.shapeCir = 10 := by decide +kernel

/-- Witness of Obligations.NodesAndShapersAreRecorded. -/
theorem test_witness_FairWindow : let s := scheduled [qpkt] []
    s.refreshNodes.queueEligible 983040 = true ∧ s.refreshNodes.committed (nodeKey 5 983040) = false ∧ (after (.fairWindowExpiry 983040) s).rd O.fairBreaks = 1 ∧
    bit ((after (.fairWindowExpiry 983040) s).queue 983040).flags 2 = true ∧ after (.fairWindowExpiry 983040) (up []) = up [] := by decide +kernel

/-- A policer profile of two rates. -/
def prof : PolProf := { mode := 0, aware := false, coupled := false, cir := 0, cbs := 20480, pir := 0, pbs := 20480, adj := 0, pass := false }

/-- POL RUNNING with profile 9 and policers as given. -/
def policed (m : NMap Policer) (l : List (Nat × Nat)) : State := { on [.pol, .qdr] l with pol := { profiles := [(9, prof)], policers := m } }

/-- Witness of Obligations.PolicersMeterByTheirProfiles. -/
theorem test_witness_Policers : let s := policed [] [(O.polProfile, 9), (O.qifState 0, 3), (O.qifState 1, 3)]; let w := fun (a : BitVec 24) => after (.polWrite .kdp a) s; let old : State := { policed [(2097152, { profile := 9 })] [(O.qifState 0, 3)] with ticks := 4 * 64 * 1073741825 }
    s.gate .kdp O.polCmd = .pass ∧ endsWith (.polWrite .kdp 0) .kdp O.polCmd .range s = true ∧ endsWith (.polWrite .kdp 4194304) .kdp O.polCmd .range s = true ∧
    (policed [] []).qifUp 1 = false ∧ endsWith (.polWrite .kdp 4194303) .kdp O.polCmd .functionDisabled (policed [] [(O.polProfile, 9)]) = true ∧ s.qifUp 1 = true ∧ s.polProfile (s.rd O.polProfile) = some prof ∧
    (w 2097151).policer 2097151 = { profile := 9, tc := 20480 * byteUnits, tp := 20480 * byteUnits, time := 0 } ∧
    (after (.polRead .kdp ⟨2097151, .clean, 0⟩) (w 2097151)).rd O.polCbal = 20480 ∧ old.qifUp 0 = true ∧ (after (.policerWalk ⟨2097152, .clean, 0⟩) old).rd (O.qifAccesses 0) = 2 ∧ after (.policerWalk ⟨2097151, .clean, 0⟩) s = s ∧
    (old.polProfile (old.policer 2097152).profile).isSome = true ∧ ((after (.policerWalk ⟨2097152, .clean, 0⟩) old).policer 2097152).time = 1073741825 ∧
    (let young : State := { old with ticks := 4 * 64 * 1073741824 }; (after (.policerWalk ⟨2097152, .clean, 0⟩) young).rd (O.qifAccesses 0) = 1 ∧ (after (.policerWalk ⟨2097152, .clean, 0⟩) young).pol = young.pol) ∧
    (let t := after (.policerWalk ⟨2097152, .uncorrectable, 1⟩) old; t.policer 2097152 = { profile := 0, tc := 0, tp := 0, time := 1073741825 } ∧ t.rd (O.qifUe 0) = 1) := by decide +kernel

/-- Witness of Obligations.PolicersMeterByTheirProfiles. -/
theorem test_witness_PolicerProfiles : let s := on [.pol] [(O.pprofCir, 5), (O.pprofPir, 7)]; let w := fun (a : BitVec 24) (s : State) => after (.pprofWrite .kdp a) s
    s.gate .kdp O.pprofCmd = .pass ∧ s.rd O.pprofMode = 0 ∧ endsWith (.pprofWrite .kdp 0) .kdp O.pprofCmd .range s = true ∧ endsWith (.pprofWrite .kdp 1) .kdp O.pprofCmd .range (given s [(O.pprofPir, 4)]) = true ∧
    s.rd O.pprofCoupled ≠ 1 ∧ ((w 65535 s).polProfile 65535).map (·.pir) = some 7 ∧ (after (.pprofRead .kdp 65535) (given (w 65535 s) [(O.pprofPir, 0)])).rd O.pprofPir = 7 := by decide +kernel

/-- Witness of Obligations.PolicersMeterByTheirProfiles. -/
theorem test_witness_PolicerRed : let x : ChanPkt := { md := mdSet 0 10 31 10 5, frame := zeros 60 }; let s := { policed [(5, { profile := 9 })] [] with pk := { chanIn := [(7, [x])] } }; let y := refillBuckets (s.policer 5) prof false s.pipe; let b := polLength prof 60 * byteUnits
    policerOf x.md = 5 ∧ y.tc < b ∧ y.tp < b ∧ (after (.meter 7 .clean 0) s).rd O.polRed = 1 ∧ (after (.meter 7 .clean 0) s).rd O.polRedDrops = 1 ∧
    meter prof { tc := 4, tp := 5 } 0 5 = (1, { tc := 4, tp := 0 }) ∧ meter prof { tc := 5, tp := 5 } 0 5 = (0, {}) ∧ meter prof { tc := 9, tp := 4 } 0 5 = (2, { tc := 9, tp := 4 }) := by decide +kernel

/-- A framing word with the bits given and its check byte. -/
def framed (mid : Nat) : BitVec 64 := let w := 0xB8 * 2 ^ 56 + mid; BitVec.ofNat 64 (w + crc8 ((beBytes 8 w).take 7))

/-- FAB and SWC RUNNING in device 65535's place as device 7, lanes 0 to 2 and 24 LOCKED, with the lanes, streams and objects given. -/
def fabric (l : List (Nat × Nat)) (f : FabSt) : State :=
  { on [.fab, .swc] ((O.laneState 96, 2) :: (O.laneState 97, 2) :: l) with fab := f }

/-- A lane that is aligned and may send. -/
def goodLane : FabLane := { aligned := true, rxOk := true, usable := true }

/-- The header of a cell for group 0 of device 7 by plane 0 with its CCRC. -/
def cellHdr (source seq valid : Nat) (cont : Bool) (payload : List Byte) : BitVec 128 :=
  let h := [(127, 124, 4), (117, 107, 7), (106, 96, source), (95, 80, seq), (79, 71, valid), (70, 70, b2n cont), (69, 61, 0x1FF)].foldl (fun h x => cellSet h x.1 x.2.1 x.2.2) 0
  cellSet h 31 0 (cellCrc h payload)

/-- Witness of Obligations.FabricCellsAreReceivedInOrder. -/
theorem test_witness_Framing : let s := fabric [] { lanes := [(0, { good := 2 }), (1, { bad := 2, aligned := true })] }; let b := framed (2 ^ 54 + 2 ^ 50); let go := fun (l : Fin 144) (w : BitVec 64) => after (.framingReceived l w) s
    s.flaneLocked 2 = false ∧ go 2 b = s ∧ s.flaneLocked 0 = true ∧ ((go 1 (b + 1)).flane 1) = { bad := 3 } ∧ bits b.toNat 63 56 = 0xB8 ∧ bits b.toNat 7 0 = crc8 ((beBytes 8 b.toNat).take 7) ∧
    ((go 0 b).flane 0).good = 3 ∧ ((go 0 b).flane 0).aligned = true ∧ ((go 0 b).flane 0).rxOk = true ∧ ((go 0 b).flane 0).xoff = false ∧ ((go 0 b).plane 0).missIn = 0 ∧ bit ((go 0 b).rd (O.planePaths 0)) 0 = true ∧
    (go 0 (framed (2 ^ 54 + 2 ^ 51 + 2 ^ 49))).rd (O.beaconMismatches 0) = 1 ∧ ((go 0 (framed (2 ^ 49))).flane 0).xoff = true ∧
    (let p := given s [(O.prbsMode 96, 1)]; p.laneHears 0 = false ∧ after (.framingReceived 0 b) p = p) ∧
    (let u := after (.framingReceived 0 b) (given s [(O.state .fab, STOPPING)]); (u.plane 0).missIn = 0 ∧ bit (u.rd (O.planePaths 0)) 0 = true) := by decide +kernel

/-- Witness of Obligations.FabricCellsAreReceivedInOrder. -/
theorem test_witness_Cells : let d := zeros 24; let h := fun (seq valid : Nat) => cellHdr 5 seq valid true d; let x : RxStream := { expected := some 65535, partial_ := zeros 40 }; let s := fabric [] { me := 7, lanes := [(0, goodLane)], rx := [(5, x)] }; let go := fun (h : BitVec 128) (s : State) => after (.cellReceived 0 h d) s; let c : RxCell := { seq := 0, valid := 256, cont := true, start := 0x1FF, payload := d, time := 0 }
    after (.cellReceived 1 (h 0 256) d) s = s ∧ go (h 0 256) (given s [(O.state .fab, STOPPED)]) = given s [(O.state .fab, STOPPED)] ∧ (go (h 0 256 + 1) s).rd (O.rxCrcErrors 0) = 1 ∧
    cellGet (h 0 256) 31 0 = cellCrc (h 0 256) d ∧ cellGet (h 0 256) 56 32 = 0 ∧ cellGet (h 0 256) 117 107 = s.myDevice ∧ (go (h 0 256) { s with fab := { s.fab with me := 8 } }).rd (O.rxDiscards 0) = 1 ∧
    (go (h 0 256) { s with fab := { s.fab with rx := (List.range 16).map fun i => (i + 6, { held := List.replicate 256 c }) } }).rd (O.reasmOverflows 0) = 1 ∧ s.reasm 0 = 1 ∧
    (go (h 65534 256) s).rd (O.lateCells 0) = 1 ∧ (go (h 4095 256) s).rd (O.lateCells 0) = 1 ∧ ((go (h 4094 256) s).rxStream 0 5).held.map (·.seq) = [4094] ∧ (go (h 0 256) s).rxStream 0 5 = { x with held := [c] } ∧
    ((go (h 65535 24) s).rxStream 0 5).expected = some 0 ∧ ((go (h 65535 24) s).rxStream 0 5).ready = [{ hdr := 0, frame := [] }, { hdr := 0, frame := [] }] ∧ ((go (h 65535 24) s).rxStream 0 5).partial_ = [] := by decide +kernel

/-- Witness of Obligations.FabricCellsAreReceivedInOrder. -/
theorem test_witness_Gaps : let c : RxCell := { seq := 9, valid := 0, cont := true, start := 0x1FF, payload := zeros 256, time := 0 }; let x : RxStream := { expected := some 7, held := [c], partial_ := zeros 5 }; let s := fun (x : RxStream) (l : List (Nat × Nat)) => fabric l { me := 7, rx := [(2047, x)] }; let t := after (.fabReseqTimeout 0 2047) (s x []); let y : TPkt := { hdr := hdrSet 0 20 31 16 9, frame := zeros 60 }; let z : TPkt := { hdr := hdrSet (hdrSet 0 20 31 16 7) 16 31 12 983040, frame := zeros 60 }; let r : State := { s { ready := [y] } [] with sched := { (s {} []).sched with nodes := [(nodeKey 2 0, { record := 0x80000 * 2 ^ 44 })] } }; let w : State := { r with swc := { staging := [(8 * 16 + 8, { closed := List.replicate 32 { input := 8, output := 8, seq := 0, frags := [], order := 0, since := 0 } })] } }
    (t.rxStream 0 2047).expected = some 8 ∧ (t.rxStream 0 2047).partial_ = [] ∧ (t.rxStream 0 2047).held = [c] ∧ t.rd (O.reseqLost 0) = 1 ∧ after (.fabReseqTimeout 0 1) t = t ∧
    (let p := hdrSet 0 24 31 18 64; let part := fun (n : Nat) => ({ expected := some 7, partial_ := (beBytes 32 p.toNat).take n } : RxStream); bytesToCome (part 32).partial_ = 64 ∧ ((part 32).lose.1.take c).2 = 1 ∧ bytesToCome (part 31).partial_ = 16416 ∧ ((part 31).lose.1.take c).2 = 0) ∧
    r.coreOutput 8 y.hdr = some 8 ∧ r.coreRoom 8 8 60 = true ∧ (after (.reassemblyRelease 0 2047) r).rxStream 0 2047 = {} ∧ (after (.reassemblyRelease 0 2047) r).rd (O.rxPackets 0) = 1 ∧
    w.coreRoom 8 8 60 = false ∧ r.streamTurn 0 = some 2047 ∧ w.streamTurn 0 = none ∧ after (.reassemblyRelease 0 2047) w = w ∧ (s { ready := [z] } []).coreOutput 8 z.hdr = none ∧ (after (.reassemblyRelease 0 2047) (s { ready := [z] } [])).rd O.coreMisroutes = 1 := by decide +kernel

/-- Witness of Obligations.FabricSendsAndWatchesItsPlanes. -/
theorem test_witness_FabricSends : let x : TxStream := { bytes := zeros 255, next := 65535 }; let s := fabric [(O.planeState 0, 2)] { me := 7, tx := [(9, x)], lanes := [(0, goodLane)] }; let t := after (.fabCellCloseTimeout 0 9) s; let u := after (.fabCellSend 0) t
    after (.fabCellCloseTimeout 0 8) s = s ∧ after (.fabCellCloseTimeout 0 9) (given s [(O.state .fab, STOPPED)]) = given s [(O.state .fab, STOPPED)] ∧ t.txStream 0 9 = { begun := true } ∧ t.rd (O.txFillBytes 0) = 1 ∧
    (t.waitingCells 0).map (fun c => (c.dest, c.seq, c.valid, c.sync, c.payload.length)) = [(9, 65535, 255, true, 256)] ∧ s.nextLane 0 = some 0 ∧ s.nextLane 1 = none ∧
    u.waitingCells 0 = [] ∧ (u.flane 0).queue.length = 1 ∧ mget u.fab.rotate 0 0 = 1 ∧ ((after .beaconSend s).out.length) = s.out.length + 144 ∧ (after .beaconSend s).fab.beacons = 1 ∧ after .beaconSend (up []) = up [] := by decide +kernel

/-- A sideband beacon of a plane. -/
def sideFrame (p : Nat) : BitVec 32 := let w := 0xE5 * 2 ^ 24 + p * 2 ^ 21; BitVec.ofNat 32 (w + crc8 ((beBytes 4 w).take 3))

/-- Witness of Obligations.FabricSendsAndWatchesItsPlanes. -/
theorem test_witness_Planes : let s := fun (st : Nat) (x : FabPlane) => fabric [(O.planeState 5, st)] { planes := [(5, x)] }; let side := fun (p : Nat) => after (.sidebandBeacon 5 (sideFrame p)); let lost := after (.beaconMiss 5 true) (s 2 { missSide := 5 })
    (s 1 {}).sideWatched 5 = true ∧ (side 5 (s 3 { missIn := 0 })).rd (O.planeState 5) = 4 ∧ ((side 5 (s 3 { missIn := 0 })).plane 5).waitEnd = some ((s 3 {}).rd O.fabWtr) ∧ ((side 5 (s 2 {})).plane 5).missSide = 0 ∧
    (side 4 (s 2 {})).rd (O.beaconMismatches 5) = 1 ∧ after (.sidebandBeacon 5 (sideFrame 5 + 1)) (s 2 {}) = s 2 {} ∧
    ((after (.beaconMiss 5 false) (s 1 { missIn := 3 })).plane 5).missIn = 4 ∧ (after (.beaconMiss 5 false) (s 1 {})).rd (O.inbandMisses 5) = 1 ∧ after (.beaconMiss 5 false) (up []) = up [] ∧
    lost.rd (O.planeState 5) = 3 ∧ lost.rd (O.planeFailures 5) = 1 ∧ (lost.plane 5).window = some 2048 ∧
    (after (.wtrExpiry 5) (s 4 {})).rd (O.planeState 5) = 2 ∧ bit ((after (.wtrExpiry 5) (s 4 {})).rd O.sprayPlanes) 5 = true ∧ after (.wtrExpiry 5) (s 3 {}) = s 3 {} ∧ (after (.beaconMiss 5 false) (s 4 {})).rd (O.planeState 5) = 3 ∧
    (s 1 { missIn := 0, missSide := 0 }).planeClean 5 = true ∧ (after (.joinComplete 5) (s 1 { missIn := 0, missSide := 0 })).rd (O.planeState 5) = 2 ∧ after (.joinComplete 5) (s 1 {}) = s 1 {} := by decide +kernel

/-- Witness of Obligations.FabricSendsAndWatchesItsPlanes. -/
theorem test_witness_PlaneAdmin : let s := fun (st : Nat) (x : FabPlane) => fabric [(O.planeState 5, st)] { planes := [(5, x)] }; let w := fun (v : BitVec 8) => Instr.planeAdmin .kdp 5 v; let c : RxCell := { seq := 8, valid := 0, cont := true, start := 0x1FF, payload := zeros 256, time := 0 }; let gap : State := { s 3 { window := some 2048 } with fab := { (s 3 { window := some 2048 }).fab with rx := [(0, { expected := some 7, held := [c] })] } }; let t := after (.removalWindowEnd 5) gap
    after (.removalWindowEnd 5) (s 3 {}) = s 3 {} ∧ (after (.removalWindowEnd 5) (s 3 { window := some 1 })).plane 5 = {} ∧ (t.plane 5).window = none ∧ (t.rxStream 0 0).held = [] ∧ (t.rxStream 0 0).expected = some 9 ∧ t.rd (O.reseqLost 0) = 1 ∧
    (s 2 {}).gate .kdp (O.planeAdmin 5) = .pass ∧ refused (w 2) .kdp (O.planeAdmin 5) .range (s 2 {}) = true ∧ (after (w 1) (up [])).rd (O.planeAdmin 5) = 1 ∧
    (s 2 {}).rd (O.planeAdmin 5) = 0 ∧ (after (w 1) (s 2 {})).rd (O.planeState 5) = 5 ∧ (after (w 0) (given (s 5 {}) [(O.planeAdmin 5, 1)])).rd (O.planeState 5) = 1 := by decide +kernel

/-- PROT and the functions of the path RUNNING, plane 0 ACTIVE, READY or not, and the objects given. -/
def guarded (ready : Bool) (l : List (Nat × Nat)) : State :=
  { on (.prot :: pathFns) ((O.planeState 0, 2) :: (O.minClusters, 0) :: l) with prot := { ready := ready } }

/-- Witness of Obligations.ProtectionRolesFollow. -/
theorem test_witness_Grant : let s := guarded true [(O.protMode 95, 1), (O.protRole 95, 1), (O.protWaiting, 1)]; let t := after (.keepGrantChange true) s; let u := after (.switchoverActive 95 70000) t; let off := given s [(O.state .prot, STOPPED)]
    after (.keepGrantChange false) s = s ∧ only [O.keepGrantLevel] off (after (.keepGrantChange true) off) = true ∧ t.rd O.keepGrantLevel = 1 ∧ t.rd O.protWaiting = 0 ∧ t.rd (O.protRole 95) = 2 ∧
    u.rd (O.protRole 95) = 3 ∧ u.rd (O.lastGap 95) = 3584 ∧ after (.switchoverActive 95 3583) t = t ∧ u.rd (O.portSwitchovers 95) = 1 ∧ after (.switchoverActive 95 0) s = s ∧ (after (.keepGrantChange false) u).rd (O.protRole 95) = 1 ∧
    (after .keepGrantGlitch s).rd O.grantGlitches = 1 ∧ (after .protWtrExpiry s).rd O.protWaiting = 0 ∧ (after .protWtrExpiry s).rd O.keepStateLevel = 1 ∧ after .protWtrExpiry (up []) = up [] := by decide +kernel

/-- Witness of Obligations.ProtectionRolesFollow. -/
theorem test_witness_Relinquish : let s := guarded true [(O.protMode 0, 1), (O.protRole 0, 3)]; let set := Instr.relinquishSet .kdp 0; let clear := Instr.relinquishClear .kdp 0; let t := after set s; let f := { guarded false [] with prot := { forced := true } }; let w := after clear (given f [(O.protPreferred, 1)])
    s.gate .kdp O.protRelinquish = .pass ∧ (after set (up [])).prot.forced = true ∧ after clear (after set (up [])) = { after clear (up []) with out := [.access .kdp O.protRelinquish .ok, .access .kdp O.protRelinquish .ok] } ∧ t.prot = { forced := true } ∧ t.rd O.relinquishes = 1 ∧ t.rd (O.protRole 0) = 1 ∧
    State.causes { f with prot := {} } = 0 ∧ (after clear f).prot.ready = true ∧ (after clear f).rd O.keepStateLevel = 1 ∧ w.rd O.protWaiting = 1 ∧ w.prot.waitEnd = some ((up []).rd O.protWtr) ∧ w.rd O.keepStateLevel = 0 ∧
    s.gate .kdp (O.fnCommand Fn.prot.code) = .pass ∧ s.fnRefusal .kdp .prot CMD_STOP = none ∧ (let x := after (.stop .kdp .prot 0) s; x.prot.ready = false ∧ x.rd O.relinquishes = 1 ∧ x.rd (O.protRole 0) = 3) := by decide +kernel

/-- Witness of Obligations.ProtectionRolesFollow. -/
theorem test_witness_Roles : let s := guarded true [(O.protMode 95, 2), (O.protRole 95, 1)]; let k := O.roleCmd 95; let a := Instr.roleActivate .kdp 95 0; let t := after a s; let m := fun (v : BitVec 8) => Instr.protMode .kdp 72 v; let q := O.protMode 72
    s.gate .kdp k = .pass ∧ refused a .kdp k .range (up []) = true ∧ refused (.roleStandby .kdp 95 0) .kdp k .range (up []) = true ∧ t.rd (O.protRole 95) = 2 ∧ t.prot.want = [95] ∧
    (after (.roleStandby .kdp 95 0) t).rd (O.protRole 95) = 1 ∧ (after a (given (up []) [(O.protMode 95, 2)])).prot.want = [95] ∧ (up []).gate .kdp q = .pass ∧ refused (m 3) .kdp q .range (up []) = true ∧
    refused (m 2) .kdp q .notStopped (given (up []) [(O.adminUp 72, 1)]) = true ∧ (given (up []) [(O.pairMode 3, 1)]).portExists 72 = true ∧ (given (up []) [(O.pairMode 3, 1)]).isOtn 72 = false ∧
    (after (m 2) (given (up []) [(O.pairMode 3, 1)])).rd q = 2 ∧ (after (m 2) (given (up []) [(O.pairMode 3, 1)])).rd (O.protRole 72) = 1 := by decide +kernel

/-- HBM RUNNING with channel 63 in the state given. -/
def chan (st : Nat) (l : List (Nat × Nat)) : State := on [.hbm, .buf] ((O.chState 63, st) :: l)

/-- Witness of Obligations.MemoryChannelsChangeState. -/
theorem test_witness_ChannelCommands : let k := O.chCmd 63; let d := Instr.chDrain .kdp 63 0; let sv := Instr.chReleaseService .kdp 63 0; let o := Instr.chReleaseOut .kdp 63 1; let r := Instr.chRetrain .kdp 63 0; let st := fun (c : Instr) (s : State) => (after c s).rd (O.chState 63); let used := { chan 2 [] with buf := { queues := [(0, { segs := [{ id := 63 * 1048576, phase := .stored }] })] } }; let ref := fun (c : Instr) (x : Status) (s : State) => endsWith c .kdp k x s && only [O.chResult 63] s (after c s)
    (chan 2 []).gate .kdp k = .pass ∧ ref d .functionDisabled (up []) = true ∧ used.chUsed 63 = 1 ∧ st d used = 3 ∧ st d (chan 2 []) = 4 ∧ ref d .ok (chan 3 []) = true ∧ ref d .ok (chan 4 []) = true ∧ ref d .range (chan 5 []) = true ∧ ref d .busy (chan 7 []) = true ∧ ref d .busy (chan 1 []) = true ∧
    st sv (chan 4 []) = 2 ∧ st sv (chan 4 [(O.stackHot 3, 1)]) = 7 ∧ st sv (chan 5 [(O.chFreezeCause 63, 3)]) = 1 ∧ mfind (after sv (chan 6 [])).hbm.goal 63 = some 2 ∧ (after sv (chan 5 [(O.chFreezeCause 63, 3)])).rd (O.chFreezeCause 63) = 0 ∧
    mfind (after o (chan 5 [])).hbm.goal 63 = some 4 ∧ ref o .range (chan 3 []) = true ∧ st r (chan 4 []) = 1 ∧ mfind (after r (chan 4 [])).hbm.goal 63 = some 4 ∧ ref r .range (chan 2 []) = true ∧ ref r .range (chan 6 []) = true := by decide +kernel

/-- Witness of Obligations.MemoryChannelsChangeState. -/
theorem test_witness_Training : let tr := Instr.channelTrained 63 (List.replicate 16 [127]) []; let s := chan 1 [(O.hbmEyeMin, 127), (O.hbmRefine, 0)]; let out := { s with hbm := { goal := [(63, 4)] } }; let k := Instr.hbmTrack 63 [(true, false)]; let d := chan 7 [(O.chDelays 63, leNat (List.replicate 16 5))]; let t := fun (x : Int) => Instr.stackTempSample 3 x
    after tr (chan 2 []) = chan 2 [] ∧ (after tr (given s [(O.hbmEyeMin, 128)])).rd (O.chState 63) = 6 ∧ (after tr s).rd (O.chState 63) = 2 ∧ (after tr out).rd (O.chState 63) = 4 ∧
    (let u := after tr (given s [(O.hbmRefine, 1)]); u.rd (O.chEyeMin 63) = 33 ∧ u.rdB (O.chDelays 63) 16 = List.replicate 16 63#8) ∧ s.rd O.hbmRefine ≠ 1 ∧
    ((after k d).rdB (O.chDelays 63) 16) = 4 :: List.replicate 15 5 ∧ after k (up []) = up [] ∧ after (t 0) (up [(O.state .hbm, DISABLED)]) = up [(O.state .hbm, DISABLED)] ∧
    (after (t 10500) (chan 3 [(O.hbmTempCrit, 10500)])).rd (O.stackHot 3) = 1 ∧ (after (t 10500) (chan 3 [(O.hbmTempCrit, 10500)])).rd (O.chState 63) = 7 ∧
    (after (t 10200) (chan 7 [(O.hbmTempCrit, 10500), (O.stackHot 3, 1)])).rd (O.chState 63) = 2 ∧ only [O.stackTemp 3, O.stackRefreshX2 3] (chan 2 []) (after (t 8500) (chan 2 [])) = true ∧ (after (t 8500) (chan 2 [])).rd (O.stackRefreshX2 3) = 1 := by decide +kernel

/-- Witness of Obligations.MemoryChannelsChangeState. -/
theorem test_witness_Pattern : let s := chan 4 []; let r := Instr.patternRun .kdp 63; let t := after r s; let u := after (.patternDone [] [] []) t
    s.gate .kdp O.patCmd = .pass ∧ refused r .kdp O.patCmd .busy t = true ∧ refused (.patternRun .kdp 64) .kdp O.patCmd .range s = true ∧ refused r .kdp O.patCmd .notStopped (chan 2 []) = true ∧
    t.hbm.pattern = some 63 ∧ t.rd O.patState = 1 ∧ u.hbm.pattern = none ∧ u.rd O.patState = 2 ∧ after (.patternDone [] [] []) s = s ∧
    (let e := (after (.patternDone (List.replicate 1024 1#8) [] []) t).rdB O.patErrors 1024; e.getD 0 0 = 1 ∧ e.getD 1 0 = 0 ∧ e.getD 896 0 = 1) := by decide +kernel

/-- Witness of Obligations.MemoryErrorsFreezeChannels. -/
theorem test_witness_MemoryErrors : let g : Seg := { id := 63 * 1048576, phase := .reading }; let s := { chan 2 [] with buf := { queues := [(7, { segs := [g] })] } }; let t := after (.segmentReadDone 7 g.id .uncorrectable noErr) s; let scrub := fun (e : Ecc) => after (.hbmScrub 63 e noErr); let frozen := fun (t : State) (c segment : Nat) => t.rd (O.chState 63) == 5 && t.rd (O.chFreezeCause 63) == c && t.rd O.hbmFreezes == 1 && leNat (slice (t.rdB (O.chCapture 63) 32) 16 4) == segment && leNat (slice (t.rdB (O.chCapture 63) 32) 10 1) == segment % 1048576 % 48
    g.id / 1048576 = 63 ∧ frozen t 1 g.id = true ∧ (t.queue 7).segs = [] ∧ after (.segmentReadDone 7 0 .clean noErr) s = s ∧ s.rd O.scrubInterval ≠ 0 ∧ s.chLive 63 = true ∧ (scrub .clean s).hbm.scrub = [(63, 1)] ∧ (scrub .corrected s).rd (O.chCe 63) = 1 ∧ frozen (scrub .uncorrectable s) 2 g.id = true ∧
    (chan 5 []).chLive 63 = false ∧ scrub .uncorrectable (chan 5 []) = chan 5 [] ∧ frozen (after (.hbmCommandParity 63 noErr) s) 3 g.id = true ∧ frozen (after (.hbmCommandParity 63 { noErr with segment := 786432 + 49 }) s) 3 (g.id + 49) = true ∧ after (.hbmCommandParity 63 noErr) (chan 4 []) = chan 4 [] := by decide +kernel

/-- Witness of Obligations.MemoryErrorsFreezeChannels. -/
theorem test_witness_AddressParity : let s := on [.qdr] [(O.qifState 3, 3)]; let p := fun (n : Nat) => after (.qdrAddressParity 3 n)
    p 0 (up []) = up [] ∧ (p 15 s).rd (O.qifApErrors 3) = 16 ∧ (p 15 s).rd (O.qifState 3) = 3 ∧ (p 16 s).rd (O.qifReplays 3) = 17 ∧ (p 99 s).rd (O.qifState 3) = 4 ∧ only [O.qifApErrors 3, O.qifReplays 3] s (p 0 s) = true ∧
    (let q := up [(O.state .qdr, STARTING), (O.qdrIfEnable, 9)]; q.alive = true ∧ (q.fn .qdr).verdict = none ∧ q.qdrBadEye [200, 200, 200, 200] = none ∧ q.qifEnabled = [0, 3] ∧
      (after (.startDone .qdr [200, 200, 200, 200]) q).rd (O.qifAccesses 0) = 1048576 ∧ (after (.startDone .qdr [200, 200, 200, 200]) q).rd (O.qifAccesses 3) = 2097152) := by decide +kernel

/-- FWUP RUNNING with a transfer of kind 2 to engine slot A in the state given and the objects given; the boot record names slot and store A. -/
def transfer (st : Nat) (l : List (Nat × Nat)) : State :=
  let s := on [.fwup, .eng] ((O.fwState, st) :: (O.fwKind, 2) :: (O.fwTargetSlot, 0) :: l)
  { s with fw := { s.fw with confirmed := some 0, store := some 0, engSlot := some 1, stores := [(0, {}), (1, {})], slots := [(2, { length := 4106 })] } }

/-- A firmware command is refused and changes only FW_RESULT. -/
def fwRefused (c : Instr) (st : Status) (s : State) : Bool :=
  endsWith c .kdp O.fwCmd st s && (after c s).rd O.fwResult == st.code && only [O.fwResult] s (after c s)

/-- Witness of Obligations.FirmwareCommandsFollowTheirTable and Obligations.FirmwareImagesAreVerifiedAndBooted. -/
theorem test_witness_FwBegin : let b := fun (k : BitVec 24) => Instr.fwBegin .kdp k; let s := fun (n : Nat) => transfer 0 [(O.fwLength, n)]; let t := after (b 2) (s 1048576); let e := after .eraseDone t; let mc := after (b 1) (s 256)
    (s 0).gate .kdp O.fwCmd = .pass ∧ fwRefused (b 1) .functionDisabled (up []) = true ∧ fwRefused (.fwWrite .kdp 0) .functionDisabled (up []) = true ∧ fwRefused (b 0) .range (s 256) = true ∧ fwRefused (b 3) .range (s 256) = true ∧ fwRefused (b 2) .range (s 255) = true ∧ fwRefused (b 2) .range (s 1048577) = true ∧
    (s 256).fwTarget 1 = 1 ∧ mc.rd O.fwTargetSlot = 1 ∧ mc.rd O.fwState = FW_ERASING ∧ t.rd O.fwState = FW_ERASING ∧ t.rd O.fwTargetSlot = 0 ∧ mfind t.fw.slots 2 = some { length := 1048576 } ∧ fwRefused (b 1) .busy t = true ∧
    e.rd O.fwState = FW_RECEIVING ∧ after .eraseDone e = e ∧ (after .eraseTimeout t).rd O.fwResult = Status.internal.code ∧ fwRefused (.fwWrite .kdp 0) .busy t = true ∧ fwRefused (.fwConfirm .kdp 0) .busy t = true ∧
    (after (.fwAbort .kdp 0) t).rd O.fwState = 0 ∧ only [O.fwResult] (s 0) (after (.fwAbort .kdp 0) (s 0)) = true := by decide +kernel

/-- Witness of Obligations.FirmwareCommandsFollowTheirTable and Obligations.FirmwareImagesAreVerifiedAndBooted. -/
theorem test_witness_FwWrite : let w := Instr.fwWrite .kdp 0; let d := zeros 10; let s := fun (o n crc : Nat) => transfer 2 [(O.fwBlockOffset, o), (O.fwBlockLength, n), (O.fwBlockCrc, crc)]; let good := s 4096 10 (crc32c d); let t := after w good; let full := { good with fw := { good.fw with buffers := [(8192, d), (12288, d)] } }; let u := after .blockProgrammed t
    endsWith w .kdp O.fwCmd .integrity (s 4096 10 (crc32c d + 1)) = true ∧ (after w (s 4096 10 0)).rd O.fwBlockRejects = 1 ∧ fwRefused w .range (s 4100 10 (crc32c d)) = true ∧ fwRefused w .range (s 8192 10 (crc32c d)) = true ∧
    t.fw.buffers = [(4096, d)] ∧ fwRefused w .busy full = true ∧ u.fw.buffers = [] ∧ mfind (mget u.fw.slots {} 2).blocks 4096 = some d ∧ u.rd O.fwReceived = 1 ∧ after .blockProgrammed good = good ∧ fwRefused w .range (transfer 4 []) = true := by decide +kernel

/-- Witness of Obligations.FirmwareCommandsFollowTheirTable and Obligations.FirmwareImagesAreVerifiedAndBooted. -/
theorem test_witness_FwVerify : let v := Instr.fwVerify .kdp 0; let s := transfer 2 []; let f := { s with fw := { s.fw with slots := [(2, { length := 4097, blocks := [(0, zeros 4), (4096, zeros 1)] })] } }; let x := after (.verifyDone false) (transfer 3 [])
    fwRefused v .range (transfer 0 []) = true ∧ (mget f.fw.slots {} 2).complete = true ∧ (after v f).rd O.fwState = FW_VERIFYING ∧ (mget s.fw.slots {} 2).complete = false ∧ (after v s).rd O.fwVerifyError = 1 ∧ (after v s).rd O.fwState = FW_RECEIVING ∧
    x.rd O.fwVerifyError = 8 ∧ x.rd O.fwResult = Status.integrity.code ∧ after (.verifyDone true) s = s := by decide +kernel

/-- Witness of Obligations.FirmwareCommandsFollowTheirTable and Obligations.FirmwareImagesAreVerifiedAndBooted. -/
theorem test_witness_FwEnds : let c := Instr.fwConfirm .kdp 0; let a := Instr.fwActivate .kdp 0; let r := Instr.fwRevert .kdp 0; let v := transfer 4 [(O.fwKind, 1), (O.fwTargetSlot, 1)]; let t := given (transfer 0 []) [(O.bootState, 1)]; let w := after .confirmWindowExpiry t
    fwRefused a .busy (transfer 1 []) = true ∧ fwRefused a .range (transfer 2 []) = true ∧ (after a v).fw.trial = some 1 ∧ (after a v).fw.records = 1 ∧ (after a v).fw.writing = true ∧ (after a v).fw.other = { v.fw.written with good := true } ∧ (after a v).svc.reset ≠ none ∧ fwRefused c .range v = true ∧ only [O.fwResult] (transfer 0 []) (after c (transfer 0 [])) = true ∧
    (transfer 4 []).mcodeBusy = false ∧ (after c t).rd O.bootState = 0 ∧ (after c t).fw.store = some 1 ∧ (after c (transfer 5 [])).fw.engSlot = some 0 ∧ (after c (transfer 5 [])).rd O.fwState = 0 ∧
    fwRefused r .range (transfer 0 []) = true ∧ (after r t).fw.reason = 3 ∧ w.pwr.resetting = some .sys ∧ w.fw.reason = 1 ∧ w.mcState = 0 ∧ after .confirmWindowExpiry (up []) = up [] := by decide +kernel

/-- Witness of Obligations.FirmwareImagesAreVerifiedAndBooted. -/
theorem test_witness_Boot : let s := { State.reset with fw := { State.reset.fw with confirmed := some 0 } }; let d := { s with fw := { s.fw with wdt := [(0, 3), (1, 3)] } }
    (after (.bootSelect false true true) s).mcState = 3 ∧ (after (.bootSelect false true true) s).failReason = 3 ∧ d.watchdogBoots d.mcConfirmed = 3 ∧ d.watchdogBoots (1 - d.mcConfirmed) = 3 ∧ (after (.bootSelect true true true) d).failReason = 2 ∧ (after (.bootSelect true true true) d).rd O.bootState = 2 ∧
    s.watchdogBoots s.mcConfirmed = 0 ∧ s.fw.trial = none ∧ after (.bootSelect true true true) (up []) = up [] ∧ State.storeInForce { s with fw := { s.fw with store := some 0 } } = 0 ∧ (up []).gate .kdp O.keyRevoke = .pass ∧
    refused (.keyRevoke .kdp 0x4B5204) .kdp O.keyRevoke .range (up []) = true ∧ refused (.keyRevoke .kdp 3) .kdp O.keyRevoke .range (up []) = true := by decide +kernel

/-- Witness of Obligations.SettingsAreSavedAndApplied. -/
theorem test_witness_Settings : let k := O.shapePir; let s := fun (l : List Byte) => given (transfer 0 []) [(O.settingsList, leNat l), (k, 17)]; let v := Instr.settingsSave .kdp 0; let a := Instr.settingsApply .kdp 0; let t := after v (s (beBytes 4 k)); let b := after v (s (beBytes 4 k ++ beBytes 4 1)); let held := fun (l : List (Nat × Nat)) => { s [] with fw := { (s []).fw with stores := [(0, { entries := l })] } }
    (s []).gate .kdp O.settingsCmd = .pass ∧ (s (beBytes 4 k ++ beBytes 4 1)).settingsEntries = [k, 1] ∧ endsWith v .kdp O.settingsCmd .range (s (beBytes 4 k ++ beBytes 4 1)) = true ∧ b.rd O.settingsErrorEntry = 1 ∧
    (s (beBytes 4 k)).settingsEntries.findIdx? unsavable = none ∧ (t.setStore 0).entries.getLast? = some (k, 17) ∧ t.rd O.settingsSaves = 1 ∧
    ((s []).setStore (s []).saveStore).entries = [] ∧ (after a (held [(k, 99)])).rd k = 99 ∧ plainIndex (k / 256) = true ∧ (rowOf k).any (fun r => r.acc == .rw && r.ty.holdsValue 99 && r.chk.ok 99) = true ∧
    rowOf 1 = none ∧ (after a (held [(1, 99)])).rd O.settingsSkipped = 1 ∧ (after a (held [(k, 99), (1, 5)])).rd k = 99 ∧
    (after a (held [(k, 99), (1, 5)])).rd O.settingsSkipped = 1 ∧ endsWith a .kdp O.settingsCmd .ok (held [(k, 99), (1, 5)]) = true ∧ reportKey k = false ∧
    (s (beBytes 4 k)).settingsEntries.findSome? (s (beBytes 4 k)).savedRefused = none ∧ (held [(k, 99)]).savedNow = [(k, 99)] ∧ (held [(k, 99)]).savedRefused k = none ∧
    (let j := objKey 0x7500 3; let broken := fun (x : State) => given x [(O.evradState 16, 3)]; onLink j = true ∧ (broken (s (beBytes 4 j))).gate .kdp O.settingsCmd = .pass ∧
      endsWith v .kdp O.settingsCmd .internal (broken (s (beBytes 4 j))) = true ∧ (after a (broken (held [(j, 5)]))).rd O.settingsSkipped = 1 ∧
      (given (s (beBytes 4 j)) [(O.evradState 17, 2)]).gate .kdp O.settingsCmd = .hold) ∧
    (let x := held [(k, 99)]; let y := { x with fw := { x.fw with stores := [(0, { entries := [(k, 99)], crcBad := true })] } }; y.savedNow = [] ∧ (given x [(O.settingsFormat, 1)]).savedNow = [] ∧ (after a y).rd k = 17) := by decide +kernel

/-- Witness of Obligations.CountersFreezeAndAreCopied. -/
theorem test_witness_Freeze : let s := on [.perf] [(O.pcValue 95, 7)]; let k := O.perfCmd; let f := after (.freeze .kdp 0) s; let sn := after (.snapshot .kdp 0) s; let pin := given s [(O.snapPinMode, 2)]; let later : State := { sn with ticks := 6 * 17 }
    s.gate .kdp k = .pass ∧ refused (.freeze .kdp 0) .kdp k .busy pin = true ∧ refused (.unfreeze .kdp 0) .kdp k .busy pin = true ∧ f.rd O.frozen = 1 ∧ (after (.unfreeze .kdp 0) f).rd O.frozen = 0 ∧ only [O.frozen] { s with perf := f.perf } f = true ∧
    s.snapMerges = false ∧ sn.rd (O.pcSnap 95) = 7 ∧ sn.rd O.snapGen = 1 ∧ sn.snapMerges = true ∧ (after (.snapshot .kdp 0) sn).rd O.snapMerged = 1 ∧ later.snapMerges = false ∧
    (after (.snapPin true) (given s [(O.snapPinMode, 1)])).rd (O.pcSnap 95) = 7 ∧ (after (.snapPin true) pin).rd O.frozen = 1 ∧ (after (.snapPin false) pin).rd O.frozen = 0 ∧ ((given s [(O.snapPinMode, 0)]).rd O.snapPinMode) = 0 ∧
    (given s [(O.frozen, 1)]).perfEvent false 0x0100 3 {} = given s [(O.frozen, 1)] := by decide +kernel

/-- Witness of Obligations.StatisticsAreReadAndExported. -/
theorem test_witness_Stat : let s := { on [.perf] [(O.statBytes, 5), (O.statPackets, 6)] with perf := { pairs := [(2097151, (9, 2))] } }; let k := O.statCmd; let ref := fun (c : Instr) (x : Status) => endsWith c .kdp k x s && only [O.statResult] s (after c s); let r := after (.statRead .kdp 2097151 ⟨false, .clean, 0⟩) s; let b := after (.statRead .kdp 2097151 ⟨true, .clean, 0⟩) s; let x := { on [.perf, .qdr] [(O.qifState 2, 3)] with perf := { pairs := [(2097152, (3, 4))] } }; let c := after (.statReadClear .kdp 2097151 ⟨false, .clean, 0⟩) s
    s.gate .kdp k = .pass ∧ ref (.statRead .kdp 0 ⟨false, .clean, 0⟩) .range = true ∧ ref (.statRead .kdp 6291456 ⟨false, .clean, 0⟩) .range = true ∧ ref (.statWrite .kdp 6291455) .functionDisabled = true ∧ s.qifUp (pairIf 2097152) = false ∧ ref (.statWrite .kdp 2097152) .functionDisabled = true ∧
    r.rd O.statBytes = 9 ∧ r.rd O.statPackets = 2 ∧ r.pair 2097151 = (9, 2) ∧ b.rd O.statBytes = 0 ∧ b.pair 2097151 = (0, 0) ∧ b.rd O.statParityResets = 1 ∧ c.pair 2097151 = (0, 0) ∧ c.rd O.statBytes = 9 ∧ (after (.statWrite .kdp 1) s).pair 1 = (5, 6) ∧
    x.qifUp (pairIf 2097152) = true ∧ x.qifUp (pairIf 6291455) = false ∧ x.pairCheck2 2097152 true .clean 0 = x ∧ x.gate .kdp k = .pass ∧
    (x.pairCheck2 2097152 false .uncorrectable 0).pair 2097152 = (0, 4) ∧ (x.pairCheck2 2097152 false .uncorrectable 1).pair 2097152 = (3, 0) ∧
    (x.pairCheck2 2097152 false .uncorrectable 1).rd (O.qifUe 2) = 1 := by decide +kernel

/-- Witness of Obligations.StatisticsAreReadAndExported. -/
theorem test_witness_Export : let f : Flight := { slot := 0, desc := desc 4096 1 0 }; let s := inFlight 47 [f] (linked [.perf] (armedRing 47 2 15 1 ++ [(O.expCount 15, 2), (O.expFirst 15, 9)])); let w : Sweep := { next := 9, left := 2, sweep := 1, clear := true }; let p : State := { s with perf := { pairs := [(9, (3, 1))], sweeps := [(15, w)] } }; let u := after (.exportPairRead ⟨15, ⟨false, .clean, 0⟩⟩) p
    s.armed 47 = true ∧ s.serves 15 47 = true ∧ mfind (after (.exportPeriod 15) s).perf.sweeps 15 = some { w with clear := false } ∧ (after (.exportPeriod 15) s).rd (O.expSweeps 15) = 1 ∧ (after (.exportPeriod 15) p).rd (O.expOverruns 15) = 1 ∧ after (.exportPeriod 15) (up []) = up [] ∧
    p.exportRing 15 = some 47 ∧ p.exportTurn = some 15 ∧ p.exportReady 15 = true ∧ p.exportTurn ≠ some 14 ∧ after (.exportPairRead ⟨14, ⟨false, .clean, 0⟩⟩) p = p ∧ (p.buffers 47).head? = some f ∧ p.canSend = true ∧ (p.dring 47).waitPage = none ∧ p.missingPage 0x1000 24 = none ∧
    u.out.head? = some (.dmaWrite 0x1000 (exportRecord 9 1 (3, 1)) true) ∧ u.pair 9 = (0, 0) ∧ mfind u.perf.sweeps 15 = some { w with next := 10, left := 1 } ∧ mfind (after (.exportPairRead ⟨15, ⟨false, .clean, 0⟩⟩) u).perf.sweeps 15 = none := by decide +kernel

/-- Witness of Obligations.StepsTakeTheFrontCommand. -/
theorem test_witness_Step : let c := Instr.keepGrantGlitch; let s := up []; let d : State := { s with pwr := { s.pwr with released := 0 } }
    (match step { s with pending := [c, .snapPin true] } with | .next t => t.pending == [.snapPin true] && t.rd O.grantGlitches == 1 | _ => false) = true ∧ s.alive = true ∧ d.alive = false ∧ d.pending = [] ∧
    (match step d with | .next t => t == d | _ => false) = true ∧
    (match step s with | .next t => t.ticks == 1 && t.pending == [] | _ => false) = true := by decide +kernel

/-- Witness of Obligations.EveryStepCompletesAndKeepsTheObjectsCanonical and Obligations.SecurityFloorsNeverFall and Obligations.ResetLeavesTheDefaults. -/
theorem test_witness_Canonical : Canonical State.reset.objs = true ∧ (step State.reset matches .next _) = true := by decide +kernel

/-- Witness of Obligations.AbsentObjectsRefuseEveryAccess. -/
theorem test_witness_Absent : let s := up []; let w := fun (i u : Nat) => Instr.objectWrite .kdp i u 0 []
    rowOf (objKey 0x0FFF 0) = none ∧ indexHolds 0x0FFF = false ∧ s.gate .kdp (objKey 0x0FFF 0) = .pass ∧ refused (w 0x0FFF 0) .kdp (objKey 0x0FFF 0) .noObject s = true ∧
    rowOf (objKey 0x1000 255) = none ∧ indexHolds 0x1000 = true ∧ refused (w 0x1000 255) .kdp (objKey 0x1000 255) .noSubindex s = true ∧ refused (.rcRead .kdp 0x1000 255) .kdp (objKey 0x1000 255) .noSubindex s = true ∧
    sent (after (.rcRead .window 0x1000 255) s) = some (.readDone (objKey 0x1000 255) .noSubindex (List.replicate 8 0xFF)) ∧ sent (after (.windowHalfRead true 0x0FFF 0) s) = some (.readDone (objKey 0x0FFF 0) .noObject (List.replicate 4 0xFF)) ∧
    refused (.windowHalfWrite true 0x0FFF 0 0) .window (objKey 0x0FFF 0) .noObject s = true ∧ s.svc.capture = none := by decide +kernel

/-- Witness of Obligations.VendorObjectsAreReadOnly. -/
theorem test_witness_Vendor : let s := up []; let k := objKey 0xF010 1
    0xF000 ≤ k / 256 ∧ (rowOf k).isSome = true ∧ s.gate .kdp k = .pass ∧ refused (.objectWrite .kdp 0xF010 1 0 [1]) .kdp k .accessDenied s = true ∧ refused (.objectWrite .window 0xF010 1 0 (zeros 8)) .window k .accessDenied s = true ∧
    refused (.windowHalfWrite true 0xF010 1 0) .window k .accessDenied s = true := by decide +kernel

/-- Witness of Obligations.AccessesPassTheGates. -/
theorem test_witness_Gates : let s := up []; let e := Instr.enable .window .line 0; let w := Instr.objectWrite .window 0x7500 3 0 (zeros 8); let r := Instr.rcRead .window 0x7500 3; let k := objKey 0x7500 3; let c := O.fnCommand Fn.line.code
    let denied := fun (t : State) (st : Status) => refused w .window k st t && refused (.rcRead .mailbox 0x7500 3) .mailbox k st t && sent (after r t) == some (.readDone k st (List.replicate 8 0xFF)); let boot : State := { s with mcState := 0 }; let rec_ : State := { s with mcState := 2 }; let core := { s with pwr := { s.pwr with resetting := some .core } }
    s.alive = true ∧ s.memOpen = true ∧ s.mgmtUp = true ∧ s.keyless = false ∧ s.mbxTaken = false ∧ s.svc.held = [] ∧ inRecovery k = false ∧ keptByCore k = false ∧ denied boot .busy = true ∧ denied rec_ .noObject = true ∧ refused e .window c .busy boot = true ∧ refused e .window c .noObject rec_ = true ∧ refused e .window c .busy core = true ∧ denied core .busy = true ∧
    onTDie c = false ∧ s.gate .window c = .pass := by decide +kernel

/-- Witness of Obligations.AccessesPassTheGates. -/
theorem test_witness_Silent : let s := up []; let e := Instr.enable .window .line 0; let w := Instr.objectWrite .window 0x7500 3 0 (zeros 8); let halt : State := { s with mcState := 3 }; let boot : State := { s with mcState := 0 }; let dark : State := { s with pwr := { s.pwr with released := 7 } }
    after e halt = halt ∧ after w halt = halt ∧ after w dark = dark ∧ after (.rcRead .window 0x7500 3) dark = dark ∧ after (.enable .kdp .line 0) boot = boot ∧ after (.rcRead .kdp 0x7500 3) boot = boot ∧
    sent (after (.rcRead .window 0x7500 3) halt) = some (.unserved (objKey 0x7500 3) (List.replicate 8 0xFF)) := by decide +kernel

/-- Witness of Obligations.AccessesPassTheGates. -/
theorem test_witness_Unheard : let s := up []; let c := O.fnCommand Fn.line.code; let off : State := { s with host := { s.host with memSpace := false } }; let bare : State := { s with svc := { s.svc with key0 := none, key1 := none } }; let e := after (.enable .kdp .line 0) bare
    off.memOpen = false ∧ (after (.enable .window .line 0) off).rd O.urReceived = 1 ∧ objectsKept [O.urReceived] off (after (.rcRead .window 0x7500 3) off) = true ∧
    bare.keyless = true ∧ e.rd O.kdpAuthFails = 1 ∧ sent e = some (.access .kdp c .authFail) ∧ sent (after (.rcRead .kdp 0x7500 3) bare) = some (.access .kdp (objKey 0x7500 3) .authFail) ∧ identityObject (objKey 0x7500 3) = false ∧ identityObject (objKey 0x1001 1) = true ∧
    (after (.rcRead .kdp 0x1001 1) bare).rd O.kdpAuthFails = 0 := by decide +kernel

/-- Witness of Obligations.AccessesPassTheGates. -/
theorem test_witness_Turned : let s := up []; let c := O.fnCommand Fn.line.code; let m : State := { s with svc := { s.svc with mbx := some { write := false, object := 0, offset := 0, length := 4 } } }; let q := O.qbufCmd; let x := Instr.objectWrite .window (q / 256) (q % 256) 0 (zeros 8); let t := given s [(O.evradState 16, 3)]; let u := given s [(O.evradState 17, 0)]
    let h := given s [(O.evradState 16, 1), (O.evradState 17, 2)]; let w := after x h; let b := after (.objectWrite .mailbox (q / 256) (q % 256) 0 (zeros 4)) h
    m.mbxTaken = true ∧ refused (.enable .mailbox .line 0) .mailbox c .busy m = true ∧ refused (.rcRead .mailbox 0x7500 3) .mailbox (objKey 0x7500 3) .busy m = true ∧ (after (.enable .mailbox .line 0) m).svc.mbx = m.svc.mbx ∧
    onTDie q = true ∧ (rowOf q).isSome = true ∧ refused x .window q .internal t = true ∧ refused x .window q .busy u = true ∧ u.reach q = .refuse .busy ∧
    h.reach q = .hold ∧ h.gate .window q = .hold ∧ w.svc.held.length = 1 ∧ w.out = h.out ∧ (after (.rcRead .window 0x1000 1) w).svc.held.length = 2 ∧ b.mbxTaken = true ∧ b.rd O.mbxState = 1 := by decide +kernel

/-- A refused term for each check of dictionary, window, KDP and Evrad operands. -/
theorem test_wellFormed_access :
    ([.objectWrite .kdp 65536 0 0 [], .objectWrite .kdp 0 256 0 [], .objectWrite .kdp 0 0 4096 [], .objectWrite .kdp 0 0 0 (zeros 4097), .rcRead .kdp 65536 0,
      .windowHalfWrite true 65536 0 0, .windowHalfRead true 0 256, .stagingCopyTimeout 0 256, .kdpRequest (2 ^ 128) 0 [], .kdpRequest 0 65536 [], .kdpKeyWrite .kdp 0 (zeros 31),
      .evradFlitCrcFail 0 128 true, .evradWireFault 0 128, .evradTrainingEnd [(0, 128)]] : List Instr).all (fun c => !c.wellFormed) = true := by decide +kernel

/-- A refused term for each check of power and host operands. -/
theorem test_wellFormed_host :
    ([.railExcursionEnd 0 65536 0, .railExcursionEnd 0 0 (2 ^ 32), .supplySample 65536 0 (List.replicate 9 0) (List.replicate 9 0), .supplySample 0 65536 (List.replicate 9 0) (List.replicate 9 0),
      .supplySample 0 0 [] (List.replicate 9 0), .supplySample 0 0 (List.replicate 9 0) [], .supplySample 0 0 (List.replicate 9 65536) (List.replicate 9 0),
      .supplySample 0 0 (List.replicate 9 0) (List.replicate 9 (2 ^ 32)), .pstateToP0 .kdp 1, .pstateToP1 .kdp 0, .pstateToP2 .kdp 1, .pcieLinkUp 0 3 true, .unsupportedRequest true (2 ^ 128), .poisonedWrite (2 ^ 128),
      .doeRequest 65536 0 [], .doeRequest 0 256 [], .doeRequest 0 0 [2 ^ 32],
      .descriptorFetch 0 ⟨2 ^ 64, 0, 0, 0, 0, 0⟩, .descriptorFetch 0 ⟨0, 2 ^ 32, 0, 0, 0, 0⟩, .descriptorFetch 0 ⟨0, 0, 65536, 0, 0, 0⟩,
      .descriptorFetch 0 ⟨0, 0, 0, 256, 0, 0⟩, .descriptorFetch 0 ⟨0, 0, 0, 0, 256, 0⟩, .descriptorFetch 0 ⟨0, 0, 0, 0, 0, 2 ^ 64⟩,
      .completionReceived 16384 .success [] true, .completionReceived 0 .success (zeros 4097) true, .completionTimeout 16384, .unexpectedCpl 16384, .quarantineExpiry 16384,
      .translationCompletion 0 (2 ^ 52) 0 true, .translationCompletion 0 0 53 true, .invalidateRequest 32 0 0, .invalidateRequest 0 (2 ^ 52) 0, .invalidateRequest 0 0 53, .invalidateComplete 32] : List Instr).all
      (fun c => !c.wellFormed) = true := by decide +kernel

/-- A refused term for each check of line, table, buffer and memory operands. -/
theorem test_wellFormed_data :
    ([.laneLocked 0 (zeros 5) 0, .laneLocked 0 (zeros 6) 65536, .laneTrainFailed 0 65536, .frameReceived 0 none [] ⟨true, false⟩ [], .assocSearch 0 ⟨0, 0⟩ (2 ^ 640) false false false,
      .sweepVisit 0 (2 ^ 164) false false, .scrubRow 0 16384 false false false, .segmentWriteIssue 1048576, .segmentWriteDone 1048576 0, .segmentWriteDone 0 67108864, .segmentReadIssue 1048576,
      .segmentReadDone 1048576 0 .clean noErr, .segmentReadDone 0 67108864 .clean noErr, .fairWindowExpiry 1048576, .policerWalk ⟨4194304, .clean, 0⟩, .cellReceived 0 0 (zeros 255), .switchoverActive 0 (2 ^ 32),
      .channelTrained 0 (List.replicate 15 []) (List.replicate 16 []), .channelTrained 0 (List.replicate 16 []) (List.replicate 15 []),
      .channelTrained 0 (List.replicate 16 [128]) (List.replicate 16 []), .channelTrained 0 (List.replicate 16 []) (List.replicate 16 [128]), .hbmTrack 0 [], .patternDone (zeros 1023) (zeros 16) (zeros 16), .patternDone (zeros 1024) (zeros 15) (zeros 16),
      .patternDone (zeros 1024) (zeros 16) (zeros 15)] : List Instr).all (fun c => !c.wellFormed) = true := by decide +kernel

/-- Terms at the bounds are well formed. -/
theorem test_wellFormed_bounds :
    ([.objectWrite .kdp 65535 255 4095 (zeros 4096), .rcRead .window 65535 255, .kdpRequest (2 ^ 128 - 1) 65535 [], .kdpKeyWrite .kdp 1 (zeros 32), .pstateToP0 .kdp 0, .pcieLinkUp 6 16 true, .doeRequest 65535 255 [2 ^ 32 - 1],
      .segmentReadDone 1048575 67108863 .clean noErr, .channelTrained 63 (List.replicate 16 [127]) (List.replicate 16 [0]), .policerWalk ⟨4194303, .corrected, 1⟩, .cellReceived 143 0 (zeros 256), .enable .kdp .line 16777215] : List Instr).all Instr.wellFormed = true := by decide +kernel

end Sys2Proof.Tests
end

section
/-! PROOF. The range of objects 0xF000 to 0xFFFF is closed to writes by every path (R4): what an access right that admits no write makes
of a range, of a whole value and of a half through the window. -/

namespace Sys2Proof.Machine

/-! ### The rows of the range -/

/-- Past page 0xEF the dictionary has the rows of page 0xF0 and no others. -/
theorem mem_pageOf_vendor {hi : Nat} {r : Row} (h : 0xF0 ≤ hi) (hr : r ∈ pageOf hi) : r ∈ pageF0 := by
  unfold pageOf at hr
  split at hr
  case h_47 => exact hr
  case h_48 => cases hr
  all_goals omega

/-- Every object of 0xF000 to 0xFFFF is RO and fits a slot of the window. -/
theorem rowOf_vendor {k : Nat} {r : Row} (hr : rowOf k = some r) (hk : 0xF000 ≤ k / 256) : r.acc = .ro ∧ r.ty.size ≤ 8 := by
  have rows : ∀ r ∈ pageF0, r.acc = .ro ∧ r.ty.size ≤ 8 := by decide
  exact rows r (mem_pageOf_vendor (by omega) (List.mem_of_find?_eq_some hr))

/-! ### An RO object takes no value -/

theorem writeRight_ro (s : State) {r : Row} (hro : r.acc = .ro) : s.writeRight r = some .accessDenied := by
  simp [State.writeRight, hro]

/-- A range that arrives at an RO object is refused, and with it the object's staging copy is gone. -/
theorem writeBytes_ro {p : Path} {k off : Nat} {data : List Byte} {r : Row} (hr : rowOf k = some r) (hro : r.acc = .ro) (s : State) :
    writeBytes p k off data s = (s.dropStaging k, .accessDenied) := by
  simp [writeBytes, hr, writeRight_ro s hro]

theorem windowPut_ro {k off : Nat} {data : List Byte} {r : Row} (hr : rowOf k = some r) (hro : r.acc = .ro) (s : State) :
    windowPut k off data s = (s, .accessDenied) := by
  simp [windowPut, hr, writeRight_ro s hro]

/-! ### The mailbox and KDP -/

theorem reports_atMailbox {s0 s : State} {p : Path} (h : Reports s0 s) : Reports s0 (s.atMailbox p) := by
  unfold State.atMailbox
  split
  · exact changes_wr (by decide) h
  · exact h

/-- Reports and a new set of staging copies: the copies apart, only reports. -/
theorem reports_staging {s u : State} {m : NMap (List Byte)} (h : Reports s u) :
    Reports { s with svc := { s.svc with staging := m } } { u with svc := { u.svc with staging := m } } :=
  { h with rd := h.rd, svc := by rw [h.svc] }

/-- The end of an access leaves the staging copies alone. -/
theorem staging_finish (s : State) (p : Path) (k bytes : Nat) (st : Status) : (s.finish p k bytes st).svc.staging = s.svc.staging := by
  rw [(reports_finish (.refl _ s)).svc]

/-- A range that arrives at an RO object by the mailbox or KDP ends with ACCESS_DENIED. -/
theorem objectWrite_ro {s : State} {p : Path} {k off : Nat} {data : List Byte} {r : Row} (hg : s.gate p k = .pass)
    (hr : rowOf k = some r) (hro : r.acc = .ro) :
    s.objectWrite p k off data = (((s.atMailbox p).linked k).dropStaging k).finish p k data.length .accessDenied := by
  simp [State.objectWrite, hg, writeBytes_ro hr hro]

/-! ### The window -/

/-- The halves that the window has in hand are no more than reports. -/
theorem reports_halves {s0 s : State} {a b : Option (Nat × Nat)} (h : Reports s0 s) :
    Reports s0 { s with svc := { s.svc with stage := a, capture := b } } :=
  { h with rd := h.rd, svc := by rw [h.svc] }

@[simp] theorem withReset_reset (s : State) (r : Option ResetLevel) : (s.withReset r).svc.reset = r := rfl

/-- Once a window write asked for no reset, the reset that waited before it waits again. -/
theorem withReset_dropHalves (s : State) : (s.dropHalves.withReset none).withReset s.svc.reset = s.dropHalves := by
  unfold State.dropHalves
  split <;> rfl

/-- A window write whose object refuses it ends with that status and changes nothing but the reports. -/
theorem accessReset_refused {s : State} {k : Nat} {data : List Byte} {f : State → State × Status} {st : Status}
    (hg : s.gate .window k = .pass) (hf : ∀ t, f t = (t, st)) :
    Reports s (accessReset .window k data f s) ∧ (accessReset .window k data f s).ended .window k st := by
  have e : accessReset .window k data f s = s.dropHalves.finish .window k data.length st := by
    simp [accessReset, hg, hf, withReset_dropHalves]
  rw [e]
  exact ⟨reports_finish (reports_dropHalves (.refl _ s)), ended_finish _ _ _ _ _⟩

/-- An aligned window write that the gates let pass begins anew, or is the upper half that commits the staged one. -/
theorem windowStore_pass {s : State} {k off : Nat} {data : List Byte} (hg : s.gate .window k = .pass) (ha : aligned off data.length = true) :
    s.windowStore k off data = s.windowFirst k off data ∨
    ∃ low, off = 4 ∧ s.windowStore k off data = accessReset .window k data (windowPut k 0 (leBytes 4 low ++ data))
      { s with svc := { s.svc with stage := none, capture := none } } := by
  simp only [State.windowStore, ha, hg, Bool.not_true, Bool.and_false, Bool.false_eq_true, reduceCtorEq, if_false]
  split
  · split
    · rename_i low _ h
      simp only [Bool.and_eq_true, decide_eq_true_eq] at h
      exact .inr ⟨low, h.1, rfl⟩
    · exact .inl rfl
  · exact .inl rfl

/-- The lower half of a longer object is staged. -/
theorem windowFirst_lower {s : State} {k : Nat} {data : List Byte} (hk : halves k = true) (hl : data.length = 4) :
    s.windowFirst k 0 data = { s.dropHalves with svc := { s.dropHalves.svc with stage := some (k, leNat data) } } := by
  simp [State.windowFirst, hk, hl]

theorem windowFirst_whole {s : State} {k off : Nat} {data : List Byte} (h : halves k = true → off = 0 → data.length ≠ 4) :
    s.windowFirst k off data = accessReset .window k data (windowPut k off data) s := by
  unfold State.windowFirst
  rw [if_neg]
  simpa using h

/-- A window write that reaches an RO object, and does not stage a lower half, ends with ACCESS_DENIED. -/
theorem windowStore_ro {s : State} {k off : Nat} {data : List Byte} {r : Row} (hg : s.gate .window k = .pass)
    (ha : aligned off data.length = true) (hr : rowOf k = some r) (hro : r.acc = .ro)
    (h : halves k = true → off = 0 → data.length ≠ 4) :
    Reports s (s.windowStore k off data) ∧ (s.windowStore k off data).ended .window k .accessDenied := by
  rcases windowStore_pass hg ha with e | ⟨low, -, e⟩ <;> rw [e]
  · rw [windowFirst_whole h]
    exact accessReset_refused hg (windowPut_ro hr hro)
  · have d := accessReset_refused (s := { s with svc := { s.svc with stage := none, capture := none } }) (data := data) hg
      (windowPut_ro (off := 0) (data := leBytes 4 low ++ data) hr hro)
    exact ⟨(reports_halves (.refl _ s)).trans d.1, d.2⟩

/-- The staging of a lower half is no more than a report. -/
theorem windowStore_lower {s : State} {k : Nat} {data : List Byte} (hg : s.gate .window k = .pass) (hk : halves k = true)
    (hl : data.length = 4) : Reports s (s.windowStore k 0 data) := by
  rcases windowStore_pass (off := 0) hg (by rw [hl]; rfl) with e | ⟨-, h, -⟩
  · rw [e, windowFirst_lower hk hl]
    exact reports_halves (reports_dropHalves (.refl _ s))
  · exact absurd h (by decide)

theorem halves_iff {k : Nat} {r : Row} (hr : rowOf k = some r) : halves k = true ↔ 4 < r.ty.size ∧ r.ty.size ≤ 8 := by
  simp [halves, hr]

/-! ### The statement -/

theorem exec_objectWrite_window (index sub off : Nat) (data : List Byte) (s : State) :
    exec (.objectWrite .window index sub off data) s = .next (s.windowStore (objKey index sub) off data) := rfl

theorem exec_objectWrite_ne_window {p : Path} (hp : p ≠ .window) (index sub off : Nat) (data : List Byte) (s : State) :
    exec (.objectWrite p index sub off data) s = .next (s.objectWrite p (objKey index sub) off data) := if_neg hp

theorem exec_windowHalfWrite (upper : Bool) (index sub : Nat) (half : BitVec 32) (s : State) :
    exec (.windowHalfWrite upper index sub half) s =
      .next (s.windowStore (objKey index sub) (if upper then 4 else 0) (leBytes 4 half.toNat)) := rfl

/-- Settles O59: the row of every such object is RO, so that what the gates let pass ends with ACCESS_DENIED; only a lower half in the
window is staged before the object answers. -/
theorem vendorObjectsAreReadOnly : Obligations.VendorObjectsAreReadOnly := by
  intro s p index sub r hg hr hk
  obtain ⟨hro, hsize⟩ := rowOf_vendor hr hk
  refine ⟨fun hp offset data => ⟨_, exec_objectWrite_ne_window hp .., ?_⟩, ?_⟩
  · rw [objectWrite_ro hg hr hro]
    refine ⟨?_, ended_finish _ _ _ _ _⟩
    rw [staging_finish]
    exact reports_finish (reports_staging (reports_linked (reports_atMailbox (.refl _ s))))
  · rintro rfl
    refine ⟨fun data hl => ⟨_, exec_objectWrite_window .., ?whole⟩, fun half => ⟨_, exec_windowHalfWrite .., ?upper⟩,
      fun half => ⟨fun h4 => ⟨_, exec_windowHalfWrite .., ?short⟩, fun h4 => ⟨_, exec_windowHalfWrite .., ?lower⟩⟩⟩
    case whole => exact windowStore_ro hg (by rw [hl]; rfl) hr hro (by omega)
    case upper => exact windowStore_ro hg rfl hr hro (by simp)
    case short => exact windowStore_ro hg rfl hr hro fun hh => absurd ((halves_iff hr).mp hh).1 (by omega)
    case lower => exact windowStore_lower hg ((halves_iff hr).mpr ⟨h4, hsize⟩) rfl

end Sys2Proof.Machine
end

section
/-! PROOF. The host endpoint (chapter 04): four statements whose clauses hold too much of the objects fixed. When requests go on, the statuses
that a ring owes are written (R126) and so are the event records that a ring holds back (R123). Each moves the head of the ring that it names,
and a state may owe a status where a statement does not exclude it, or hold back a record that names another ring than the one that holds it. -/

namespace Sys2Proof.Machine

/-- A command has one outcome: what its completion promises is true of the state that it leaves. -/
theorem Completes.holds {c : Instr} {s t : State} {P : State → Prop} (h : Completes c s P) (he : exec c s = .next t) : P t := by
  obtain ⟨u, hu, hP⟩ := h
  cases hu.symm.trans he
  exact hP

theorem Completes.mono {c : Instr} {s : State} {P Q : State → Prop} (h : Completes c s P) (hPQ : ∀ t, P t → Q t) : Completes c s Q := by
  obtain ⟨t, he, hP⟩ := h
  exact ⟨t, he, hPQ t hP⟩

/-! ### A status that a ring owes -/

/-- The host link trains, with its PLL locked and Bus Master Enable set, and DMA ring 0, ARMED, still owes the status of one descriptor. -/
def owesStatus : State :=
  { objs := [(O.pcieLinkState, 1), (O.pciePllLock, 1), (O.dringState 0, RING_ARMED)]
    host := { bme := true, drings := [(0, { owing := [{ slot := 0, desc := unknownDesc }] })] } }

/-- Once the link is up, the ring writes the status that it owes and its head moves on (R113, R126). -/
theorem pcieLinkUp_moves_dringHead : ∃ t, exec (.pcieLinkUp 1 1 false) owesStatus = .next t ∧
    owesStatus.rd (O.dringHead 0) = 0 ∧ t.rd (O.dringHead 0) = 1 := ⟨_, rfl, by decide +kernel⟩

/-- Refutes O18: its clause of PCIE_LINK_UP lets only four objects of the link change, whatever the rings owe. In `owesStatus` the link-up lets
ring 0 write the status that it owes, so that DRING_HEAD changes too. O20 and O21 suppose that no ring owes a status; O18 does not. -/
theorem not_hostLinkTrainsAndFalls : ¬ Obligations.HostLinkTrainsAndFalls := by
  intro h
  obtain ⟨-, -, hup, -⟩ := h owesStatus
  obtain ⟨t, he, h0, h1⟩ := pcieLinkUp_moves_dringHead
  obtain ⟨-, -, -, -, honly⟩ := ((hup 1 1 false).1 (by decide) (by decide)).holds he
  have hsame : t.rd (O.dringHead 0) = owesStatus.rd (O.dringHead 0) := honly _ (by decide) (by decide)
  omega

/-! ### A record that names another ring -/

/-- A record that names ring 0x1F00, which does not exist. -/
def strayRecord : EvRec :=
  { type := 0, func := 0, severity := 0, overflow := false, seq := 0, time := 0, arg0 := 0, arg1 := 0, arg2 := 0, ring := 0x1F00, phase := true }

/-- HOST runs, the link is up with Bus Master Enable set, DMA ring 0 is HALTED, and event ring 0, which is enabled, holds back `strayRecord`. -/
def holdsStray : State :=
  { objs := [(O.state .host, RUNNING), (O.ringEnable 0, 1), (O.pcieLinkState, 2), (O.dringState 0, RING_HALTED)]
    host := { bme := true, rings := [(0, { waiting := [strayRecord] })] } }

/-- The key at which RING_HEAD of ring 0x1F00 would stand is that of DRING_KIND of DMA ring 0. -/
theorem ringHead_strayRecord : O.ringHead strayRecord.ring = O.dringKind 0 := rfl

theorem owing_holdsStray (m : Nat) : (holdsStray.dring m).owing = [] := rfl

/-- The command writes the record that `holdsStray` holds back, which moves the head of the ring that the record names. -/
def WritesStray (c : Instr) : Prop :=
  ∃ t, exec c holdsStray = .next t ∧
    holdsStray.rd (O.ringHead strayRecord.ring) = 0 ∧ t.rd (O.ringHead strayRecord.ring) = 1

/-- A command that writes the record changes DRING_KIND of DMA ring 0, which is no report: other objects than it are not all that changes. -/
theorem WritesStray.not_onlyObjects {c : Instr} {ks : List Nat} (hw : WritesStray c) (hks : O.dringKind 0 ∉ ks) :
    ¬ Completes c holdsStray (OnlyObjects ks holdsStray) := by
  intro h
  obtain ⟨t, he, h0, h1⟩ := hw
  rw [ringHead_strayRecord] at h0 h1
  have hsame : t.rd (O.dringKind 0) = holdsStray.rd (O.dringKind 0) := h.holds he _ (by decide) hks
  omega

theorem writesStray_atsEnableClear : WritesStray .atsEnableClear := ⟨_, rfl, by decide +kernel⟩

theorem writesStray_doorbell : WritesStray (.doorbell 16 0) := ⟨_, rfl, by decide +kernel⟩

theorem writesStray_quarantineExpiry : WritesStray (.quarantineExpiry 0) := ⟨_, rfl, by decide +kernel⟩

/-- Refutes O19: where no ring owes a status, its clause of ATS_ENABLE_CLEAR lets only ATS_CACHE_USED change; but with translations no longer
used the record that `holdsStray` holds back is written, and its number of a ring, which nothing bounds, names the object that changes. The
statement lacks the hypothesis that a record held back names its own ring, as the records that `State.raiseNow` makes do. -/
theorem not_endpointControls : ¬ Obligations.EndpointControls := by
  intro h
  obtain ⟨-, -, -, -, -, -, -, -, -, hats, -⟩ := h holdsStray
  exact writesStray_atsEnableClear.not_onlyObjects (by decide)
    ((hats rfl).mono fun _ ⟨_, _, _, honly⟩ => honly fun m _ => owing_holdsStray m)

/-- Refutes O20: its clause of a doorbell of DMA ring 16 to 63 lets only DRING_TAIL change; but the requests that go on after it write the record
that `holdsStray` holds back. As O19, it lacks the hypothesis that a record held back names its own ring. -/
theorem not_ringsAndDoorbells : ¬ Obligations.RingsAndDoorbells := by
  intro h
  obtain ⟨-, -, hdoorbell, -⟩ := h holdsStray fun m _ => owing_holdsStray m
  obtain ⟨-, -, htail, -⟩ := (hdoorbell 16 0).1 (by decide) (by decide)
  exact writesStray_doorbell.not_onlyObjects (by decide)
    ((htail (by decide) (by decide) (by decide)).mono fun _ ⟨_, _, honly⟩ => honly)

/-- Refutes O21: its clause of QUARANTINE_EXPIRY lets only QUARANTINED_TAGS change; but the requests that go on once a tag is free write the
record that `holdsStray` holds back. As O19, it lacks the hypothesis that a record held back names its own ring. -/
theorem not_descriptorsReadsAndTranslations : ¬ Obligations.DescriptorsReadsAndTranslations := by
  intro h
  obtain ⟨-, -, -, hreads, -⟩ := h holdsStray fun m _ => owing_holdsStray m
  obtain ⟨-, -, -, hexpiry⟩ := hreads 0 .success [] false
  exact writesStray_quarantineExpiry.not_onlyObjects (by decide) (hexpiry.mono fun _ ⟨_, _, honly⟩ => honly)

end Sys2Proof.Machine
end

section
/-! PROOF. OTN framing (chapter 06): what bringing a group up to date leaves alone. Whatever happens to a group ends with it, and it may move the
port of the group, whose number is whatever GROUP_PORT holds; the objects that the statements speak of are none of those that it writes. -/

namespace Sys2Proof.Machine

/-! ### Groups, slices and pages under the shared operations -/

@[simp] theorem grp_wr (s : State) (k v h : Nat) : (s.wr k v).grp h = s.grp h := rfl

@[simp] theorem grp_add (s : State) (k n h : Nat) : (s.add k n).grp h = s.grp h := rfl

@[simp] theorem grp_inc (s : State) (k h : Nat) : (s.inc k).grp h = s.grp h := rfl

@[simp] theorem grp_updClient (s : State) (q : Nat) (f : OtnClient → OtnClient) (h : Nat) : (s.updClient q f).grp h = s.grp h := rfl

@[simp] theorem grp_updGrp_self (s : State) (g : Nat) (f : OtnGroup → OtnGroup) : (s.updGrp g f).grp g = f (s.grp g) :=
  mget_mupd_self ..

theorem grp_updGrp_ne (s : State) {g h : Nat} (f : OtnGroup → OtnGroup) (hne : g ≠ h) : (s.updGrp g f).grp h = s.grp h :=
  mget_mupd_ne _ _ _ hne

/-- What a change of a slice makes of its group. -/
@[simp] theorem grp_updSlice_self (s : State) (g i : Nat) (f : OtnSlice → OtnSlice) :
    (s.updSlice g i f).grp g = { s.grp g with slices := mupd (s.grp g).slices {} i f } := grp_updGrp_self ..

theorem grp_updSlice_ne (s : State) {g h : Nat} (i : Nat) (f : OtnSlice → OtnSlice) (hne : g ≠ h) :
    (s.updSlice g i f).grp h = s.grp h := grp_updGrp_ne _ _ hne

theorem slice_updSlice_self (s : State) (g i : Nat) (f : OtnSlice → OtnSlice) :
    ((s.updSlice g i f).grp g).slice i = f ((s.grp g).slice i) := by
  simp [OtnGroup.slice]

@[simp] theorem rd_updSlice (s : State) (g i : Nat) (f : OtnSlice → OtnSlice) (k : Nat) : (s.updSlice g i f).rd k = s.rd k := rfl

/-- A frame period that begins touches no slice. -/
@[simp] theorem slices_beginRow (x : OtnGroup) (i : Nat) : (x.beginRow i).slices = x.slices := by
  unfold OtnGroup.beginRow
  split <;> rfl

/-- Where the frame in hand has not had the slice's period, it has one more. -/
theorem length_rows_beginRow {x : OtnGroup} {i : Nat} (h : i ∉ x.rows) : (x.beginRow i).rows.length = x.rows.length + 1 := by
  unfold OtnGroup.beginRow
  split
  case isTrue hb =>
    have he : x.rows = [] := by simpa [h] using hb
    simp [he]
  case isFalse => simp

/-! ### What bringing a group up to date leaves alone -/

/-- A slice but for its age, which counts until its group is aligned. -/
def OtnSlice.ageless (y : OtnSlice) : OtnSlice := { y with age := 0 }

/-- The objects of which bringing a group up to date writes some, beside those of a record: by subindex, those of the state of a port (R148), and
RX_STATE, DEFECTS and HUNT_CANDIDATES of a group (R188). -/
def followKey (k : Nat) : Bool :=
  recordKey k || k % 256 == 1 || k % 256 == 2 || k % 256 == 3 ||
    (decide (k / 256 < 0x480C) && (k % 256 == 7 || k % 256 == 8 || k % 256 == 0xE))

/-- `t` is `s` but for what bringing groups up to date may write: neither another object nor a page. -/
structure Followed (s t : State) : Prop where
  rd      : ∀ k, followKey k = false → t.rd k = s.rd k
  active  : t.otn.active = s.otn.active
  standby : t.otn.standby = s.otn.standby

/-- `t` is `s` but for what bringing group `g` up to date may write: nothing of another group, and of this one `aligned` and the ages of its
slices only. -/
structure FollowedIn (g : Nat) (s t : State) : Prop extends Followed s t where
  count : t.groupN g = s.groupN g
  other : ∀ h, h ≠ g → t.grp h = s.grp h
  own   : t.grp g = { s.grp g with aligned := (t.grp g).aligned, slices := (t.grp g).slices }
  slice : ∀ i, ((t.grp g).slice i).ageless = ((s.grp g).slice i).ageless

theorem Followed.refl (s : State) : Followed s s := ⟨fun _ _ => rfl, rfl, rfl⟩

theorem Followed.trans {s t u : State} (h : Followed s t) (k : Followed t u) : Followed s u :=
  ⟨fun j hj => (k.rd j hj).trans (h.rd j hj), k.active.trans h.active, k.standby.trans h.standby⟩

theorem FollowedIn.refl (g : Nat) (s : State) : FollowedIn g s s := ⟨.refl s, rfl, fun _ _ => rfl, rfl, fun _ => rfl⟩

theorem FollowedIn.trans {g : Nat} {s t u : State} (h : FollowedIn g s t) (k : FollowedIn g t u) : FollowedIn g s u where
  toFollowed := h.toFollowed.trans k.toFollowed
  count := k.count.trans h.count
  other j hj := (k.other j hj).trans (h.other j hj)
  own := by rw [k.own, h.own]
  slice i := (k.slice i).trans (h.slice i)

/-- What leaves the groups and the pages alone, and of the objects writes only some of those. -/
theorem followedIn_of_groups {g : Nat} {s t : State} (hrd : ∀ k, followKey k = false → t.rd k = s.rd k)
    (ha : t.otn.active = s.otn.active) (hs : t.otn.standby = s.otn.standby) (hn : t.groupN g = s.groupN g)
    (hg : t.otn.groups = s.otn.groups) : FollowedIn g s t := by
  have e : ∀ h, t.grp h = s.grp h := fun h => by simp only [State.grp, hg]
  exact ⟨⟨hrd, ha, hs⟩, hn, fun h _ => e h, by rw [e], fun i => by rw [e]⟩

theorem recordKey_of_followKey {k : Nat} (h : followKey k = false) : recordKey k = false := by
  simp only [followKey, Bool.or_eq_false_iff] at h
  obtain ⟨⟨⟨⟨hrec, -⟩, -⟩, -⟩, -⟩ := h
  exact hrec

/-- The objects of the groups that a key of the pages can name are no reports. -/
theorem reportKey_group {g sub : Nat} (hg : g < 16) (hs : sub < 256) : reportKey (key (0x4800 + g) sub) = false := by
  refine reportKey_index ?_ ?_ ?_ <;> (simp only [key]; omega)

theorem recordKey_group {g sub : Nat} (hg : g < 12) (hs : sub < 256) : recordKey (key (0x4800 + g) sub) = false := by
  have h : reportKey (key (0x4800 + g) sub) = false := reportKey_group (by omega) hs
  simp only [reportKey, Bool.or_eq_false_iff] at h
  obtain ⟨⟨⟨hrec, -⟩, -⟩, -⟩ := h
  exact hrec

/-- The counters and the settings of a group are not among the objects that bringing it up to date writes. -/
theorem followKey_group {g sub : Nat} (hg : g < 12) (hs : sub < 256) (h : sub ∉ [1, 2, 3, 7, 8, 0xE]) :
    followKey (key (0x4800 + g) sub) = false := by
  have e : key (0x4800 + g) sub % 256 = sub := by simp only [key]; omega
  simp only [List.mem_cons, List.not_mem_nil, or_false, not_or] at h
  simp [followKey, recordKey_group hg hs, e, h]

section
variable {g : Nat} {s0 s : State}

theorem followedIn_changes {t : State} (hg : g < 12) (hc : Changes recordKey s t) : FollowedIn g s t :=
  followedIn_of_groups (fun k hk => hc.rd k (recordKey_of_followKey hk)) (by rw [hc.otn]) (by rw [hc.otn])
    (hc.rd _ (recordKey_group hg (by decide))) (by rw [hc.otn])

theorem followedIn_wr {k v : Nat} (hk : followKey k = true) (hn : k ≠ O.groupN g) (h : FollowedIn g s0 s) : FollowedIn g s0 (s.wr k v) :=
  h.trans (followedIn_of_groups (fun j hj => rd_wr_ne _ _ fun e => by rw [e, hj] at hk; exact absurd hk (by decide)) rfl rfl
    (rd_wr_ne _ _ hn) rfl)

theorem followedIn_line {l : LineSt} (h : FollowedIn g s0 s) : FollowedIn g s0 { s with line := l } :=
  h.trans (followedIn_of_groups (fun _ _ => rfl) rfl rfl rfl rfl)

theorem followedIn_updClient {q : Nat} {f : OtnClient → OtnClient} (h : FollowedIn g s0 s) : FollowedIn g s0 (s.updClient q f) :=
  h.trans (followedIn_of_groups (fun _ _ => rfl) rfl rfl rfl rfl)

theorem followedIn_foldl {α : Type} {l : List α} {f : State → α → State} (hf : ∀ t a, FollowedIn g s0 t → FollowedIn g s0 (f t a))
    (h : FollowedIn g s0 s) : FollowedIn g s0 (l.foldl f s) := by
  induction l generalizing s with
  | nil => exact h
  | cons a t ih => exact ih (hf s a h)

theorem followedIn_raise {r type func sev a0 a1 a2 : Nat} (hg : g < 12) (hr : r < 64) (h : FollowedIn g s0 s) :
    FollowedIn g s0 (s.raise r type func sev a0 a1 a2) := h.trans (followedIn_changes hg (records_raise hr (.refl _ s)))

/-- The group's state is noted: whether it is aligned. -/
theorem followedIn_aligned {a : Bool} (h : FollowedIn g s0 s) : FollowedIn g s0 (s.updGrp g fun x => { x with aligned := a }) :=
  h.trans ⟨⟨fun _ _ => rfl, rfl, rfl⟩, rfl, fun _ hj => grp_updGrp_ne _ _ hj.symm, by simp, fun i => by simp [OtnGroup.slice]⟩

/-- The ages of a group's slices end. -/
theorem slice_ages_zero (x : OtnGroup) (i : Nat) :
    ({ x with slices := x.slices.map fun e => (e.1, { e.2 with age := 0 }) } : OtnGroup).slice i = (x.slice i).ageless := by
  simp only [OtnGroup.slice, mget]
  induction x.slices with
  | nil => rfl
  | cons e m ih =>
    simp only [List.map_cons, mfind]
    split
    · rfl
    · exact ih

theorem followedIn_ages (h : FollowedIn g s0 s) :
    FollowedIn g s0 (s.updGrp g fun x => { x with slices := x.slices.map fun e => (e.1, { e.2 with age := 0 }) }) :=
  h.trans ⟨⟨fun _ _ => rfl, rfl, rfl⟩, rfl, fun _ hj => grp_updGrp_ne _ _ hj.symm, by simp,
    fun i => by rw [grp_updGrp_self, slice_ages_zero]; rfl⟩

/-! ### Ports and clients -/

theorem followKey_port (i : Nat) {sub : Nat} (h : sub = 1 ∨ sub = 2 ∨ sub = 3) : followKey (key i sub) = true := by
  have e : key i sub % 256 = sub := by simp only [key]; omega
  rcases h with rfl | rfl | rfl <;> simp [followKey, e]

theorem followedIn_setLink {p v : Nat} (hg : g < 12) (h : FollowedIn g s0 s) : FollowedIn g s0 (s.setLink p v) := by
  have hw : FollowedIn g s0 (s.wr (O.portLinkState p) v) :=
    followedIn_wr (followKey_port _ (.inl rfl)) (by simp only [O.portLinkState, O.groupN, key]; omega) h
  unfold State.setLink State.portReport
  dsimp only
  split
  · exact hw
  · split
    · exact followedIn_raise hg (by decide) hw
    · exact hw

/-- A port leaves UP whose LAST_DOWN_CAUSE is not the same object as GROUP_N of the group. -/
theorem followedIn_portDown {p cause state : Nat} (hg : g < 12) (hp : p ≠ 0x700 + g) (h : FollowedIn g s0 s) :
    FollowedIn g s0 (s.portDown p cause state) := by
  have hl : FollowedIn g s0 (s.setLink p state) := followedIn_setLink hg h
  unfold State.portDown State.holdDown State.reportDown
  dsimp only
  split
  · split
    · refine followedIn_raise hg (by decide) (followedIn_wr (followKey_port _ (.inr (.inl rfl))) ?_
        (followedIn_wr (followKey_port _ (.inr (.inr rfl))) ?_ hl)) <;>
        (simp only [O.portLinkDowns, O.lastDownCause, O.groupN, key]; omega)
    · exact followedIn_line hl
  · exact hl

theorem followedIn_portUp {p : Nat} (hg : g < 12) (h : FollowedIn g s0 s) : FollowedIn g s0 (s.portUp p) := by
  have hl : FollowedIn g s0 (s.setLink p 3) := followedIn_setLink hg h
  unfold State.portUp
  dsimp only
  split
  · exact followedIn_line hl
  · exact followedIn_raise hg (by decide) hl

theorem followedIn_clientFollow {q : Nat} (hg : g < 12) (h : FollowedIn g s0 s) : FollowedIn g s0 (s.clientFollow q) := by
  unfold State.clientFollow
  dsimp only
  split
  · exact h
  · exact followedIn_raise hg (by decide) (followedIn_updClient h)

theorem followedIn_clientObs {c : ClientObs} (hg : g < 12) (h : FollowedIn g s0 s) : FollowedIn g s0 (s.clientObs c) :=
  followedIn_clientFollow hg (followedIn_updClient h)

/-- Where the port of a group is UP, its state stands elsewhere than GROUP_PORT and GROUP_N of the group: LINK_STATE and GROUP_PORT would else be
one object, which holds both 3 and the number of the port. -/
theorem groupPort_ne_of_up (hu : s.rd (O.portLinkState (s.groupPort g)) = 3) : s.groupPort g ≠ 0x700 + g := by
  intro e
  have hk : O.portLinkState (s.groupPort g) = O.groupPort g := by
    rw [e]
    simp only [O.portLinkState, O.groupPort, key]
    omega
  rw [hk] at hu
  have : s.groupPort g = 3 := hu
  omega

/-- RX_STATE, DEFECTS or HUNT_CANDIDATES of the group is written. -/
theorem followedIn_group_wr {sub v : Nat} (hs : sub = 7 ∨ sub = 8 ∨ sub = 0xE) (hg : g < 12) (h : FollowedIn g s0 s) :
    FollowedIn g s0 (s.wr (key (0x4800 + g) sub) v) := by
  refine followedIn_wr ?_ (by simp only [O.groupN, key]; omega) h
  have e : key (0x4800 + g) sub % 256 = sub ∧ key (0x4800 + g) sub / 256 < 0x480C := by simp only [key]; omega
  rcases hs with rfl | rfl | rfl <;> simp [followKey, e.1, e.2]

/-- Bringing a group up to date changes what the relation admits, and nothing more (R169, R171, R172, R188, R190). -/
theorem followedIn_otnFollow {oof : Bool} (hg : g < 12) (s : State) : FollowedIn g s (s.otnFollow g oof) := by
  unfold State.otnFollow
  extract_lets old new s1 s2 was now s3 p age s4 s5 s6 s7 s8
  have h1 : FollowedIn g s s1 := followedIn_group_wr (.inr (.inl rfl)) hg (.refl g s)
  have h2 : FollowedIn g s s2 := by
    unfold s2
    split
    · exact h1
    · exact followedIn_raise hg (by decide) h1
  have h3 : FollowedIn g s s3 := followedIn_aligned h2
  have h5 : FollowedIn g s s5 := by
    unfold s5
    split
    · exact followedIn_raise hg (by decide) (followedIn_ages h3)
    · split
      · rename_i hdown
        simp only [Bool.and_eq_true, decide_eq_true_eq] at hdown
        exact followedIn_portDown hg (groupPort_ne_of_up hdown.2) h3
      · exact h3
  have h6 : FollowedIn g s s6 := by
    unfold s6
    split
    · exact followedIn_portUp hg h5
    · exact h5
  have h8 : FollowedIn g s s8 := followedIn_group_wr (.inr (.inr rfl)) hg (followedIn_group_wr (.inl rfl) hg h6)
  exact followedIn_foldl (fun _ _ => followedIn_clientFollow hg) h8

end

end Sys2Proof.Machine
end

section
/-! PROOF. OTN framing (R168 to R174): one frame period of one slice, the integrated defects and the seconds of SM_DEG. -/

namespace Sys2Proof.Machine

/-! ### One frame period of a slice (R168 to R174) -/

/-- The frame period of a slice has begun: the slice is in the frame in hand, and older. -/
def State.beginPeriod (s : State) (g i : Nat) : State := (s.updGrp g fun x => x.beginRow i).updSlice g i OtnSlice.older

section
variable {s : State} {g i : Nat} {o : OtucObs}

@[simp] theorem rd_beginPeriod (k : Nat) : (s.beginPeriod g i).rd k = s.rd k := rfl

theorem slice_beginPeriod : ((s.beginPeriod g i).grp g).slice i = ((s.grp g).slice i).older := by
  rw [State.beginPeriod, slice_updSlice_self]
  simp [OtnGroup.slice]

theorem rows_beginPeriod : ((s.beginPeriod g i).grp g).rows = ((s.grp g).beginRow i).rows := by
  simp [State.beginPeriod]

/-- While the slice hunts, the period hunts, and a find takes the MFAS (R168). -/
theorem otnFrame_hunting (h : ((s.grp g).slice i).hunting = true) :
    let r := ((s.grp g).slice i).older.noOverhead.hunt o.fas
    s.otnFrame g i o = ((s.beginPeriod g i).updSlice g i fun _ =>
      if r.1.hunting then r.1 else { r.1 with mfas := some (o.mfas % 256) }).add (O.candOverflows g) r.2 := by
  simp [State.otnFrame, State.beginPeriod, h]

/-- A slice in frame loses it without markers, or at the fifth bad FAS in a row (R169). -/
theorem otnFrame_lost (h : ((s.grp g).slice i).hunting = false)
    (hl : o.markers = false ∨ (o.fas32 = false ∧ 4 ≤ ((s.grp g).slice i).misses)) :
    s.otnFrame g i o = (s.beginPeriod g i).sliceOof g i := by
  rcases hl with hm | ⟨hf, h4⟩
  · simp [State.otnFrame, State.beginPeriod, h, hm]
  · simp [State.otnFrame, State.beginPeriod, h, hf, h4]

/-- A slice in frame that sees its markers and its FAS stays, and its overhead is read (R169, R173). -/
theorem otnFrame_held (h : ((s.grp g).slice i).hunting = false) (hm : o.markers = true) (hf : o.fas32 = true) :
    s.otnFrame g i o =
      ((s.beginPeriod g i).updSlice g i fun y => ({ y with misses := 0 } : OtnSlice).multi o.mfas).otnOverhead g i o := by
  simp [State.otnFrame, State.beginPeriod, h, hm, hf]

/-- The multiframe aligner keeps the frame, and holds the MFAS that it saw last (R170). -/
theorem multi_frame (y : OtnSlice) (m : Nat) :
    (y.multi m).hunting = y.hunting ∧ (y.multi m).misses = y.misses ∧ (y.multi m).mfas = some (m % 256) := by
  unfold OtnSlice.multi
  dsimp only
  split
  · exact ⟨rfl, rfl, rfl⟩
  · split
    · exact ⟨rfl, rfl, rfl⟩
    · split <;> exact ⟨rfl, rfl, rfl⟩

/-- The overhead of a frame but for its TTI: violations and returned violations are counted, and the slice and its group take what it says. -/
def State.takeOverhead (s : State) (g i : Nat) (o : OtucObs) : State :=
  let s := (s.add (O.smBipErrors g) o.smBip).add (O.smBeiCount g) (beiCount o.smBei)
  let s := (s.add (O.pmBipErrors g) o.pmBip).add (O.pmBeiCount g) (beiCount o.pmBei)
  let s := s.updSlice g i fun y =>
    { y with smBdi := o.smBdi, pmBdi := o.pmBdi, biae := o.smBei == 11, smBei := min o.smBip 8, pmBei := min o.pmBip 8 }
  s.updGrp g fun x =>
    { x with counted := x.counted || decide (0 < o.smBip), errored := if !x.counted && decide (0 < o.smBip) then x.errored + 1 else x.errored }

/-- A state that depends on a condition is that of one of the branches. -/
theorem eq_branch_of_ite (c : Prop) [Decidable c] (a b : State) : (if c then a else b) = a ∨ (if c then a else b) = b := by
  by_cases h : c
  · exact .inl (if_pos h)
  · exact .inr (if_neg h)

/-- Overhead is taken, and then at most a TTI: by the slice, and by RX_TTI where it is accepted (R174). -/
theorem otnOverhead_cases (s : State) (g i : Nat) (o : OtucObs) : s.otnOverhead g i o = s.takeOverhead g i o ∨
    ∃ t n, let u := (s.takeOverhead g i o).updSlice g i fun y => { y with tti := t, ttiRuns := n }
      s.otnOverhead g i o = u.wrB (O.rxTti g) t ∨ s.otnOverhead g i o = u := by
  unfold State.otnOverhead
  cases o.tti with
  | none => exact .inl rfl
  | some t => exact .inr ⟨fit t 64, _, eq_branch_of_ite ..⟩

/-- Overhead keeps the frame and the multiframe of its slice and the slices whose period has come, and takes SM BDI (R173). -/
theorem grp_otnOverhead (s : State) (g i : Nat) (o : OtucObs) : let x := (s.otnOverhead g i o).grp g
    x.rows = (s.grp g).rows ∧ (x.slice i).hunting = ((s.grp g).slice i).hunting ∧ (x.slice i).misses = ((s.grp g).slice i).misses ∧
    (x.slice i).mfas = ((s.grp g).slice i).mfas ∧ (x.slice i).smBdi = o.smBdi := by
  rcases otnOverhead_cases s g i o with e | ⟨t, n, e | e⟩ <;> rw [e] <;> simp [State.takeOverhead, State.wrB, OtnGroup.slice]

/-- Overhead is counted in the four counters of its group (R173), whose size stays. -/
theorem rd_otnOverhead (s : State) (g i : Nat) (o : OtucObs) : let t := s.otnOverhead g i o
    t.groupN g = s.groupN g ∧
    t.rd (O.smBipErrors g) = counted (tyOf (O.smBipErrors g)) (s.rd (O.smBipErrors g)) o.smBip ∧
    t.rd (O.pmBipErrors g) = counted (tyOf (O.pmBipErrors g)) (s.rd (O.pmBipErrors g)) o.pmBip ∧
    t.rd (O.smBeiCount g) = counted (tyOf (O.smBeiCount g)) (s.rd (O.smBeiCount g)) (beiCount o.smBei) ∧
    t.rd (O.pmBeiCount g) = counted (tyOf (O.pmBeiCount g)) (s.rd (O.pmBeiCount g)) (beiCount o.pmBei) := by
  rcases otnOverhead_cases s g i o with e | ⟨t, n, e | e⟩ <;> rw [e] <;> simp [State.takeOverhead, State.wrB, State.add, State.groupN, rd_wr]

/-- A slice that goes out of frame hunts, is out of multiframe, and is counted (R169). -/
theorem slice_sliceOof (s : State) (g i : Nat) :
    let y := ((s.sliceOof g i).grp g).slice i
    y.hunting = true ∧ y.inMulti = false := by
  simp [State.sliceOof, OtnGroup.slice, OtnSlice.oof, OtnSlice.noOverhead]

/-- A frame period in frame: the slice stays in frame with its MFAS, and its overhead is counted. -/
theorem otnFrame_reads (h : ((s.grp g).slice i).hunting = false) (hm : o.markers = true) (hf : o.fas32 = true) :
    let t := s.otnFrame g i o
    let y := (t.grp g).slice i
    (t.grp g).rows = ((s.grp g).beginRow i).rows ∧ t.groupN g = s.groupN g ∧
    (y.hunting = false ∧ y.misses = 0 ∧ y.mfas = some (o.mfas % 256) ∧ y.smBdi = o.smBdi) ∧
    t.rd (O.smBipErrors g) = counted (tyOf (O.smBipErrors g)) (s.rd (O.smBipErrors g)) o.smBip ∧
    t.rd (O.pmBipErrors g) = counted (tyOf (O.pmBipErrors g)) (s.rd (O.pmBipErrors g)) o.pmBip ∧
    t.rd (O.smBeiCount g) = counted (tyOf (O.smBeiCount g)) (s.rd (O.smBeiCount g)) (beiCount o.smBei) ∧
    t.rd (O.pmBeiCount g) = counted (tyOf (O.pmBeiCount g)) (s.rd (O.pmBeiCount g)) (beiCount o.pmBei) := by
  intro t y
  obtain ⟨v, hv, e⟩ : ∃ v, v = (s.beginPeriod g i).updSlice g i (fun y => ({ y with misses := 0 } : OtnSlice).multi o.mfas) ∧
      t = v.otnOverhead g i o := ⟨_, rfl, otnFrame_held h hm hf⟩
  have hvrows : (v.grp g).rows = ((s.grp g).beginRow i).rows := by rw [hv, grp_updSlice_self, ← rows_beginPeriod]
  have hvslice : (v.grp g).slice i = ({ ((s.grp g).slice i).older with misses := 0 } : OtnSlice).multi o.mfas := by
    rw [hv, slice_updSlice_self, slice_beginPeriod]
  have hvrd : ∀ k, v.rd k = s.rd k := fun k => by rw [hv, rd_updSlice, rd_beginPeriod]
  obtain ⟨hrows, hhunt, hmiss, hmfas, hbdi⟩ := grp_otnOverhead v g i o
  obtain ⟨hsize, hcount⟩ := rd_otnOverhead v g i o
  obtain ⟨ehunt, emiss, emfas⟩ := multi_frame { ((s.grp g).slice i).older with misses := 0 } o.mfas
  rw [← e, hvslice] at hhunt hmiss hmfas
  rw [← e, hvrows] at hrows
  simp only [← e, State.groupN, hvrd] at hsize hcount
  rw [← e] at hbdi
  exact ⟨hrows, hsize, ⟨(hhunt.trans ehunt).trans h, hmiss.trans emiss, hmfas.trans emfas, hbdi⟩, hcount⟩

/-! ### The end of a frame -/

@[simp] theorem rd_endRow (k : Nat) : (s.endRow g).rd k = s.rd k := by
  unfold State.endRow
  split <;> rfl

@[simp] theorem slices_endRow : ((s.endRow g).grp g).slices = (s.grp g).slices := by
  unfold State.endRow
  split <;> simp

theorem slice_endRow (j : Nat) : ((s.endRow g).grp g).slice j = ((s.grp g).slice j) := by
  simp [OtnGroup.slice]

/-- With the last slice's period the frame is complete, and its slices' MFAS are compared (R171). -/
theorem endRow_complete (h : s.groupN g ≤ (s.grp g).rows.length) : ((s.endRow g).grp g).rows = [] ∧
    ((s.endRow g).grp g).agree = !s.anySlice g fun y => y.mfas != ((s.grp g).slice 0).mfas || y.mfas.isNone := by
  have hn : ¬ (s.grp g).rows.length < s.groupN g := by omega
  simp [State.endRow, hn]

theorem anySlice_congr {t : State} {f f' : OtnSlice → Bool} (hn : t.groupN g = s.groupN g)
    (h : ∀ j, f' ((t.grp g).slice j) = f ((s.grp g).slice j)) : t.anySlice g f' = s.anySlice g f := by
  simp [State.anySlice, hn, h]

end

/-! ### The statement -/

/-- What a frame period starts from: the clients return the violations of the new frame only (R176). -/
def State.freshened (s : State) (g i : Nat) : State :=
  if (s.grp g).rows.isEmpty || (s.grp g).rows.contains i then s.freshBei g else s

section
variable {s : State} {g : Fin 12} {i : Fin 16}

theorem grp_foldl {α : Type} (l : List α) (f : State → α → State) (h : Nat) (hf : ∀ s a, (f s a).grp h = s.grp h) (s : State) :
    (l.foldl f s).grp h = s.grp h := by
  induction l generalizing s with
  | nil => rfl
  | cons a t ih => exact (ih _).trans (hf s a)

@[simp] theorem grp_freshened (s : State) (g i h : Nat) : (s.freshened g i).grp h = s.grp h := by
  unfold State.freshened State.freshBei
  split
  · refine grp_foldl _ _ _ (fun _ _ => ?_) s
    rfl
  · rfl

@[simp] theorem rd_freshened (s : State) (g i k : Nat) : (s.freshened g i).rd k = s.rd k := by
  unfold State.freshened State.freshBei
  split
  · refine rd_foldl _ _ _ (fun _ _ => ?_) s
    rfl
  · rfl

/-- A frame period that is received: what follows the frame of the slice is only the group brought up to date. -/
theorem completes_otucFramePeriod (hr : s.grpRuns g.val = true) (hi : i.val < s.groupN g.val) (hlos : (s.grp g.val).los = false)
    (hline : s.running .line = true) (o : OtucObs) (clients : List ClientObs) :
    Completes (.otucFramePeriod g i o clients) s
      (FollowedIn g.val (((s.freshened g.val i.val).otnFrame g.val i.val o).endRow g.val)) := by
  have he : exec (.otucFramePeriod g i o clients) s = execOtucFramePeriod g i o clients s := rfl
  unfold execOtucFramePeriod at he
  rw [if_neg (by simp [hr, hlos, hi]), if_pos hline] at he
  exact ⟨_, he, (followedIn_foldl (fun _ _ => followedIn_clientObs g.isLt) (.refl _ _)).trans (followedIn_otnFollow g.isLt _)⟩

/-- While LINE does not run the slice reads no overhead. -/
theorem completes_otucFramePeriod_ignored (hr : s.grpRuns g.val = true) (hi : i.val < s.groupN g.val) (hlos : (s.grp g.val).los = false)
    (hline : s.running .line = false) (o : OtucObs) (clients : List ClientObs) :
    Completes (.otucFramePeriod g i o clients) s (FollowedIn g.val (s.updSlice g.val i.val OtnSlice.noOverhead)) := by
  have he : exec (.otucFramePeriod g i o clients) s = execOtucFramePeriod g i o clients s := rfl
  unfold execOtucFramePeriod at he
  rw [if_neg (by simp [hr, hlos, hi]), if_neg (by simp [hline])] at he
  exact ⟨_, he, followedIn_otnFollow g.isLt _⟩

theorem completes_integratedDefectTimer (hr : s.grpRuns g.val = true) (hi : i.val < s.groupN g.val) (multiframe : Bool) :
    Completes (.integratedDefectTimer g i multiframe) s (FollowedIn g.val (s.updSlice g.val i.val fun y =>
      if multiframe then { y with lom := !y.inMulti } else { y with lof := y.hunting })) := by
  have he : exec (.integratedDefectTimer g i multiframe) s = execIntegratedDefectTimer g i multiframe s := rfl
  unfold execIntegratedDefectTimer at he
  rw [if_pos (by simp [hr, hi])] at he
  exact ⟨_, he, followedIn_otnFollow g.isLt _⟩

/-- The counts of SM_DEG after a second, under a threshold and a number of seconds (R174). -/
def OtnGroup.second (x : OtnGroup) (threshold seconds : Nat) : OtnGroup :=
  if threshold = 0 then { x with errored := 0, badSecs := 0, goodSecs := 0, smDeg := false }
  else
    let bad := if x.errored > threshold then x.badSecs + 1 else 0
    let good := if x.errored > threshold then 0 else x.goodSecs + 1
    { x with errored := 0, badSecs := bad, goodSecs := good,
             smDeg := if bad ≥ seconds then true else if good ≥ seconds then false else x.smDeg }

theorem completes_smDegSecond (hr : s.grpRuns g.val = true) :
    Completes (.smDegSecond g) s (FollowedIn g.val (s.updGrp g.val fun x =>
      x.second (s.rd (O.degThreshold g.val)) (s.rd (O.degSeconds g.val)))) := by
  have he : exec (.smDegSecond g) s = execSmDegSecond g s := rfl
  unfold execSmDegSecond at he
  rw [if_pos hr] at he
  exact ⟨_, he, followedIn_otnFollow g.isLt _⟩

theorem FollowedIn.smDeg {n : Nat} {u t : State} (h : FollowedIn n u t) : (t.grp n).smDeg = (u.grp n).smDeg ∧
    (t.grp n).errored = (u.grp n).errored ∧ (t.grp n).badSecs = (u.grp n).badSecs := by
  rw [h.own]
  exact ⟨rfl, rfl, rfl⟩

theorem FollowedIn.frame {n : Nat} {u t : State} (h : FollowedIn n u t) :
    (t.grp n).rows = (u.grp n).rows ∧ (t.grp n).agree = (u.grp n).agree := by
  rw [h.own]
  exact ⟨rfl, rfl⟩

/-- An object of a group that the group's state does not show. -/
theorem FollowedIn.rd_group {n : Nat} {u t : State} (h : FollowedIn n u t) (hn : n < 12) {sub : Nat}
    (hs : sub < 256 ∧ sub ∉ [1, 2, 3, 7, 8, 0xE]) : t.rd (key (0x4800 + n) sub) = u.rd (key (0x4800 + n) sub) :=
  h.rd _ (followKey_group hn hs.1 hs.2)

/-- What is compared of a slice by no age is the same. -/
theorem FollowedIn.field {α : Type} {n : Nat} {u t : State} (h : FollowedIn n u t) (f : OtnSlice → α) (hf : ∀ y, f y = f y.ageless)
    (j : Nat) : f ((t.grp n).slice j) = f ((u.grp n).slice j) := by
  rw [hf, h.slice j, ← hf]

/-- The same, where only the end of the slice's period comes between. -/
theorem FollowedIn.field_endRow {α : Type} {n : Nat} {u t : State} (h : FollowedIn n (u.endRow n) t) (f : OtnSlice → α)
    (hf : ∀ y, f y = f y.ageless) (j : Nat) : f ((t.grp n).slice j) = f ((u.grp n).slice j) :=
  (h.field f hf j).trans (congrArg f (slice_endRow j))

/-- A frame that its last slice completes (R171), with what follows. -/
theorem FollowedIn.complete {n : Nat} {u t : State} (h : FollowedIn n (u.endRow n) t) (hc : u.groupN n ≤ (u.grp n).rows.length) :
    (t.grp n).rows = [] ∧
    (t.grp n).agree = !t.anySlice n fun x => x.mfas != ((t.grp n).slice 0).mfas || x.mfas.isNone := by
  obtain ⟨hrows, hagree⟩ := h.frame
  obtain ⟨hempty, hsame⟩ := endRow_complete hc
  have hmfas : ∀ j, ((t.grp n).slice j).mfas = ((u.grp n).slice j).mfas := h.field_endRow (·.mfas) fun _ => rfl
  refine ⟨hrows.trans hempty, (hagree.trans hsame).trans (congrArg _ (anySlice_congr ?_ fun j => ?_).symm)⟩
  · exact h.count.trans (rd_endRow _)
  · rw [hmfas, hmfas]

end

/-- Settles O25: a frame period, a timer or a second changes the slice or the counts of its group as the rules say, and what follows only brings
the group up to date, which leaves these alone (`FollowedIn`). -/
theorem otnFramesAreAligned : Obligations.OtnFramesAreAligned := by
  intro s g i hr hi y
  have hn : (s.freshened g.val i.val).grp g.val = s.grp g.val := grp_freshened ..
  have hy : ((s.freshened g.val i.val).grp g.val).slice i.val = y := congrArg (·.slice i.val) hn
  refine ⟨fun o clients hlos hline => ⟨fun hh => ?hunting, fun hh hl => ?lost, fun hh hm hf => ?held⟩,
    fun o clients hlos hline => ?ignored, ?lof, ?lom, fun hz => ?off, fun hpos hbad => ?degraded⟩
  case hunting =>
    refine (completes_otucFramePeriod hr hi hlos hline o clients).mono fun t h => ?_
    rw [otnFrame_hunting (by rw [hy]; exact hh), hy] at h
    refine ⟨(h.slice i.val).trans (congrArg OtnSlice.ageless ?_), (h.rd_group g.isLt (by decide)).trans ?_⟩
    · rw [slice_endRow, grp_add, slice_updSlice_self]
    · rw [rd_endRow, rd_add_self, rd_updSlice, rd_beginPeriod, rd_freshened]
  case lost =>
    refine (completes_otucFramePeriod hr hi hlos hline o clients).mono fun t h => ?_
    rw [otnFrame_lost (by rw [hy]; exact hh) (by rw [hy]; exact hl)] at h
    obtain ⟨hout, hmulti⟩ := slice_sliceOof ((s.freshened g.val i.val).beginPeriod g.val i.val) g.val i.val
    refine ⟨(h.field_endRow (·.hunting) (fun _ => rfl) _).trans hout, (h.field_endRow (·.inMulti) (fun _ => rfl) _).trans hmulti,
      (h.rd_group g.isLt (by decide)).trans ?_⟩
    rw [rd_endRow, State.sliceOof, rd_inc_self, rd_updSlice, rd_beginPeriod, rd_freshened]
  case held =>
    refine (completes_otucFramePeriod hr hi hlos hline o clients).mono fun t h => ?_
    obtain ⟨hrows, hsize, ⟨hhunt, hmiss, hmfas, hbdi⟩, hcount⟩ :=
      otnFrame_reads (s := s.freshened g.val i.val) (o := o) (by rw [hy]; exact hh) hm hf
    rw [hn] at hrows
    simp only [State.groupN, rd_freshened] at hsize hcount
    obtain ⟨hsm, hpm, hsmBei, hpmBei⟩ := hcount
    generalize (s.freshened g.val i.val).otnFrame g.val i.val o = u at *
    have hrd : ∀ {sub : Nat}, sub < 256 ∧ sub ∉ [1, 2, 3, 7, 8, 0xE] → t.rd (key (0x4800 + g.val) sub) = u.rd (key (0x4800 + g.val) sub) :=
      fun hsub => (h.rd_group g.isLt hsub).trans (rd_endRow _)
    refine ⟨(h.field_endRow (·.hunting) (fun _ => rfl) _).trans hhunt, (h.field_endRow (·.misses) (fun _ => rfl) _).trans hmiss,
      (h.field_endRow (·.smBdi) (fun _ => rfl) _).trans hbdi, (h.field_endRow (·.mfas) (fun _ => rfl) _).trans hmfas,
      (hrd (by decide)).trans hsm, (hrd (by decide)).trans hpm, (hrd (by decide)).trans hsmBei, (hrd (by decide)).trans hpmBei,
      fun hnot hlast => ?_⟩
    refine h.complete ?_
    rw [hrows, length_rows_beginRow hnot]
    exact Nat.le_trans (Nat.le_of_eq hsize) hlast
  case ignored =>
    refine (completes_otucFramePeriod_ignored hr hi hlos hline o clients).mono fun t h =>
      ⟨?_, h.rd_group g.isLt (by decide), h.rd_group g.isLt (by decide)⟩
    exact (h.slice i.val).trans (congrArg OtnSlice.ageless (slice_updSlice_self ..))
  case lof =>
    refine (completes_integratedDefectTimer hr hi false).mono fun t h => ⟨?_, fun j hj => (h.other j hj).trans (grp_updSlice_ne _ _ _ hj.symm)⟩
    rw [h.field (·.lof) fun _ => rfl, slice_updSlice_self]
    rfl
  case lom =>
    refine (completes_integratedDefectTimer hr hi true).mono fun t h => ⟨?_, fun j hj => (h.other j hj).trans (grp_updSlice_ne _ _ _ hj.symm)⟩
    rw [h.field (·.lom) fun _ => rfl, slice_updSlice_self]
    rfl
  case off =>
    refine (completes_smDegSecond hr).mono fun t h => ?_
    obtain ⟨hdeg, herr, -⟩ := h.smDeg
    rw [hdeg, herr, grp_updGrp_self]
    simp [OtnGroup.second, hz]
  case degraded =>
    refine (completes_smDegSecond hr).mono fun t h => ?_
    obtain ⟨hdeg, herr, hsecs⟩ := h.smDeg
    rw [hdeg, herr, hsecs, grp_updGrp_self]
    have hz : s.rd (O.degThreshold g.val) ≠ 0 := by omega
    simp +contextual [OtnGroup.second, hz, hbad]

end Sys2Proof.Machine
end

section
/-! PROOF. The time-slot interchange (R179 to R184): the commands on its pages, the swap and the records of a ring. -/

namespace Sys2Proof.Machine

/-! ### What reports leave alone -/

section
variable {s t : State}

theorem Changes.only {ks : List Nat} (h : Reports s t) : Only ks s t := h.mono fun _ hk => (Bool.or_eq_false_iff.mp hk).1

theorem Changes.onlyObjects {ks : List Nat} (h : Only ks s t) : OnlyObjects ks s t := fun k hk hn => h.rd k (by simp [hk, hn])

theorem only_wr {ks : List Nat} {k v : Nat} (hk : k ∈ ks) (h : Only ks s t) : Only ks s (t.wr k v) := changes_wr (by simp [hk]) h

theorem fnState_otn_reports (h : Reports s t) : t.fnState .otn = s.fnState .otn := h.rd _ (by decide)

theorem running_otn_reports (h : Reports s t) : t.running .otn = s.running .otn := by
  unfold State.running
  rw [fnState_otn_reports h]

theorem tsiPending_reports (h : Reports s t) : t.tsiPending = s.tsiPending := by
  unfold State.tsiPending
  rw [h.rd O.tsiSwapState (by decide)]

theorem portExists_reports (h : Reports s t) (p : Nat) : t.portExists p = s.portExists p := by
  unfold State.portExists
  by_cases hp : p < 96
  · have e : t.modeOf p = s.modeOf p := h.rd _ (by
      refine reportKey_index ?_ ?_ ?_ <;> (simp only [O.pairMode, key]; omega))
    rw [e]
  · simp [hp]

theorem subportPort_reports (h : Reports s t) (q : Nat) : t.subportPort q = s.subportPort q := by
  simp only [State.subportPort, portExists_reports h, h.line]

theorem group_reports (h : Reports s t) {g : Nat} (hg : g < 16) : t.groupN g = s.groupN g ∧ t.groupPort g = s.groupPort g :=
  ⟨h.rd _ (reportKey_group hg (by decide)), h.rd _ (reportKey_group hg (by decide))⟩

theorem inForceNow_reports (h : Reports s t) {g : Nat} (hg : g < 16) : t.inForceNow g = s.inForceNow g := by
  simp only [State.inForceNow, State.grp, h.otn, (group_reports h hg).1]

theorem tsiEntryGood_reports (h : Reports s t) (page : NMap Nat) (k d : Nat) :
    t.tsiEntryGood page t.inForceNow k d = s.tsiEntryGood page s.inForceNow k d := by
  have hb : ∀ n, bits n 12 9 < 16 := fun n => Nat.mod_lt _ (by decide)
  unfold State.tsiEntryGood
  simp only [inForceNow_reports h (hb _), (group_reports h (hb _)).1, (group_reports h (hb _)).2, subportPort_reports h]

/-- Reports change nothing of what R181 asks of a page. -/
theorem tsiFirstBad_reports (h : Reports s t) (page : NMap Nat) :
    t.tsiFirstBad page t.inForceNow = s.tsiFirstBad page s.inForceNow := by
  unfold State.tsiFirstBad
  simp only [tsiEntryGood_reports h]

end

/-! ### A command on the pages (R183) -/

section
variable {s : State} {p : Path} {c : Instr} {d : List Byte} {f : State → State × Status}

/-- A command on the pages that the gates let pass: `f` runs on a state that only reports tell from `s`, TSI_RESULT takes its status, and what
follows only reports and says how the access ended. -/
theorem completes_tsiCmd {st : Status} {P : State → Prop} (he : exec c s = .next (access p O.tsiCmd d (tsiCmd f) s))
    (hg : s.gate p O.tsiCmd = .pass) (hen : s.fnState .otn ≠ DISABLED)
    (hP : ∀ t, Reports s t → ∃ v, f t = (v, st) ∧ ∀ u, Reports (v.wrSt O.tsiResult st) u → P u) :
    Completes c s fun u => P u ∧ u.ended p O.tsiCmd st := by
  refine completes_access he hg fun t ht u hu hend => ?_
  obtain ⟨v, hv, hPu⟩ := hP t ht
  have e : tsiCmd f t = (v.wrSt O.tsiResult st, st) := by simp [tsiCmd, fnState_otn_reports ht, hen, hv]
  rw [e] at hu hend
  exact ⟨hPu u hu, hend⟩

/-- While OTN is DISABLED the status is FUNCTION_DISABLED. -/
theorem completes_tsiCmd_disabled (he : exec c s = .next (access p O.tsiCmd d (tsiCmd f) s))
    (hg : s.gate p O.tsiCmd = .pass) (hen : s.fnState .otn = DISABLED) :
    Completes c s fun u => u.rd O.tsiResult = Status.functionDisabled.code ∧ u.ended p O.tsiCmd .functionDisabled ∧
      Only [O.tsiResult] s u := by
  refine completes_access he hg fun t ht u hu hend => ?_
  have e : tsiCmd f t = (t.wrSt O.tsiResult .functionDisabled, .functionDisabled) := by simp [tsiCmd, fnState_otn_reports ht, hen]
  rw [e] at hu hend
  exact ⟨(hu.rd _ (by decide)).trans (rd_wrSt_self ..), hend, (only_wr (by simp) ht.only).trans hu.only⟩

/-- A command that only changes objects: those, TSI_RESULT and the reports are all that differs. -/
theorem tsi_objects {ks : List Nat} {st : Status} {v u : State} (hv : Only (O.tsiResult :: ks) s v)
    (hu : Reports (v.wrSt O.tsiResult st) u) : u.rd O.tsiResult = st.code ∧ Only (O.tsiResult :: ks) s u :=
  ⟨(hu.rd _ (by decide)).trans (rd_wrSt_self ..), (only_wr (by simp) hv).trans hu.only⟩

/-- A command that changes the pages: of the objects TSI_RESULT and the reports are all that differs. -/
theorem tsi_pages {o : OtnSt} {st : Status} {t u : State} (ht : Reports s t) (hu : Reports (({ t with otn := o } : State).wrSt O.tsiResult st) u) :
    u.rd O.tsiResult = st.code ∧ u.otn = o ∧ OnlyObjects [O.tsiResult] s u := by
  refine ⟨(hu.rd _ (by decide)).trans (rd_wrSt_self ..), hu.otn, fun k hk hn => ?_⟩
  rw [hu.rd k hk, rd_wrSt_ne _ _ (by simpa [eq_comm] using hn)]
  exact ht.rd k hk

/-! ### The commands -/

theorem exec_tsiWrite : exec (.tsiWrite p 0) s = .next (access p O.tsiCmd (cmdData 1 0) (tsiCmd cmdTsiWrite) s) := rfl

theorem exec_tsiRead (active : Bool) : exec (.tsiRead p active 0) s =
    .next (access p O.tsiCmd (cmdData (if active then 3 else 2) 0) (tsiCmd (cmdTsiRead active)) s) := rfl

theorem exec_tsiCopy : exec (.tsiCopy p 0) s = .next (access p O.tsiCmd (cmdData 4 0) (tsiCmd cmdTsiCopy) s) := rfl

theorem exec_tsiClear : exec (.tsiClear p 0) s = .next (access p O.tsiCmd (cmdData 5 0) (tsiCmd cmdTsiClear) s) := rfl

theorem exec_tsiSwap : exec (.tsiSwap p 0) s = .next (access p O.tsiCmd (cmdData 6 0) (tsiCmd cmdTsiSwap) s) := rfl

section
variable (hg : s.gate p O.tsiCmd = .pass) (hen : s.fnState .otn ≠ DISABLED)
include hg hen

theorem tsiRead_accepts (hk : tsiKeyGood (s.rd O.tsiKey) = true) (active : Bool) :
    Accepts (.tsiRead p active 0) p O.tsiCmd s fun t =>
      t.rd O.tsiData = mget (if active then s.otn.active else s.otn.standby) 0 (s.rd O.tsiKey) ∧
      t.rd O.tsiResult = Status.ok.code ∧ Only [O.tsiResult, O.tsiData] s t := by
  refine completes_tsiCmd (exec_tsiRead active) hg hen fun t ht => ?_
  have ek : t.rd O.tsiKey = s.rd O.tsiKey := ht.rd _ (by decide)
  refine ⟨_, by simp [cmdTsiRead, ek, hk, ht.otn]; rfl, fun u hu => ⟨?_, tsi_objects (only_wr (by simp) ht.only) hu⟩⟩
  rw [hu.rd _ (by decide), rd_wrSt_ne _ _ (by decide), rd_wr_self]

variable (hp : s.tsiPending = false)
include hp

theorem tsiWrite_accepts (hk : tsiKeyGood (s.rd O.tsiKey) = true) (hd : tsiDataGood (s.rd O.tsiKey) (s.rd O.tsiData) = true) :
    Accepts (.tsiWrite p 0) p O.tsiCmd s fun t =>
      t.rd O.tsiResult = Status.ok.code ∧
      t.otn = { s.otn with standby := mset s.otn.standby 0 (s.rd O.tsiKey) (s.rd O.tsiData) } ∧ OnlyObjects [O.tsiResult] s t := by
  refine completes_tsiCmd exec_tsiWrite hg hen fun t ht => ⟨_, ?_, fun u hu => tsi_pages ht hu⟩
  simp [cmdTsiWrite, tsiPending_reports ht, hp, ht.rd O.tsiKey (by decide), ht.rd O.tsiData (by decide), hk, hd, ht.otn]

theorem tsiCopy_accepts : Accepts (.tsiCopy p 0) p O.tsiCmd s fun t =>
    t.rd O.tsiResult = Status.ok.code ∧ t.otn = { s.otn with standby := s.otn.active } ∧ OnlyObjects [O.tsiResult] s t := by
  refine completes_tsiCmd exec_tsiCopy hg hen fun t ht => ⟨_, ?_, fun u hu => tsi_pages ht hu⟩
  simp [cmdTsiCopy, tsiPending_reports ht, hp, ht.otn]

theorem tsiClear_accepts : Accepts (.tsiClear p 0) p O.tsiCmd s fun t =>
    t.rd O.tsiResult = Status.ok.code ∧ t.otn = { s.otn with standby := [] } ∧ OnlyObjects [O.tsiResult] s t := by
  refine completes_tsiCmd exec_tsiClear hg hen fun t ht => ⟨_, ?_, fun u hu => tsi_pages ht hu⟩
  simp [cmdTsiClear, tsiPending_reports ht, hp, ht.otn]

theorem tsiSwap_accepts (hr : s.running .otn = true) (hb : s.tsiFirstBad s.otn.standby s.inForceNow = none) :
    Accepts (.tsiSwap p 0) p O.tsiCmd s fun t =>
      t.rd O.tsiSwapState = 1 ∧ t.rd O.tsiResult = Status.ok.code ∧ Only [O.tsiResult, O.tsiSwapState] s t := by
  refine completes_tsiCmd exec_tsiSwap hg hen fun t ht => ⟨t.wr O.tsiSwapState 1, ?_, fun u hu =>
    ⟨?_, tsi_objects (only_wr (by simp) ht.only) hu⟩⟩
  · simp [cmdTsiSwap, tsiPending_reports ht, hp, running_otn_reports ht, hr, tsiFirstBad_reports ht, ht.otn, hb]
  · rw [hu.rd _ (by decide), rd_wrSt_ne _ _ (by decide), rd_wr_self]

theorem tsiSwap_range {k : Nat} (hr : s.running .otn = true) (hb : s.tsiFirstBad s.otn.standby s.inForceNow = some k) :
    Completes (.tsiSwap p 0) s fun t =>
      (t.rd O.tsiErrorKey = k ∧ t.rd O.tsiResult = Status.range.code ∧ Only [O.tsiResult, O.tsiErrorKey] s t) ∧
      t.ended p O.tsiCmd .range := by
  refine completes_tsiCmd exec_tsiSwap hg hen fun t ht => ⟨t.wr O.tsiErrorKey k, ?_, fun u hu =>
    ⟨?_, tsi_objects (only_wr (by simp) ht.only) hu⟩⟩
  · simp [cmdTsiSwap, tsiPending_reports ht, hp, running_otn_reports ht, hr, tsiFirstBad_reports ht, ht.otn, hb]
  · rw [hu.rd _ (by decide), rd_wrSt_ne _ _ (by decide), rd_wr_self]

theorem tsiSwap_disabled (hr : s.running .otn = false) : Completes (.tsiSwap p 0) s fun t =>
    (t.rd O.tsiResult = Status.functionDisabled.code ∧ Only [O.tsiResult] s t) ∧ t.ended p O.tsiCmd .functionDisabled := by
  refine completes_tsiCmd exec_tsiSwap hg hen fun t ht => ⟨t, ?_, fun u hu => tsi_objects ht.only hu⟩
  simp [cmdTsiSwap, tsiPending_reports ht, hp, running_otn_reports ht, hr]

end
end

/-! ### The pages change places (R182) -/

theorem followed_clientFollow (s : State) (q : Nat) : Followed s (s.clientFollow q) :=
  (followedIn_clientFollow (g := 0) (by decide) (.refl 0 s)).toFollowed

theorem followed_foldl {α : Type} (f : State → α → State) (l : List α) (hf : ∀ t, ∀ a ∈ l, Followed t (f t a)) (s : State) :
    Followed s (l.foldl f s) := by
  induction l generalizing s with
  | nil => exact .refl s
  | cons a m ih => exact (hf s a (List.mem_cons_self ..)).trans (ih (fun t b hb => hf t b (List.mem_cons_of_mem _ hb)) _)

theorem followed_otnAll (s : State) : Followed s ((List.range 12).foldl State.otnFollow s) :=
  followed_foldl State.otnFollow _ (fun t _ hg => (followedIn_otnFollow (List.mem_range.mp hg) t).toFollowed) s

/-- The pages have changed places, and TSI_SWAP_STATE, TSI_ACTIVE_PAGE and TSI_SWAPS tell so. -/
def State.swapPages (s : State) : State :=
  let s := { s with otn := { s.otn with active := s.otn.standby, standby := s.otn.active } }
  ((s.wr O.tsiActivePage (1 - s.rd O.tsiActivePage)).wr O.tsiSwapState 0).inc O.tsiSwaps

theorem completes_tsiSwapped {s : State} (hp : s.tsiPending = true) (hr : s.running .otn = true) :
    Completes .tsiSwapped s (Followed s.swapPages) := by
  have he : exec .tsiSwapped s = execTsiSwapped s := rfl
  unfold execTsiSwapped at he
  rw [if_pos (by simp [hp, hr])] at he
  refine ⟨_, he, Followed.trans ?_ ((followed_foldl _ _ (fun t q _ => followed_clientFollow t q) _).trans (followed_otnAll _))⟩
  exact (followedIn_raise (g := 0) (by decide) (by decide) (.refl 0 _)).toFollowed

theorem rd_swapPages (s : State) : s.swapPages.rd O.tsiSwapState = 0 ∧ s.swapPages.rd O.tsiActivePage = 1 - s.rd O.tsiActivePage ∧
    s.swapPages.rd O.tsiSwaps = counted (tyOf O.tsiSwaps) (s.rd O.tsiSwaps) 1 := by
  simp only [State.swapPages]
  refine ⟨?_, ?_, ?_⟩
  · rw [rd_inc_ne _ (by decide), rd_wr_self]
  · rw [rd_inc_ne _ (by decide), rd_wr_ne _ _ (by decide), rd_wr_self]
    rfl
  · rw [rd_inc_self, rd_wr_ne _ _ (by decide), rd_wr_ne _ _ (by decide)]
    rfl

/-! ### The statement -/

/-- Settles O26: each command runs on a state that only reports tell from the one before its access; the swap itself is followed by groups and
clients brought up to date, which leaves the pages and their objects alone (`Followed`). -/
theorem tributarySlotsAreInterchanged : Obligations.TributarySlotsAreInterchanged := by
  intro s p
  refine ⟨fun hg => ⟨completes_tsiCmd_disabled exec_tsiWrite hg, fun hen hp => ⟨fun hk hd => ?write, tsiCopy_accepts hg hen hp,
    tsiClear_accepts hg hen hp, fun hr hb => ?swap, fun k hr hb => ?range, fun hr => ?disabled⟩,
    tsiRead_accepts hg⟩, fun hp hr => ?swapped, fun r slot recs hrecs hen hp => ?records⟩
  case write =>
    refine (tsiWrite_accepts hg hen hp hk hd).mono fun t ⟨⟨hres, hotn, honly⟩, hend⟩ => ⟨⟨hres, ?_, fun k hne => ?_, ?_, honly⟩, hend⟩
    · rw [hotn, mget_mset_self]
    · rw [hotn, mget_mset_ne _ _ _ _ hne.symm]
    · rw [hotn]
  case swap => exact (tsiSwap_accepts hg hen hp hr hb).mono fun t ⟨⟨hstate, hres, honly⟩, hend⟩ => ⟨⟨hres, hstate, honly⟩, hend⟩
  case range => exact (tsiSwap_range hg hen hp hr hb).mono fun t ⟨⟨hkey, hres, honly⟩, hend⟩ => ⟨hkey, hres, hend, honly⟩
  case disabled => exact (tsiSwap_disabled hg hen hp hr).mono fun t ⟨⟨hres, honly⟩, hend⟩ => ⟨hres, hend, honly⟩
  case swapped =>
    obtain ⟨hstate, hpage, hswaps⟩ := rd_swapPages s
    exact (completes_tsiSwapped hp hr).mono fun t h => ⟨h.active, h.standby, (h.rd _ (by decide)).trans hstate,
      (h.rd _ (by decide)).trans hpage, (h.rd _ (by decide)).trans hswaps⟩
  case records =>
    intro bad
    have he : exec (.tsiRingRecords r) s = execTsiRingRecords r s := rfl
    simp only [execTsiRingRecords, hrecs, hen, hp, if_false, Bool.false_eq_true] at he
    refine ⟨fun hb => ?_, fun n hb => ?_⟩
    · rw [show firstBad _ recs 0 = none from hb] at he
      exact ⟨_, he, rfl, rfl, rfl⟩
    · rw [show firstBad _ recs 0 = some n from hb] at he
      exact ⟨_, he, rfl⟩

end Sys2Proof.Machine
end

section
/-! PROOF. The match chain's banks (R205, R206): CHAIN_CMD and the swap. The stage objects are written from values that are fixed before the first
of them is written (`State.wrAll`), and nothing that a report touches enters the checks of a SWAP. -/

namespace Sys2Proof.Machine

/-! ### Objects that are written together -/

/-- Every object of `ks` takes its value of `v`. -/
def State.wrAll (s : State) (ks : List Nat) (v : Nat → Nat) : State := ks.foldl (fun t k => t.wr k (v k)) s

/-- Setting keys together: each holds its value, and another key what it held. -/
theorem mget_foldl_mset (m : NMap Nat) (ks : List Nat) (v : Nat → Nat) (k : Nat) :
    mget (ks.foldl (fun m k => mset m (dfltOf k) k (v k)) m) (dfltOf k) k = if k ∈ ks then v k else mget m (dfltOf k) k := by
  induction ks generalizing m with
  | nil => rfl
  | cons j ks ih =>
    rw [List.foldl_cons, ih]
    by_cases e : j = k
    · subst e
      rw [mget_mset_self, if_pos (List.mem_cons_self ..), ite_self]
    · rw [mget_mset_ne _ _ _ _ e]
      simp only [List.mem_cons, Ne.symm e, false_or]

theorem mget_foldl_mset_of_mem (m : NMap Nat) {ks : List Nat} (v : Nat → Nat) {k : Nat} (hk : k ∈ ks) :
    mget (ks.foldl (fun m k => mset m (dfltOf k) k (v k)) m) (dfltOf k) k = v k := by
  rw [mget_foldl_mset, if_pos hk]

/-- Writing objects together touches nothing beside the objects. -/
theorem wrAll_eq_objs (s : State) (ks : List Nat) (v : Nat → Nat) :
    s.wrAll ks v = { s with objs := ks.foldl (fun m k => mset m (dfltOf k) k (v k)) s.objs } := by
  induction ks generalizing s with
  | nil => rfl
  | cons k ks ih => exact ih _

theorem pk_wrAll (s : State) (ks : List Nat) (v : Nat → Nat) : (s.wrAll ks v).pk = s.pk := by rw [wrAll_eq_objs]

theorem rd_wrAll_of_mem (s : State) {ks : List Nat} (v : Nat → Nat) {k : Nat} (hk : k ∈ ks) : (s.wrAll ks v).rd k = v k := by
  rw [wrAll_eq_objs]
  exact mget_foldl_mset_of_mem s.objs v hk

theorem only_wrAll {ks js : List Nat} {s t : State} (v : Nat → Nat) (hks : ∀ k ∈ ks, k ∈ js) (h : Only js s t) :
    Only js s (t.wrAll ks v) := changes_foldl (fun k hk _ hu => only_wr (hks k hk) hu) h

theorem toDflt_eq_wr (s : State) (k : Nat) : s.toDflt k = s.wr k (dfltOf k) := by simp [State.toDflt, State.wr, mset]

/-! ### The stage objects of the two banks -/

/-- Stage objects stand at the indexes of the stages, which hold neither reports nor the objects of CHAIN_CMD. -/
theorem index_of_mem_stageKeys {k : Nat} (hk : k ∈ stageKeys) : 0x50A0 ≤ k / 256 ∧ k / 256 < 0x50BC := by
  revert k
  decide +kernel

theorem ne_of_mem_stageKeys {j k : Nat} (hj : j / 256 = 0x5090) (hk : k ∈ stageKeys) : j ≠ k := by
  have := index_of_mem_stageKeys hk
  omega

theorem reportKey_of_mem_stageKeys {k : Nat} (hk : k ∈ stageKeys) : reportKey k = false := by
  have := index_of_mem_stageKeys hk
  apply reportKey_index <;> omega

theorem stageObj_congr {s t : State} (h : t.pk = s.pk) (k : Nat) : t.stageObj k = s.stageObj k := by simp only [State.stageObj, h]

theorem foldl_copy {s t : State} (h : t.pk = s.pk) (ks : List Nat) :
    ks.foldl (fun u k => u.wr k (u.stageObj k)) t = t.wrAll ks s.stageObj := by
  induction ks generalizing t with
  | nil => rfl
  | cons k ks ih =>
    rw [List.foldl_cons, stageObj_congr h]
    exact ih h

theorem chainCopy_eq {s t : State} (h : t.pk = s.pk) : chainCopy t = (t.wrAll stageKeys s.stageObj, .ok) :=
  congrArg (·, Status.ok) (foldl_copy h stageKeys)

theorem chainClear_eq (s : State) : chainClear s = (s.wrAll stageKeys dfltOf, .ok) := by
  simp only [chainClear, toDflt_eq_wr, State.wrAll]

/-! ### What a SWAP checks is no report (R206) -/

section
variable {s t : State}

theorem pipe_reports (h : Reports s t) : t.pipe = s.pipe := by simp only [State.pipe, h.ticks, h.pwr]

/-- Objects of indexes from 0x3240 up to 0xB010 are no reports. -/
theorem reportKey_key {i sub : Nat} (hi : 0x3240 ≤ i ∧ i < 0xB010) (hs : sub < 256) : reportKey (key i sub) = false := by
  have e : key i sub / 256 = i := by simp only [key]; omega
  apply reportKey_index <;> omega

/-- The objects of a stage are no reports. -/
theorem rd_stage_reports (h : Reports s t) {st sub : Nat} (hst : st < 28) (hsub : sub < 256) :
    t.rd (key (0x50A0 + st) sub) = s.rd (key (0x50A0 + st) sub) :=
  h.rd _ (reportKey_key (by omega) (by omega))

theorem rd_keyFrag_reports (h : Reports s t) {st j : Nat} (hst : st < 28) (hj : j ∈ List.range 8) :
    t.rd (O.keyFrag st j) = s.rd (O.keyFrag st j) := by
  have := List.mem_range.mp hj
  exact rd_stage_reports h hst (by omega)

theorem keyLength_reports (h : Reports s t) {st : Nat} (hst : st < 28) : keyLength t.rd st = keyLength s.rd st :=
  congrArg List.sum (List.map_congr_left fun j hj => by rw [rd_keyFrag_reports h hst hj])

theorem ascW_reports (h : Reports s t) {x : Nat} (hx : x < 16) : t.ascW x = s.ascW x := by
  unfold State.ascW
  rw [h.rd (O.ascWidth x) (reportKey_key (by omega) (by omega))]

theorem fwdKeyWidth_reports (h : Reports s t) (kind table : Nat) : t.fwdKeyWidth kind table = s.fwdKeyWidth kind table := by
  have e : ∀ x < 16, t.rd (O.keyWidth x) = s.rd (O.keyWidth x) := fun x hx =>
    h.rd _ (reportKey_key (by omega) (by omega))
  unfold State.fwdKeyWidth
  split
  case h_3 =>
    by_cases hx : table < 16
    · simp [e table hx]
    · simp [hx]
  all_goals rfl

theorem tableWidth_reports (h : Reports s t) (kind table : Nat) : t.tableWidth kind table = s.tableWidth kind table := by
  unfold State.tableWidth
  rw [fwdKeyWidth_reports h]
  by_cases hx : table < 16 <;> simp [hx, State.ascBits, ascW_reports h]

theorem stageBad_reports (h : Reports s t) {st : Nat} (hst : st < 28) : t.stageBad st = s.stageBad st := by
  have hfrag : (List.range 8).any (fun j => fragBad (t.rd (O.keyFrag st j))) =
      (List.range 8).any fun j => fragBad (s.rd (O.keyFrag st j)) := by
    rw [Bool.eq_iff_iff, List.any_eq_true, List.any_eq_true]
    exact exists_congr fun j => and_congr_right fun hj => by rw [rd_keyFrag_reports h hst hj]
  unfold State.stageBad
  simp only [rd_stage_reports h hst (show 0x1 < 256 by decide), rd_stage_reports h hst (show 0x2 < 256 by decide),
    rd_stage_reports h hst (show 0xD < 256 by decide), rd_stage_reports h hst (show 0xE < 256 by decide),
    rd_stage_reports h hst (show 0xF < 256 by decide), rd_stage_reports h hst (show 0x10 < 256 by decide), hfrag,
    keyLength_reports h hst, tableWidth_reports h]

theorem firstBadStage_reports (h : Reports s t) :
    (chainStages.find? fun st => t.stageBad st) = chainStages.find? fun st => s.stageBad st := by
  have hst : ∀ st ∈ chainStages, st < 28 := by decide
  rw [← List.head?_filter, List.filter_congr fun st hs => stageBad_reports h (hst st hs), List.head?_filter]

end

/-! ### A CHAIN_CMD (R206) -/

section
variable {s : State} {p : Path}

theorem exec_chainCopy : exec (.chainCopy p 0) s = .next (access p O.chainCmd (cmdData 1 0) (cmdChain 0 chainCopy) s) := rfl

theorem exec_chainSwap (arg : BitVec 24) :
    exec (.chainSwap p arg) s = .next (access p O.chainCmd (cmdData 2 arg) (cmdChain arg chainSwap) s) := rfl

theorem exec_chainClear : exec (.chainClear p 0) s = .next (access p O.chainCmd (cmdData 3 0) (cmdChain 0 chainClear) s) := rfl

theorem cmdChain_range {arg : BitVec 24} (ha : arg ≠ 0) (f : State → State × Status) :
    cmdChain arg f s = (s.wrSt O.chainResult .range, .range) := by
  unfold cmdChain chainRecorded noArg
  rw [if_neg ha]

theorem cmdChain_busy (hp : s.pk.swapAt ≠ none) (f : State → State × Status) :
    cmdChain 0 f s = (s.wrSt O.chainResult .busy, .busy) := by
  simp [cmdChain, chainRecorded, noArg, Option.isSome_iff_ne_none.mpr hp]

theorem cmdChain_run (hp : s.pk.swapAt = none) (f : State → State × Status) :
    cmdChain 0 f s = ((f s).1.wrSt O.chainResult (f s).2, (f s).2) := by
  simp [cmdChain, chainRecorded, noArg, hp]

/-- A CHAIN_CMD that the gates let pass: it runs on a state that only reports tell from `s`, CHAIN_RESULT takes its status, and what follows only
reports and says how the access ended. -/
theorem completes_cmdChain {c : Instr} {d : List Byte} {arg : BitVec 24} {f : State → State × Status} {st : Status} {P : State → Prop}
    (he : exec c s = .next (access p O.chainCmd d (cmdChain arg f) s)) (hg : s.gate p O.chainCmd = .pass)
    (hP : ∀ t, Reports s t → ∃ v : State, cmdChain arg f t = (v.wrSt O.chainResult st, st) ∧
      ∀ u, Reports (v.wrSt O.chainResult st) u → P u) :
    Completes c s fun u => P u ∧ u.ended p O.chainCmd st := by
  refine completes_access he hg fun t ht u hu hend => ?_
  obtain ⟨v, hv, hPu⟩ := hP t ht
  rw [hv] at hu hend
  exact ⟨hPu u hu, hend⟩

/-- What a CHAIN_CMD leaves that changes the objects `ks` only. -/
theorem chain_objects {ks : List Nat} {st : Status} {v u : State} (hv : Only (O.chainResult :: ks) s v)
    (hu : Reports (v.wrSt O.chainResult st) u) : u.rd O.chainResult = st.code ∧ Only (O.chainResult :: ks) s u :=
  ⟨(hu.rd _ (by decide)).trans (rd_wrSt_self ..), (only_wr (by simp) hv).trans hu.only⟩

/-- What a CHAIN_CMD leaves that writes all stage objects. -/
theorem chain_stages {st : Status} {t u : State} (v : Nat → Nat) (ht : Reports s t)
    (hu : Reports ((t.wrAll stageKeys v).wrSt O.chainResult st) u) :
    (∀ k, k ∈ stageKeys → u.rd k = v k) ∧ u.rd O.chainResult = st.code ∧ Only (O.chainResult :: stageKeys) s u := by
  refine ⟨fun k hk => ?_, chain_objects (only_wrAll v (fun _ => List.mem_cons_of_mem _) ht.only) hu⟩
  rw [hu.rd k (reportKey_of_mem_stageKeys hk), rd_wrSt_ne _ _ (ne_of_mem_stageKeys rfl hk), rd_wrAll_of_mem _ _ hk]

section
variable (hg : s.gate p O.chainCmd = .pass)
include hg

theorem chainCopy_busy (hp : s.pk.swapAt ≠ none) : Completes (.chainCopy p 0) s fun t =>
    (t.rd O.chainResult = Status.busy.code ∧ Only [O.chainResult] s t) ∧ t.ended p O.chainCmd .busy :=
  completes_cmdChain exec_chainCopy hg fun t ht => ⟨t, cmdChain_busy (by rwa [ht.pk]) _, fun _ hu => chain_objects ht.only hu⟩

theorem chainSwap_range {arg : BitVec 24} (ha : arg ≠ 0) : Completes (.chainSwap p arg) s fun t =>
    (t.rd O.chainResult = Status.range.code ∧ Only [O.chainResult] s t) ∧ t.ended p O.chainCmd .range :=
  completes_cmdChain (exec_chainSwap arg) hg fun t ht => ⟨t, cmdChain_range ha _, fun _ hu => chain_objects ht.only hu⟩

variable (hp : s.pk.swapAt = none)
include hp

theorem chainCopy_accepts : Accepts (.chainCopy p 0) p O.chainCmd s fun t =>
    (∀ k, k ∈ stageKeys → t.rd k = s.stageObj k) ∧ t.rd O.chainResult = Status.ok.code ∧ Only (O.chainResult :: stageKeys) s t := by
  refine completes_cmdChain exec_chainCopy hg fun t ht => ⟨t.wrAll stageKeys s.stageObj, ?_, fun u hu => chain_stages _ ht hu⟩
  rw [cmdChain_run (by rwa [ht.pk]), chainCopy_eq ht.pk]

theorem chainClear_accepts : Accepts (.chainClear p 0) p O.chainCmd s fun t =>
    (∀ k, k ∈ stageKeys → t.rd k = dfltOf k) ∧ t.rd O.chainResult = Status.ok.code ∧ Only (O.chainResult :: stageKeys) s t := by
  refine completes_cmdChain exec_chainClear hg fun t ht => ⟨t.wrAll stageKeys dfltOf, ?_, fun u hu => chain_stages _ ht hu⟩
  rw [cmdChain_run (by rwa [ht.pk]), chainClear_eq]

theorem chainSwap_accepts (hb : (chainStages.find? fun st => s.stageBad st) = none) : Accepts (.chainSwap p 0) p O.chainCmd s fun t =>
    t.pk = { s.pk with swapAt := some s.pipe } ∧ t.rd O.chainSwapState = 1 ∧ t.rd O.chainResult = Status.ok.code ∧
    OnlyObjects [O.chainResult, O.chainSwapState] s t := by
  refine completes_cmdChain (exec_chainSwap 0) hg fun t ht =>
    ⟨(t.upk fun x => { x with swapAt := some t.pipe }).wr O.chainSwapState 1, ?_, fun u hu => ⟨?_, ?_, ?_, fun k hk hn => ?_⟩⟩
  · rw [cmdChain_run (by rwa [ht.pk])]
    simp only [chainSwap, firstBadStage_reports ht, hb]
  · rw [hu.pk, ← ht.pk, ← pipe_reports ht]
    rfl
  · rw [hu.rd _ (by decide), rd_wrSt_ne _ _ (by decide), rd_wr_self]
  · rw [hu.rd _ (by decide), rd_wrSt_self]
  · obtain ⟨hresult, hstate⟩ : k ≠ O.chainResult ∧ k ≠ O.chainSwapState := by simpa using hn
    rw [hu.rd k hk, rd_wrSt_ne _ _ hresult.symm, rd_wr_ne _ _ hstate.symm]
    exact ht.rd k hk

theorem chainSwap_badStage {st : Nat} (hb : (chainStages.find? fun st => s.stageBad st) = some st) :
    Completes (.chainSwap p 0) s fun t =>
      (t.rd O.chainErrorStage = (if st < 16 then st else 128 + (st - 16)) ∧ t.rd O.chainResult = Status.range.code ∧
        Only [O.chainResult, O.chainErrorStage] s t) ∧ t.ended p O.chainCmd .range := by
  refine completes_cmdChain (exec_chainSwap 0) hg fun t ht =>
    ⟨t.wr O.chainErrorStage (if st < 16 then st else 128 + (st - 16)), ?_, fun u hu => ⟨?_, chain_objects (only_wr (by simp) ht.only) hu⟩⟩
  · rw [cmdChain_run (by rwa [ht.pk])]
    simp only [chainSwap, firstBadStage_reports ht, hb]
  · rw [hu.rd _ (by decide), rd_wrSt_ne _ _ (by decide), rd_wr_self]

end
end

/-! ### The banks exchange their roles (R206) -/

/-- The objects `ks` of the two banks have changed places, and no swap is pending. -/
def State.exchanged (s : State) (ks : List Nat) : State :=
  (s.upk fun x => { x with chain := ks.foldl (fun m k => mset m (dfltOf k) k (s.rd k)) s.pk.chain, swapAt := none }).wrAll ks s.stageObj

/-- CHAIN_SWAP_STATE, CHAIN_ACTIVE_BANK and CHAIN_SWAPS tell of a swap. -/
def State.swapTold (s : State) : State :=
  ((s.wr O.chainSwapState 0).wr O.chainActiveBank (1 - s.rd O.chainActiveBank)).inc O.chainSwaps

theorem swapDone_eq {s : State} (hp : s.pk.swapAt ≠ none) : s.swapDone = (s.exchanged stageKeys).swapTold := by
  unfold State.swapDone
  rw [if_neg (by simpa using hp)]
  simp only [List.foldl_map, State.swapTold, State.exchanged, State.wrAll]

section
variable (s : State) {ks : List Nat}

theorem pk_exchanged (ks : List Nat) : (s.exchanged ks).pk =
    { s.pk with chain := ks.foldl (fun m k => mset m (dfltOf k) k (s.rd k)) s.pk.chain, swapAt := none } := pk_wrAll ..

theorem stageObj_exchanged {k : Nat} (hk : k ∈ ks) : (s.exchanged ks).stageObj k = s.rd k := by
  unfold State.stageObj
  rw [pk_exchanged]
  exact mget_foldl_mset_of_mem s.pk.chain s.rd hk

theorem rd_exchanged_of_mem {k : Nat} (hk : k ∈ ks) : (s.exchanged ks).rd k = s.stageObj k := rd_wrAll_of_mem _ _ hk

theorem rd_exchanged {k : Nat} (hr : reportKey k = false) (hk : k ∉ ks) : (s.exchanged ks).rd k = s.rd k :=
  (only_wrAll (js := ks) _ (fun _ h => h) (.refl _ _)).onlyObjects k hr hk

theorem pk_swapTold : s.swapTold.pk = s.pk := rfl

theorem rd_swapTold {k : Nat} (hk : k / 256 ≠ 0x5090) : s.swapTold.rd k = s.rd k := by
  have hne : ∀ j, j / 256 = 0x5090 → j ≠ k := fun j hj e => hk (e ▸ hj)
  unfold State.swapTold
  rw [rd_inc_ne _ (hne _ rfl), rd_wr_ne _ _ (hne _ rfl), rd_wr_ne _ _ (hne _ rfl)]

theorem rd_swapTold_told : s.swapTold.rd O.chainSwapState = 0 ∧ s.swapTold.rd O.chainActiveBank = 1 - s.rd O.chainActiveBank ∧
    s.swapTold.rd O.chainSwaps = counted (tyOf O.chainSwaps) (s.rd O.chainSwaps) 1 := by
  unfold State.swapTold
  refine ⟨?_, ?_, ?_⟩
  · rw [rd_inc_ne _ (by decide), rd_wr_ne _ _ (by decide), rd_wr_self]
  · rw [rd_inc_ne _ (by decide), rd_wr_self]
  · rw [rd_inc_self, rd_wr_ne _ _ (by decide), rd_wr_ne _ _ (by decide)]

end

theorem completes_chainSwapDone {s : State} (hp : s.pk.swapAt ≠ none) : Completes .chainSwapDone s fun t =>
    (∀ k, k ∈ stageKeys → t.rd k = s.stageObj k ∧ t.stageObj k = s.rd k) ∧ t.pk.swapAt = none ∧ t.rd O.chainSwapState = 0 ∧
    t.rd O.chainActiveBank = 1 - s.rd O.chainActiveBank ∧ t.rd O.chainSwaps = counted (tyOf O.chainSwaps) (s.rd O.chainSwaps) 1 := by
  have he : exec .chainSwapDone s = .next s.swapDone := rfl
  have hother : ∀ j, j / 256 = 0x5090 → j ∉ stageKeys := fun j hj hk => ne_of_mem_stageKeys hj hk rfl
  obtain ⟨hstate, hbank, hswaps⟩ := rd_swapTold_told (s.exchanged stageKeys)
  rw [rd_exchanged s (by decide) (hother _ rfl)] at hbank hswaps
  rw [swapDone_eq hp] at he
  refine ⟨_, he, fun k hk => ⟨?_, ?_⟩, ?_, hstate, hbank, hswaps⟩
  · rw [rd_swapTold _ (by have := index_of_mem_stageKeys hk; omega), rd_exchanged_of_mem s hk]
  · rw [stageObj_congr (pk_swapTold _), stageObj_exchanged s hk]
  · rw [pk_swapTold, pk_exchanged]

/-! ### The statement -/

/-- Settles O30: each command runs on a state that only reports tell from the one before its access, and the swap writes each bank from what the
other held. -/
theorem chainBanksAreSwapped : Obligations.ChainBanksAreSwapped := by
  intro s p
  refine ⟨fun hg => ⟨fun hp => ?busy, fun arg ha => ?range, fun hp => ⟨chainCopy_accepts hg hp, chainClear_accepts hg hp,
    chainSwap_accepts hg hp, fun st hb => ?bad⟩⟩, completes_chainSwapDone⟩
  case busy => exact (chainCopy_busy hg hp).mono fun t ⟨⟨hres, honly⟩, hend⟩ => ⟨hres, hend, honly⟩
  case range => exact (chainSwap_range hg ha).mono fun t ⟨⟨hres, honly⟩, hend⟩ => ⟨hres, hend, honly⟩
  case bad => exact (chainSwap_badStage hg hp hb).mono fun t ⟨⟨hstage, hres, honly⟩, hend⟩ => ⟨hstage, hres, hend, honly⟩

end Sys2Proof.Machine
end

section
/-! PROOF. Dispatch and order (R209 to R213, R226 to R229): a packet that names a slice that does not exist. -/

namespace Sys2Proof.Machine

/-- A packet of slice 0x7C0, which does not exist. -/
def strayPacket : Pkt := { id := 0, md := 0, frame := [], slice := 0x7C0, port := 0, seq := 0 }

/-- REORDER_PEAK of the stage that this slice would have stands at the key of CLUSTER_PASSES of cluster 0. -/
theorem reorderPeak_strayPacket : O.reorderPeak (stageOf strayPacket.slice) = O.clusterPasses 0 := rfl

/-- Its pass in cluster 0. -/
def strayPass : Pass := { pkt := strayPacket, cluster := 0, engine := 0, bank := 0, entry := [], start := 0 }

/-- The pass is in hand, and a packet of the same port waits in the same stage. -/
def holdsStrayPass : State :=
  { pk := { passes := [strayPass]
            reorder := [(reorderKey (stageOf strayPacket.slice) strayPacket.port, { waiting := [{ pkt := strayPacket, trap := false }] })] } }

/-- A pass that ended at once, with nothing to report. -/
def plainEnd : PassResult :=
  { words := 0, frame := [], exc := none, bankError := false, issue := 0, residence := 0, reads := [],
    stat := { read := ⟨false, .clean, 0⟩, held := 0 }, requests := [] }

/-- The end of the pass leaves two packets waiting in the stage, and its peak tells so. -/
theorem passEnd_strayPass {t : State} (he : exec (.passEnd 0 0 plainEnd) holdsStrayPass = .next t) :
    t.rd (O.reorderPeak (stageOf strayPacket.slice)) = 2 := by
  have h : (match exec (.passEnd 0 0 plainEnd) holdsStrayPass with
    | .next t => t.rd (O.reorderPeak (stageOf strayPacket.slice))
    | _ => 0) = 2 := by decide +kernel
  rwa [he] at h

theorem counted_holdsStrayPass : counted (tyOf (O.clusterPasses 0)) (holdsStrayPass.rd (O.clusterPasses 0)) 1 = 1 := by decide +kernel

/-- Refutes O28: its clause of PASS_END has CLUSTER_PASSES count the pass and says no more of it, whatever slice the packet names. In
`holdsStrayPass` the packet reaches the reorder stage of a slice that does not exist, whose REORDER_PEAK is the same object, so that the peak takes
the place of the count. The statement lacks the hypothesis that the slice of a packet is below 16, as it is of the packets that slices take in. -/
theorem not_packetsRunAndKeepTheirOrder : ¬ Obligations.PacketsRunAndKeepTheirOrder := by
  intro h
  obtain ⟨-, -, hpass, -⟩ := h holdsStrayPass
  obtain ⟨hend, -⟩ := hpass 0 0 plainEnd strayPass rfl
  obtain ⟨t, he, -, hcount⟩ := hend
  have hone : t.rd (O.clusterPasses 0) = 1 := hcount.trans counted_holdsStrayPass
  have htwo := passEnd_strayPass he
  rw [reorderPeak_strayPacket] at htwo
  omega

end Sys2Proof.Machine
end

section
/-! PROOF. What following the conditions of protection leaves alone (R410 to R412, R416, R418): of the objects those of PROT, of the packet state the
frames at the MAC of the ports. -/

namespace Sys2Proof.Machine

/-- The objects of PROT, and those of a record. -/
def protKey (k : Nat) : Bool := recordKey k || (decide (0x8800 ≤ k / 256) && decide (k / 256 < 0x8880))

/-- `t` is `s` but for what following protection may write: objects of PROT and of records, and the frames released to the MACs. -/
structure ProtFollowed (s t : State) : Prop where
  rd : ∀ k, protKey k = false → t.rd k = s.rd k
  pk : t.pk = { s.pk with mac := t.pk.mac, inflight := t.pk.inflight }

theorem recordKey_of_protKey {k : Nat} (h : protKey k = false) : recordKey k = false := (Bool.or_eq_false_iff.mp h).1

theorem protKey_index {k : Nat} (h : 0x8800 ≤ k / 256 ∧ k / 256 < 0x8880) : protKey k = true := by simp [protKey, h]

/-- The objects of a port's protection are objects of PROT. -/
theorem protKey_port {p sub : Nat} (hp : p < 96) (hs : sub < 256) : protKey (key (0x8820 + p) sub) = true :=
  protKey_index (by simp only [key]; omega)

theorem ProtFollowed.refl (s : State) : ProtFollowed s s := ⟨fun _ _ => rfl, rfl⟩

theorem ProtFollowed.trans {s t u : State} (h : ProtFollowed s t) (g : ProtFollowed t u) : ProtFollowed s u :=
  ⟨fun k hk => (g.rd k hk).trans (h.rd k hk), by rw [g.pk, h.pk]⟩

section
variable {s0 s : State}

theorem protFollowed_wr {k v : Nat} (hk : protKey k = true) (h : ProtFollowed s0 s) : ProtFollowed s0 (s.wr k v) :=
  h.trans ⟨fun j hj => rd_wr_ne _ _ fun e => by simp [e, hj] at hk, rfl⟩

theorem protFollowed_inc {k : Nat} (hk : protKey k = true) (h : ProtFollowed s0 s) : ProtFollowed s0 (s.inc k) := protFollowed_wr hk h

theorem protFollowed_updProt {f : ProtSt → ProtSt} (h : ProtFollowed s0 s) : ProtFollowed s0 (s.updProt f) := h.trans ⟨fun _ _ => rfl, rfl⟩

theorem protFollowed_raise {r type func sev a0 a1 a2 : Nat} (hr : r < 64) (h : ProtFollowed s0 s) :
    ProtFollowed s0 (s.raise r type func sev a0 a1 a2) := by
  have hc : Changes recordKey s (s.raise r type func sev a0 a1 a2) := records_raise hr (.refl _ s)
  exact h.trans ⟨fun k hk => hc.rd k (recordKey_of_protKey hk), by rw [hc.pk]⟩

theorem protFollowed_foldl {α : Type} {f : State → α → State} {l : List α}
    (hf : ∀ a ∈ l, ∀ t, ProtFollowed s0 t → ProtFollowed s0 (f t a)) (h : ProtFollowed s0 s) : ProtFollowed s0 (l.foldl f s) := by
  induction l generalizing s with
  | nil => exact h
  | cons a l ih => exact ih (fun b hb => hf b (List.mem_cons_of_mem _ hb)) (hf a (List.mem_cons_self ..) s h)

theorem protFollowed_abortHead {p : Nat} (hp : p < 96) (h : ProtFollowed s0 s) : ProtFollowed s0 (s.abortHead p) := by
  unfold State.abortHead
  split
  · split
    · rename_i f l _ _
      have hmac : ProtFollowed s0 ((s.setMac p l).leavePort f.owner f.bytes) := h.trans ⟨fun _ _ => rfl, rfl⟩
      have hinc := protFollowed_inc (protKey_port (sub := 0x9) hp (by decide)) hmac
      exact hinc.trans ⟨fun _ _ => rfl, rfl⟩
    · exact h
  · exact h

theorem protFollowed_setRole {p r : Nat} (hp : p < 96) (h : ProtFollowed s0 s) : ProtFollowed s0 (s.setRole p r) := by
  unfold State.setRole
  dsimp only
  split
  · exact h
  · exact protFollowed_raise (by decide) (protFollowed_wr (protKey_port hp (by decide)) h)

theorem protFollowed_followRole {p : Nat} (hp : p < 96) (h : ProtFollowed s0 s) : ProtFollowed s0 (s.followRole p) := by
  unfold State.followRole
  split
  · exact h
  · split
    · split
      · exact protFollowed_setRole hp h
      · exact h
    · split
      · exact protFollowed_setRole hp (protFollowed_abortHead hp h)
      · split
        · exact protFollowed_setRole hp h
        · exact h

theorem protFollowed_followRoles (h : ProtFollowed s0 s) : ProtFollowed s0 s.followRoles :=
  protFollowed_foldl (fun _ hp _ => protFollowed_followRole (List.mem_range.mp hp)) h

theorem protFollowed_driveKeep (h : ProtFollowed s0 s) : ProtFollowed s0 s.driveKeep := protFollowed_wr (by decide) h

theorem protFollowed_startWait (h : ProtFollowed s0 s) : ProtFollowed s0 s.startWait :=
  protFollowed_wr (by decide) (protFollowed_updProt h)

theorem protFollowed_endWait (h : ProtFollowed s0 s) : ProtFollowed s0 s.endWait :=
  protFollowed_wr (by decide) (protFollowed_updProt h)

theorem protFollowed_readyFalls {causes : Nat} (h : ProtFollowed s0 s) : ProtFollowed s0 (s.readyFalls causes) :=
  protFollowed_raise (by decide) (protFollowed_inc (by decide) (protFollowed_updProt h))

end

/-- Following protection writes what the relation admits, and nothing more. -/
theorem protFollowed_protFollow (s : State) : ProtFollowed s s.protFollow := by
  unfold State.protFollow
  split
  · exact .refl s
  · refine protFollowed_followRoles (protFollowed_driveKeep ?_)
    split
    · exact .refl s
    · split
      · refine protFollowed_raise (by decide) (protFollowed_updProt ?_)
        split
        · exact protFollowed_startWait (protFollowed_updProt (.refl s))
        · exact protFollowed_updProt (.refl s)
      · exact protFollowed_readyFalls (protFollowed_endWait (.refl s))

end Sys2Proof.Machine
end

section
/-! PROOF. Action profiles (R232, R233, R235, R236, R247): PROF_CMD, the end of a hold and the records of a ring. -/

namespace Sys2Proof.Machine

/-- A command of the dictionary that the gates let pass: `f` runs on a state that only reports tell from `s` and answers the status, and what
follows only reports and says how the access ended. -/
theorem completes_status {c : Instr} {p : Path} {k : Nat} {d : List Byte} {f : State → State × Status} {s : State} {st : Status}
    {P : State → Prop} (he : exec c s = .next (access p k d f s)) (hg : s.gate p k = .pass)
    (hP : ∀ t, Reports s t → ∃ v, f t = (v, st) ∧ ∀ u, Reports v u → P u) : Completes c s fun u => P u ∧ u.ended p k st := by
  refine completes_access he hg fun t ht u hu hend => ?_
  obtain ⟨v, hv, hPu⟩ := hP t ht
  rw [hv] at hu hend
  exact ⟨hPu u hu, hend⟩

/-! ### One profile -/

section
variable {s t : State}

@[simp] theorem profile_updProfile_self (s : State) (n : Nat) (f : Profile → Profile) : (s.updProfile n f).profile n = f (s.profile n) :=
  mget_mupd_self ..

theorem profile_updProfile_ne (s : State) {n m : Nat} (f : Profile → Profile) (h : n ≠ m) : (s.updProfile n f).profile m = s.profile m :=
  mget_mupd_ne _ _ _ h

theorem profile_congr (h : t.pk = s.pk) (n : Nat) : t.profile n = s.profile n := by simp only [State.profile, h]

theorem mcodeBusy_reports (h : Reports s t) : t.mcodeBusy = s.mcodeBusy := by
  unfold State.mcodeBusy
  rw [h.rd O.mcodeState (by decide)]

theorem profEntry_reports (h : Reports s t) : t.rdB O.profData 64 = s.rdB O.profData 64 := by
  unfold State.rdB
  rw [h.rd O.profData (by decide)]

end

/-! ### A PROF_CMD (R232, R235) -/

section
variable {s : State} {p : Path} {arg : BitVec 24}

theorem exec_profileWrite (arg : BitVec 24) :
    exec (.profileWrite p arg) s = .next (access p O.profCmd (cmdData 1 arg) (cmdProfile arg (profWrite false)) s) := rfl

theorem exec_profileRead : exec (.profileRead p arg) s = .next (access p O.profCmd (cmdData 2 arg) (cmdProfile arg profRead) s) := rfl

theorem exec_profileClear :
    exec (.profileClear p arg) s = .next (access p O.profCmd (cmdData 3 arg) (cmdProfile arg (profWrite true)) s) := rfl

theorem cmdProfile_range (ha : arg.toNat = 0 ∨ 4096 ≤ arg.toNat) (f : Nat → State → State × Status) :
    cmdProfile arg f s = (s.wrSt O.profResult .range, .range) := by
  simp [cmdProfile, ha]

theorem cmdProfile_run (h0 : 0 < arg.toNat) (h1 : arg.toNat < 4096) (f : Nat → State → State × Status) :
    cmdProfile arg f s = ((f arg.toNat s).1.wrSt O.profResult (f arg.toNat s).2, (f arg.toNat s).2) := by
  have hin : ¬(arg.toNat = 0 ∨ 4096 ≤ arg.toNat) := by omega
  simp [cmdProfile, hin]

theorem profWrite_busy {n : Nat} (hb : s.mcodeBusy = true ∨ (s.profile n).hold = true) (clear : Bool) :
    profWrite clear n s = (s, .busy) := by
  simp [profWrite, hb]

theorem profWrite_good {n : Nat} (hm : s.mcodeBusy = false) (hh : (s.profile n).hold = false)
    (hgood : profileGood s.pk.active (s.rdB O.profData 64) = true) :
    profWrite false n s = (s.flipProfile n (s.rdB O.profData 64), .ok) := by
  simp [profWrite, hm, hh, hgood]

theorem profWrite_clear {n : Nat} (hm : s.mcodeBusy = false) (hh : (s.profile n).hold = false) :
    profWrite true n s = (s.flipProfile n [], .ok) := by
  simp [profWrite, hm, hh]

/-- A READ shows the profile's entry and counters. -/
theorem rd_profRead (n : Nat) (s : State) :
    (profRead n s).1.rd O.profData = leNat (s.profile n).entry ∧ (profRead n s).1.rd O.profPasses = (s.profile n).passes ∧
    (profRead n s).1.rd O.profIssueCycles = (s.profile n).issue ∧ (profRead n s).1.rd O.profResidence = (s.profile n).residence := by
  simp only [profRead, State.wrB]
  refine ⟨?_, ?_, ?_, ?_⟩
  · rw [rd_wr_ne _ _ (by decide), rd_wr_ne _ _ (by decide), rd_wr_ne _ _ (by decide), rd_wr_self]
  · rw [rd_wr_ne _ _ (by decide), rd_wr_ne _ _ (by decide), rd_wr_self]
  · rw [rd_wr_ne _ _ (by decide), rd_wr_self]
  · rw [rd_wr_self]

/-- What a PROF_CMD leaves that changes the objects `ks` only. -/
theorem prof_objects {ks : List Nat} {st : Status} {v u : State} (hv : Only (O.profResult :: ks) s v)
    (hu : Reports (v.wrSt O.profResult st) u) : u.rd O.profResult = st.code ∧ Only (O.profResult :: ks) s u :=
  ⟨(hu.rd _ (by decide)).trans (rd_wrSt_self ..), (only_wr (by simp) hv).trans hu.only⟩

/-- What a PROF_CMD leaves that flips a profile. -/
theorem prof_flipped {n : Nat} {e : List Byte} {st : Status} {t u : State} (ht : Reports s t)
    (hu : Reports ((t.flipProfile n e).wrSt O.profResult st) u) :
    u.profile n = { entry := e, hold := true, gen := (s.profile n).gen + 1 } ∧ (∀ m, m ≠ n → u.profile m = s.profile m) ∧
      OnlyObjects [O.profResult] s u := by
  have hpk : ∀ m, u.profile m = (t.flipProfile n e).profile m := profile_congr hu.pk
  refine ⟨?_, fun m hm => ?_, fun k hk hn => ?_⟩
  · rw [hpk, State.flipProfile, profile_updProfile_self, profile_congr ht.pk]
  · rw [hpk, State.flipProfile, profile_updProfile_ne _ _ hm.symm, profile_congr ht.pk]
  · rw [hu.rd k hk, rd_wrSt_ne _ _ (by simpa [eq_comm] using hn)]
    exact ht.rd k hk

section
variable (hg : s.gate p O.profCmd = .pass)
include hg

theorem profileWrite_range (ha : arg.toNat = 0 ∨ 4096 ≤ arg.toNat) : Completes (.profileWrite p arg) s fun t =>
    (t.rd O.profResult = Status.range.code ∧ Only [O.profResult] s t) ∧ t.ended p O.profCmd .range :=
  completes_status (exec_profileWrite arg) hg fun _ ht => ⟨_, cmdProfile_range ha _, fun _ hu => prof_objects ht.only hu⟩

variable (h0 : 0 < arg.toNat) (h1 : arg.toNat < 4096)
include h0 h1

theorem profileWrite_busy (hb : s.mcodeBusy = true ∨ (s.profile arg.toNat).hold = true) : Completes (.profileWrite p arg) s fun t =>
    (t.rd O.profResult = Status.busy.code ∧ Only [O.profResult] s t) ∧ t.ended p O.profCmd .busy := by
  refine completes_status (exec_profileWrite arg) hg fun t ht => ⟨t.wrSt O.profResult .busy, ?_, fun u hu => prof_objects ht.only hu⟩
  rw [cmdProfile_run h0 h1, profWrite_busy (by rwa [mcodeBusy_reports ht, profile_congr ht.pk])]

theorem profileRead_accepts : Accepts (.profileRead p arg) p O.profCmd s fun t =>
    t.rd O.profData = leNat (s.profile arg.toNat).entry ∧ t.rd O.profPasses = (s.profile arg.toNat).passes ∧
    t.rd O.profIssueCycles = (s.profile arg.toNat).issue ∧ t.rd O.profResidence = (s.profile arg.toNat).residence ∧
    Only [O.profResult, O.profData, O.profPasses, O.profIssueCycles, O.profResidence] s t := by
  refine completes_status exec_profileRead hg fun t ht => ⟨(profRead arg.toNat t).1.wrSt O.profResult .ok, cmdProfile_run h0 h1 _, fun u hu => ?_⟩
  have hread : Only [O.profResult, O.profData, O.profPasses, O.profIssueCycles, O.profResidence] s (profRead arg.toNat t).1 :=
    only_wr (by simp) (only_wr (by simp) (only_wr (by simp) (only_wr (by simp) ht.only)))
  obtain ⟨hdata, hpasses, hissue, hresidence⟩ := rd_profRead arg.toNat t
  rw [← profile_congr ht.pk]
  refine ⟨?_, ?_, ?_, ?_, (prof_objects hread hu).2⟩
  · rw [hu.rd _ (by decide), rd_wrSt_ne _ _ (by decide), hdata]
  · rw [hu.rd _ (by decide), rd_wrSt_ne _ _ (by decide), hpasses]
  · rw [hu.rd _ (by decide), rd_wrSt_ne _ _ (by decide), hissue]
  · rw [hu.rd _ (by decide), rd_wrSt_ne _ _ (by decide), hresidence]

variable (hm : s.mcodeBusy = false) (hh : (s.profile arg.toNat).hold = false)
include hm hh

theorem profileWrite_accepts (hgood : profileGood s.pk.active (s.rdB O.profData 64) = true) :
    Accepts (.profileWrite p arg) p O.profCmd s fun t =>
      t.profile arg.toNat = { entry := s.rdB O.profData 64, hold := true, gen := (s.profile arg.toNat).gen + 1 } ∧
      (∀ n, n ≠ arg.toNat → t.profile n = s.profile n) ∧ OnlyObjects [O.profResult] s t := by
  refine completes_status (exec_profileWrite arg) hg fun t ht =>
    ⟨(t.flipProfile arg.toNat (s.rdB O.profData 64)).wrSt O.profResult .ok, ?_, fun u hu => prof_flipped ht hu⟩
  have hw := profWrite_good (s := t) (n := arg.toNat) (by rwa [mcodeBusy_reports ht]) (by rwa [profile_congr ht.pk])
    (by rwa [ht.pk, profEntry_reports ht])
  rw [cmdProfile_run h0 h1, hw, profEntry_reports ht]

theorem profileClear_accepts : Accepts (.profileClear p arg) p O.profCmd s fun t =>
    t.profile arg.toNat = { entry := [], hold := true, gen := (s.profile arg.toNat).gen + 1 } ∧
    (∀ n, n ≠ arg.toNat → t.profile n = s.profile n) ∧ OnlyObjects [O.profResult] s t := by
  refine completes_status exec_profileClear hg fun t ht =>
    ⟨(t.flipProfile arg.toNat []).wrSt O.profResult .ok, ?_, fun u hu => prof_flipped ht hu⟩
  rw [cmdProfile_run h0 h1, profWrite_clear (by rwa [mcodeBusy_reports ht]) (by rwa [profile_congr ht.pk])]

end
end

/-! ### The end of a hold (R233) and the records of a ring (R236, R247) -/

theorem completes_profileHoldEnd (s : State) (n : Fin 4096) : Completes (.profileHoldEnd n) s fun t =>
    t.profile n.val = { s.profile n.val with hold := false } ∧ t.objs = s.objs :=
  ⟨s.updProfile n.val fun x => { x with hold := false }, rfl, profile_updProfile_self .., rfl⟩

theorem writeProfiles_one {s : State} {d : List Byte} (hh : (s.profile (le (profRecord d 0) 0 2)).hold = false) :
    State.writeProfiles d 1 0 s = (s.flipProfile (le (profRecord d 0) 0 2) ((profRecord d 0).drop 4), 1) := by
  simp [State.writeProfiles, hh]

section
variable {s : State} {r : Fin 48} {x : Flight} (hr : s.isTableRing r.val 0x00070001 = true) (hx : s.nextEffect r.val = some x)
include hr hx

/-- A buffer that is no whole number of records is refused. -/
theorem exec_profileRingWrite_length (hl : x.desc.bufLength % 68 ≠ 0) :
    exec (.profileRingWrite r) s = .next (s.tookEffect r.val x.slot .range x.desc.bufLength 0) := by
  show execProfileRingWrite r s = _
  simp [execProfileRingWrite, hr, hx, hl]

/-- A buffer of one good record writes the profile that it names. -/
theorem exec_profileRingWrite_one (hl : x.desc.bufLength = 68) (hm : s.mcodeBusy = false) (h0 : x.record = 0)
    (hgood : s.profRecordGood (profRecord x.data 0) = true) (hh : (s.profile (le (profRecord x.data 0) 0 2)).hold = false) :
    exec (.profileRingWrite r) s =
      .next ((s.flipProfile (le (profRecord x.data 0) 0 2) ((profRecord x.data 0).drop 4)).tookEffect r.val x.slot .ok 68 0) := by
  show execProfileRingWrite r s = _
  simp [execProfileRingWrite, hr, hx, hl, hm, h0, hgood, hh, writeProfiles_one hh]

end

/-- Settles O31: each command runs on a state that only reports tell from the one before its access, and every write is a flip of the profile. -/
theorem profilesAreWrittenInPairs : Obligations.ProfilesAreWrittenInPairs := by
  intro s
  refine ⟨fun p arg hg => ⟨fun ha => ?range, fun h0 h1 => ⟨fun hm hh => ⟨profileWrite_accepts hg h0 h1 hm hh,
    profileClear_accepts hg h0 h1 hm hh⟩, fun hb => ?busy, profileRead_accepts hg h0 h1⟩⟩, completes_profileHoldEnd s,
    fun r x hr hx => ⟨fun hl => ⟨_, exec_profileRingWrite_length hr hx hl, rfl, rfl, rfl⟩, fun hl hm h0 hgood hh =>
      ⟨_, exec_profileRingWrite_one hr hx hl hm h0 hgood hh, ?flip, rfl, rfl⟩⟩⟩
  case range => exact (profileWrite_range hg ha).mono fun t ⟨⟨hres, honly⟩, hend⟩ => ⟨hres, hend, honly⟩
  case busy => exact (profileWrite_busy hg h0 h1 hb).mono fun t ⟨⟨hres, honly⟩, hend⟩ => ⟨hres, hend, honly⟩
  case flip => exact profile_updProfile_self ..

end Sys2Proof.Machine
end

section
/-! PROOF. Microcode (R241, R243 to R246): MCODE_CMD, the end of a LOAD, the turns of a switch and the end of a repair. -/

namespace Sys2Proof.Machine

/-! ### What the shared operations leave alone -/

/-- The version and catalogue objects (R230, R248). -/
def bundleKeys : List Nat :=
  [O.activeVersion, O.idleVersion, O.stagedVersion, O.activeCatalogue, O.idleCatalogue, O.stagedCatalogue]

theorem bundleKeys_index : ∀ k ∈ bundleKeys, k / 256 < 0x5500 := by decide

theorem rd_showBundles (s : State) {k : Nat} (hk : k ∉ bundleKeys) : s.showBundles.rd k = s.rd k := by
  have hne : ∀ j ∈ bundleKeys, j ≠ k := fun j hj e => hk (e ▸ hj)
  unfold State.showBundles
  dsimp only
  rw [rd_wr_ne _ _ (hne _ (by decide)), rd_wr_ne _ _ (hne _ (by decide)), rd_wr_ne _ _ (hne _ (by decide)),
    rd_wr_ne _ _ (hne _ (by decide)), rd_wr_ne _ _ (hne _ (by decide)), rd_wr_ne _ _ (hne _ (by decide))]

theorem pk_raise (s : State) {r : Nat} (hr : r < 64) (type func sev a0 a1 a2 : Nat) : (s.raise r type func sev a0 a1 a2).pk = s.pk :=
  (records_raise hr (.refl _ s)).pk

theorem badProfile_congr {s t : State} (h : t.pk = s.pk) (b : Option Bundle) : t.badProfile b = s.badProfile b := by
  simp only [State.badProfile, h]

/-! ### The objects of a cluster -/

section
variable {c d a b : Nat}

/-- Objects of two clusters, or two objects of one, differ. -/
theorem clusterKey_ne (ha : a < 256) (hb : b < 256) (h : c ≠ d ∨ a ≠ b) : key (0x5500 + c) a ≠ key (0x5500 + d) b := by
  simp only [key]
  omega

/-- An object of a cluster stands at no index of the objects that the clusters share. -/
theorem ne_clusterKey {j : Nat} (hj : j / 256 < 0x5500) (ha : a < 256) : j ≠ key (0x5500 + c) a := by
  simp only [key]
  omega

theorem reportKey_cluster (hc : c < 48) (ha : a < 256) : reportKey (key (0x5500 + c) a) = false := reportKey_key (by omega) ha

theorem recordKey_cluster (hc : c < 48) (ha : a < 256) : recordKey (key (0x5500 + c) a) = false := by
  have h := reportKey_cluster hc ha
  simp only [reportKey, Bool.or_eq_false_iff] at h
  obtain ⟨⟨⟨hrec, -⟩, -⟩, -⟩ := h
  exact hrec

theorem protKey_cluster (hc : c < 48) (ha : a < 256) : protKey (key (0x5500 + c) a) = false := by
  have e : key (0x5500 + c) a / 256 = 0x5500 + c := by simp only [key]; omega
  have hout : ¬0x5500 + c ≥ 0x8800 := by omega
  rw [protKey, recordKey_cluster hc ha, e, decide_eq_false hout, Bool.false_and, Bool.or_false]

theorem not_mem_bundleKeys_cluster (ha : a < 256) : key (0x5500 + c) a ∉ bundleKeys := fun h =>
  ne_clusterKey (bundleKeys_index _ h) ha rfl

end

/-! ### A MCODE_CMD (R243) -/

section
variable {s : State} {p : Path}

theorem exec_load : exec (.load p 0) s = .next (access p O.mcodeCmd (cmdData 1 0) cmdLoad s) := rfl

theorem exec_switch : exec (.switch p 0) s = .next (access p O.mcodeCmd (cmdData 2 0) cmdSwitch s) := rfl

theorem exec_abort : exec (.abort p 0) s = .next (access p O.mcodeCmd (cmdData 3 0) cmdMcodeAbort s) := rfl

theorem mcodeState_reports {t : State} (h : Reports s t) : t.rd O.mcodeState = s.rd O.mcodeState := h.rd _ (by decide)

theorem cmdLoad_ok (h : s.rd O.mcodeState = 1 ∨ s.rd O.mcodeState = 3) (hb : s.pk.staged ≠ none) :
    cmdLoad s = ((s.upk fun x => { x with idle := none }).showBundles.wr O.mcodeState 2, .ok) := by
  rcases h with h | h <;> simp [cmdLoad, h, hb]

theorem cmdLoad_busy (h : s.rd O.mcodeState = 2 ∨ s.rd O.mcodeState = 4) : cmdLoad s = (s, .busy) := by
  rcases h with h | h <;> simp [cmdLoad, h]

theorem cmdSwitch_busy (h : s.rd O.mcodeState = 2 ∨ s.rd O.mcodeState = 4) : cmdSwitch s = (s, .busy) := by
  rcases h with h | h <;> simp [cmdSwitch, h]

/-- A cluster in service whose turn has come drains. -/
theorem takeTurn_drains {c : Nat} (fuel : Nat) (hturn : s.pk.turn = c) (hc : c < 48) (h : s.rd (O.clusterState c) = 1) :
    State.takeTurn (fuel + 1) s = s.wr (O.clusterState c) 2 := by
  simp [State.takeTurn, hturn, h, Nat.not_le.mpr hc]

/-- A switch has begun, and it is the turn of cluster 0. -/
def State.switchBegun (s : State) : State := (s.upk fun x => { x with turn := 0, switched := 0 }).wr O.mcodeState 4

theorem rd_switchBegun {k : Nat} (hk : O.mcodeState ≠ k) (s : State) : s.switchBegun.rd k = s.rd k := rd_wr_ne _ _ hk

theorem cmdSwitch_ok (h : s.rd O.mcodeState = 3) (hb : s.badProfile s.pk.idle = none) (h0 : s.rd (O.clusterState 0) = 1) :
    cmdSwitch s = ((s.switchBegun.wr (O.clusterState 0) 2).protFollow, .ok) := by
  have hrun : cmdSwitch s = (s.switchBegun.turnNext, .ok) := by simp [cmdSwitch, h, hb, State.switchBegun]
  rw [hrun, State.turnNext, takeTurn_drains (c := 0) 48 rfl (by decide) ((rd_switchBegun (by decide) s).trans h0)]

theorem cmdMcodeAbort_ok (h : s.rd O.mcodeState = 2 ∨ s.rd O.mcodeState = 3) :
    cmdMcodeAbort s = (((s.upk fun x => { x with idle := none }).showBundles.wr O.mcodeState 1).wrSt O.mcodeResult .ok, .ok) := by
  rcases h with h | h <;> simp [cmdMcodeAbort, h]

section
variable (hg : s.gate p O.mcodeCmd = .pass)
include hg

theorem load_accepts (h : s.rd O.mcodeState = 1 ∨ s.rd O.mcodeState = 3) (hb : s.pk.staged ≠ none) :
    Accepts (.load p 0) p O.mcodeCmd s fun t => t.rd O.mcodeState = 2 ∧ t.pk = { s.pk with idle := none } := by
  refine completes_status exec_load hg fun t ht => ⟨_, cmdLoad_ok (by rwa [mcodeState_reports ht]) (by rwa [ht.pk]), fun u hu => ⟨?_, ?_⟩⟩
  · rw [mcodeState_reports hu, rd_wr_self]
  · rw [hu.pk, ← ht.pk]
    rfl

theorem load_busy (h : s.rd O.mcodeState = 2 ∨ s.rd O.mcodeState = 4) : Refuses (.load p 0) p O.mcodeCmd s .busy :=
  completes_status exec_load hg fun t ht => ⟨t, cmdLoad_busy (by rwa [mcodeState_reports ht]), fun _ hu => ht.trans hu⟩

theorem switch_busy (h : s.rd O.mcodeState = 2 ∨ s.rd O.mcodeState = 4) : Refuses (.switch p 0) p O.mcodeCmd s .busy :=
  completes_status exec_switch hg fun t ht => ⟨t, cmdSwitch_busy (by rwa [mcodeState_reports ht]), fun _ hu => ht.trans hu⟩

theorem switch_accepts (h : s.rd O.mcodeState = 3) (hb : s.badProfile s.pk.idle = none) (h0 : s.rd (O.clusterState 0) = 1) :
    Accepts (.switch p 0) p O.mcodeCmd s fun t =>
      t.rd O.mcodeState = 4 ∧ t.rd (O.clusterState 0) = 2 ∧ t.pk.turn = 0 ∧ t.pk.active = s.pk.active := by
  refine completes_status exec_switch hg fun t ht => ⟨_, cmdSwitch_ok (by rwa [mcodeState_reports ht])
    (by rwa [badProfile_congr ht.pk, ht.pk]) ((ht.rd _ (by decide)).trans h0), fun u hu => ?_⟩
  have hprot := protFollowed_protFollow (t.switchBegun.wr (O.clusterState 0) 2)
  refine ⟨?_, ?_, ?_, ?_⟩
  · rw [hu.rd _ (by decide), hprot.rd _ (by decide), rd_wr_ne _ _ (by decide)]
    exact rd_wr_self ..
  · rw [hu.rd _ (by decide), hprot.rd _ (by decide), rd_wr_self]
  · rw [hu.pk, hprot.pk]
    rfl
  · rw [hu.pk, hprot.pk, ← ht.pk]
    rfl

theorem abort_accepts (h : s.rd O.mcodeState = 2 ∨ s.rd O.mcodeState = 3) : Accepts (.abort p 0) p O.mcodeCmd s fun t =>
    t.rd O.mcodeState = 1 ∧ t.rd O.mcodeResult = Status.ok.code ∧ t.pk = { s.pk with idle := none } := by
  refine completes_status exec_abort hg fun t ht => ⟨_, cmdMcodeAbort_ok (by rwa [mcodeState_reports ht]), fun u hu => ⟨?_, ?_, ?_⟩⟩
  · rw [mcodeState_reports hu, rd_wrSt_ne _ _ (by decide), rd_wr_self]
  · rw [hu.rd _ (by decide), rd_wrSt_self]
  · rw [hu.pk, ← ht.pk]
    rfl

end
end

/-! ### The end of a LOAD (R244) -/

/-- The bundle of the store is the idle one. -/
def State.bundleLoaded (s : State) : State :=
  ((s.upk fun x => { x with idle := x.staged, staged := none }).showBundles.wr O.mcodeState 3).wrSt O.mcodeResult .ok

section
variable {s : State} (h : s.rd O.mcodeState = 2)
include h

theorem completes_mcodeLoaded_bad (c : Fin 48) : Completes (.mcodeLoaded (some c)) s fun t =>
    t.rd O.mcodeState = 1 ∧ t.rd O.mcodeResult = Status.integrity.code ∧ t.pk = s.pk := by
  have he : exec (.mcodeLoaded (some c)) s = .next (s.loadFails .integrity c.val) := if_neg (not_not_intro h)
  refine ⟨_, he, ?_, ?_, ?_⟩ <;> unfold State.loadFails
  · rw [rd_raise (by decide) (by decide), rd_wrSt_ne _ _ (by decide), rd_wr_self]
  · rw [rd_raise (by decide) (by decide), rd_wrSt_self]
  · exact pk_raise _ (by decide) ..

/-- The idle banks hold the bundle of the store, and every profile fits it. -/
theorem exec_mcodeLoaded_good (hb : s.badProfile s.pk.staged = none) : ∃ v n,
    exec (.mcodeLoaded none) s = .next (s.bundleLoaded.raise 9 0x0970 0x07 NOTICE v n 0) := by
  refine ⟨s.bundleLoaded.rd O.idleVersion, ((List.range 48).filter fun c => s.bundleLoaded.rd (O.clusterState c) != 4).length, ?_⟩
  show execMcodeLoaded none s = _
  simp only [execMcodeLoaded, h, hb, ne_eq, not_true_eq_false, if_false]
  rfl

theorem completes_mcodeLoaded_good (hb : s.badProfile s.pk.staged = none) : Completes (.mcodeLoaded none) s fun t =>
    t.rd O.mcodeState = 3 ∧ t.rd O.mcodeResult = Status.ok.code ∧ t.pk = { s.pk with idle := s.pk.staged, staged := none } := by
  obtain ⟨v, n, he⟩ := exec_mcodeLoaded_good h hb
  refine ⟨_, he, ?_, ?_, ?_⟩ <;> unfold State.bundleLoaded
  · rw [rd_raise (by decide) (by decide), rd_wrSt_ne _ _ (by decide), rd_wr_self]
  · rw [rd_raise (by decide) (by decide), rd_wrSt_self]
  · exact pk_raise _ (by decide) ..

end

/-! ### The turns of a switch (R245) -/

/-- The switch is over: the banks exchange their roles, and the objects and a record tell of it. -/
def State.switchOver (s : State) : State :=
  let s := s.upk fun x => { x with active := x.idle, idle := x.active }
  let s := ((s.showBundles.inc O.mcodeSwitches).wr O.lastSwitchTime (min s.pk.switched 0xFFFFFFFF)).wr O.mcodeState 3
  (s.wrSt O.mcodeResult .ok).raise 9 0x0971 0x07 NOTICE (s.rd O.activeVersion) (s.rd O.idleVersion) (s.rd O.lastSwitchTime)

section
variable {s : State}

theorem takeTurn_over (fuel : Nat) (hc : 48 ≤ s.pk.turn) : State.takeTurn (fuel + 1) s = s.switchOver := if_pos hc

theorem pk_switchOver (s : State) : s.switchOver.pk = { s.pk with active := s.pk.idle, idle := s.pk.active } := pk_raise _ (by decide) ..

theorem mcodeState_switchOver (s : State) : s.switchOver.rd O.mcodeState = 3 := by
  unfold State.switchOver
  rw [rd_raise (by decide) (by decide), rd_wrSt_ne _ _ (by decide), rd_wr_self]

theorem mcodeSwitches_switchOver (s : State) :
    s.switchOver.rd O.mcodeSwitches = counted (tyOf O.mcodeSwitches) (s.rd O.mcodeSwitches) 1 := by
  unfold State.switchOver
  rw [rd_raise (by decide) (by decide), rd_wrSt_ne _ _ (by decide), rd_wr_ne _ _ (by decide), rd_wr_ne _ _ (by decide), rd_inc_self,
    rd_showBundles _ (by decide)]
  rfl

theorem rd_switchOver_cluster {c a : Nat} (hc : c < 48) (ha : a < 256) (s : State) :
    s.switchOver.rd (key (0x5500 + c) a) = s.rd (key (0x5500 + c) a) := by
  have hne : ∀ j, j / 256 < 0x5500 → j ≠ key (0x5500 + c) a := fun j hj => ne_clusterKey hj ha
  unfold State.switchOver
  rw [rd_raise (by decide) (recordKey_cluster hc ha), rd_wrSt_ne _ _ (hne _ (by decide)), rd_wr_ne _ _ (hne _ (by decide)),
    rd_wr_ne _ _ (hne _ (by decide)), rd_inc_ne _ (hne _ (by decide)), rd_showBundles _ (not_mem_bundleKeys_cluster ha)]
  rfl

/-- The turns that are to come leave the clusters alone that have had theirs. -/
theorem rd_takeTurn_cluster {c a : Nat} (hc : c < 48) (ha : a < 256) (fuel : Nat) (s : State) (hturn : c < s.pk.turn) :
    (State.takeTurn fuel s).rd (key (0x5500 + c) a) = s.rd (key (0x5500 + c) a) := by
  have hne : ∀ v b, b < 256 → (s.wr (key (0x5500 + s.pk.turn) b) v).rd (key (0x5500 + c) a) = s.rd (key (0x5500 + c) a) :=
    fun v b hb => rd_wr_ne _ _ (clusterKey_ne hb ha (.inl (by omega)))
  induction fuel generalizing s with
  | zero => rfl
  | succ fuel ih =>
    rcases Nat.lt_or_ge s.pk.turn 48 with hlt | hover
    · simp only [State.takeTurn, ge_iff_le, Nat.not_le.mpr hlt, if_false]
      split
      · refine (ih _ ?_ ?_).trans (hne _ 0x2 (by decide))
        · show c < s.pk.turn + 1
          omega
        · exact fun v b hb => rd_wr_ne _ _ (clusterKey_ne hb ha (.inl (Nat.ne_of_gt (Nat.lt_succ_of_lt hturn))))
      · split
        · rfl
        · exact hne _ 0x1 (by decide)
    · rw [takeTurn_over fuel hover, rd_switchOver_cluster hc ha]

end

section
variable {s : State} {c : Fin 48} {elapsed : Nat}

/-- A cluster has switched, and it is the next one's turn. -/
def State.switchedBank (s : State) (c elapsed : Nat) : State :=
  ((s.wr (O.clusterBank c) (1 - s.rd (O.clusterBank c))).wr (O.clusterState c) 1).upk fun x =>
    { x with turn := c + 1, switched := x.switched + elapsed }

theorem switchCluster_eq (s : State) (c elapsed : Nat) : s.switchCluster c elapsed = (s.switchedBank c elapsed).turnNext := rfl

theorem rd_switchedBank {j : Nat} (hj : j / 256 < 0x5500) (s : State) (c elapsed : Nat) : (s.switchedBank c elapsed).rd j = s.rd j := by
  simp only [State.switchedBank, upk_frame]
  rw [rd_wr_ne _ _ (ne_clusterKey hj (by decide)).symm, rd_wr_ne _ _ (ne_clusterKey hj (by decide)).symm]

/-- A cluster that has switched holds its other bank, and is in service. -/
theorem rd_switchedBank_cluster (s : State) (c elapsed : Nat) :
    (s.switchedBank c elapsed).rd (O.clusterBank c) = 1 - s.rd (O.clusterBank c) ∧ (s.switchedBank c elapsed).rd (O.clusterState c) = 1 :=
  ⟨(rd_wr_ne _ _ (clusterKey_ne (by decide) (by decide) (.inr (by decide)))).trans (rd_wr_self ..), rd_wr_self ..⟩

/-- After a turn a cluster that has had its own reads as before it. -/
theorem rd_turnNext_cluster {c a : Nat} (hc : c < 48) (ha : a < 256) (hturn : c < s.pk.turn) :
    s.turnNext.rd (key (0x5500 + c) a) = s.rd (key (0x5500 + c) a) :=
  ((protFollowed_protFollow _).rd _ (protKey_cluster hc ha)).trans (rd_takeTurn_cluster hc ha 49 s hturn)

theorem completes_clusterSwitch (h : s.rd O.mcodeState = 4) (hturn : s.pk.turn = c.val) (hd : s.rd (O.clusterState c.val) = 2)
    (hp : s.clusterPasses c.val = []) : Completes (.clusterSwitch c elapsed) s fun t =>
      t.rd (O.clusterBank c.val) = 1 - s.rd (O.clusterBank c.val) ∧ t.rd (O.clusterState c.val) = 1 ∧
      (c.val = 47 → t.rd O.mcodeState = 3 ∧ t.pk.active = s.pk.idle ∧ t.pk.idle = s.pk.active ∧
        t.rd O.mcodeSwitches = counted (tyOf O.mcodeSwitches) (s.rd O.mcodeSwitches) 1) := by
  have he : exec (.clusterSwitch c elapsed) s = .next (s.switchedBank c.val elapsed).turnNext := by
    show execClusterSwitch c elapsed s = _
    simp [execClusterSwitch, h, hturn, hd, hp, switchCluster_eq]
  obtain ⟨hbank, hstate⟩ := rd_switchedBank_cluster s c.val elapsed
  have hpast : c.val < (s.switchedBank c.val elapsed).pk.turn := Nat.lt_succ_self _
  refine ⟨_, he, ?_, ?_, fun h47 => ?_⟩
  · rw [rd_turnNext_cluster c.isLt (by decide) hpast, hbank]
  · rw [rd_turnNext_cluster c.isLt (by decide) hpast, hstate]
  · have hover : (s.switchedBank c.val elapsed).turnNext = (s.switchedBank c.val elapsed).switchOver.protFollow :=
      congrArg State.protFollow (takeTurn_over 48 (by omega))
    have hprot := protFollowed_protFollow (s.switchedBank c.val elapsed).switchOver
    rw [hover, hprot.rd _ (by decide), hprot.rd _ (by decide), hprot.pk, pk_switchOver, mcodeState_switchOver, mcodeSwitches_switchOver,
      rd_switchedBank (by decide)]
    exact ⟨rfl, rfl, rfl, rfl⟩

/-! ### The end of a repair (R241, R245) -/

section
variable (h : s.rd (O.clusterState c.val) = 3) (hp : s.clusterPasses c.val = [])
  (hturn : ¬(s.rd O.mcodeState = 4 ∧ s.pk.turn = c.val))
include h hp hturn

theorem completes_clusterRepairDone_good (ho : (mget s.pk.clusters {} c.val).out = false) : Completes (.clusterRepairDone c) s fun t =>
    t.rd (O.clusterState c.val) = 1 ∧
    t.rd (O.parityRepairs c.val) = counted (tyOf (O.parityRepairs c.val)) (s.rd (O.parityRepairs c.val)) 1 := by
  have he : exec (.clusterRepairDone c) s = .next ((s.inc (O.parityRepairs c.val)).wr (O.clusterState c.val) 1).protFollow := by
    show execClusterRepairDone c s = _
    simp [execClusterRepairDone, h, hp, ho, hturn]
  have hprot := protFollowed_protFollow ((s.inc (O.parityRepairs c.val)).wr (O.clusterState c.val) 1)
  refine ⟨_, he, ?_, ?_⟩
  · rw [hprot.rd _ (protKey_cluster c.isLt (by decide)), rd_wr_self]
  · rw [hprot.rd _ (protKey_cluster c.isLt (by decide)),
      rd_wr_ne _ _ (clusterKey_ne (by decide) (by decide) (.inr (by decide))), rd_inc_self]

theorem completes_clusterRepairDone_out (ho : (mget s.pk.clusters {} c.val).out = true) :
    Completes (.clusterRepairDone c) s fun t => t.rd (O.clusterState c.val) = 4 := by
  have he : exec (.clusterRepairDone c) s = .next (s.wr (O.clusterState c.val) 4).protFollow := by
    show execClusterRepairDone c s = _
    simp [execClusterRepairDone, h, hp, ho, hturn]
  exact ⟨_, he, ((protFollowed_protFollow _).rd _ (protKey_cluster c.isLt (by decide))).trans (rd_wr_self ..)⟩

end
end

/-- Settles O32: the turns of a switch go upward, so that none touches a cluster that has had its own, and following protection touches nothing of
the packet engines. -/
theorem microcodeIsLoadedAndSwitched : Obligations.MicrocodeIsLoadedAndSwitched := by
  intro s
  exact ⟨fun p hg => ⟨load_accepts hg, fun h => ⟨load_busy hg h, switch_busy hg h⟩, switch_accepts hg, abort_accepts hg⟩,
    fun h => ⟨completes_mcodeLoaded_good h, completes_mcodeLoaded_bad h⟩,
    fun c elapsed => ⟨completes_clusterSwitch, fun h hp hturn =>
      ⟨completes_clusterRepairDone_good h hp hturn, completes_clusterRepairDone_out h hp hturn⟩⟩⟩

end Sys2Proof.Machine
end
